-- ==== Sys2Proof/Word.lean ====
section
/-! DEFINITION. The word types of the AT-48 and their plainest arithmetic: register words of 32 bits
(00_scope, Register types), bytes, byte strings read little-endian (R7) or big-endian, and the units of
TB_MONO (R42: 1/16 ns). -/

namespace Sys2Proof

/-- A register word (R330). -/
abbrev Word := BitVec 32

/-- One byte of a memory or of a message. -/
abbrev Byte := BitVec 8

/-- A byte string. -/
abbrev Bytes := List Byte

/-- Ticks of 1/16 ns (R42) in one nanosecond. -/
abbrev tickNs : Nat := 16

/-- Ticks of 1/16 ns in one microsecond. -/
abbrev tickUs : Nat := 16000

/-- Ticks of 1/16 ns in one millisecond. -/
abbrev tickMs : Nat := 16000000

/-- Ticks of 1/16 ns in one second. -/
abbrev tickS : Nat := 16000000000

/-- Bits `lo .. lo + w - 1` of a number. -/
def bitsOf (x lo w : Nat) : Nat := (x >>> lo) % 2 ^ w

/-- Bit `i` of a number. -/
def bitOf (x i : Nat) : Bool := (x >>> i) % 2 == 1

/-- `x` with bits `lo .. lo + w - 1` replaced by `v`. -/
def withBits (x lo w v : Nat) : Nat :=
  (x / 2 ^ (lo + w)) * 2 ^ (lo + w) + (v % 2 ^ w) * 2 ^ lo + x % 2 ^ lo

/-- The two's complement value of the low `w` bits of `x`. -/
def signedOf (w x : Nat) : Int :=
  let y := x % 2 ^ w
  if 2 * y < 2 ^ w then (y : Int) else (y : Int) - (2 ^ w : Nat)

/-- The low `w` bits of an integer, as a number. -/
def lowBits (w : Nat) (x : Int) : Nat := (x % ((2 ^ w : Nat) : Int)).toNat

/-- Arithmetic right shift: floor of `x / 2^n`. -/
def sra (x : Int) (n : Nat) : Int := x / ((2 ^ n : Nat) : Int)

/-- `rnd(x, n)` of R101: `(x + 2^(n-1)) >> n`, arithmetic. -/
def rndShift (x : Int) (n : Nat) : Int :=
  if n = 0 then x else sra (x + ((2 ^ (n - 1) : Nat) : Int)) n

/-- `x` brought into `lo .. hi`. -/
def clampNat (lo hi x : Nat) : Nat := if x < lo then lo else if hi < x then hi else x

/-- `x` brought into `lo .. hi`. -/
def clampInt (lo hi x : Int) : Int := if x < lo then lo else if hi < x then hi else x

/-- The little-endian number of a byte string (R7). -/
def leNat : Bytes → Nat
  | [] => 0
  | b :: bs => b.toNat + 256 * leNat bs

/-- The big-endian number of a byte string. -/
def beNat (bs : Bytes) : Nat := bs.foldl (fun a b => a * 256 + b.toNat) 0

/-- `n` bytes of `x`, little-endian (R7). -/
def leBytes : Nat → Nat → Bytes
  | 0, _ => []
  | n + 1, x => BitVec.ofNat 8 x :: leBytes n (x / 256)

/-- `n` bytes of `x`, big-endian: standard protocol headers. -/
def beBytes (n x : Nat) : Bytes := (leBytes n x).reverse

/-- The `n` bytes of a message from byte `ofs` on; short where the message ends. -/
def sliceB (bs : Bytes) (ofs n : Nat) : Bytes := (bs.drop ofs).take n

/-- The little-endian field of `n` bytes at byte `ofs` of a message. -/
def fieldB (bs : Bytes) (ofs n : Nat) : Nat := leNat (sliceB bs ofs n)

/-- Zero bytes. -/
def zeroBytes (n : Nat) : Bytes := List.replicate n 0#8

/-- `x` rounded up to a multiple of `m`. -/
def padTo (m x : Nat) : Nat := (x + m - 1) / m * m

/-- Ceiling of `a / b`. -/
def ceilDiv (a b : Nat) : Nat := (a + b - 1) / b

/-- A number saturated at `2^w - 1`. -/
def satU (w x : Nat) : Nat := if x < 2 ^ w then x else 2 ^ w - 1

/-- `l` with element `i` changed by `f` (unchanged where there is no such element). -/
def updAt {α : Type} (l : List α) (i : Nat) (f : α → α) : List α := l.modify i f

/-- 0 or 1. -/
def b2n (b : Bool) : Nat := if b then 1 else 0

end Sys2Proof
end

