-- ==== Sys2Proof/Syntax.lean ====
section
/-! DEFINITION. The commands of the AT-48 (spec/opcode_table.json: 230 rows, one constructor each) and the data they
carry. Every command's first operand `t` is the TB_MONO instant, in ticks of 1/16 ns (R42), at which it comes about
(assumption 1). The table gives its rows no operands and no bits: what a row brings from outside (a packet, a
measurement, a verdict of the signature engine) is an operand here. -/

namespace Sys2Proof

/-- The three masters of R320: host client 0, host client 1, the Miride monitor. -/
inductive Master where
  | host0 | host1 | monitor
deriving DecidableEq, Repr

/-- The number of a master (R320). -/
def Master.num : Master → Nat
  | .host0 => 0 | .host1 => 1 | .monitor => 2

/-- A network port that runs gPTP and the common services: a head port (R76) or a host port (R306). -/
inductive Port where
  | head (h : Fin 8)
  | host (p : Fin 2)
deriving DecidableEq, Repr

/-- Which VDD rail a check concerns (R442). -/
inductive RailDev where
  | ok | under | over
deriving DecidableEq, Repr

/-- Result of one memory read with ECC (R197, R378). -/
inductive EccRes where
  | clean | corrected | uncorrectable
deriving DecidableEq, Repr

/-- An error that a Table Gather Engine's own memories meet (R280): in the cache, the Map Update Buffer, one or both copies of
the remap table. -/
inductive TgeErr where
  | none | cacheCe | cacheUe | mubCe | mubUe | remapCe | remapUe
deriving DecidableEq, Repr

/-- What an operation of a tile meets that the state does not hold: an error in the scratchpad word at `spdAt`, which any read that
returns the word meets (R197, R200), one in its reads of DRAM, a tag whose parity fails (R201), errors of its Table Gather Engine,
its bank conflicts as bank, port granted, port delayed (R193), errors of voxel slots that it reaches (R134). -/
structure Soft where
  spd   : EccRes
  dram  : EccRes
  tag   : Bool
  tge   : TgeErr
  conf  : List (Nat × Nat × Nat)
  spdAt : Nat := 0
  vhu   : List EccRes := []
deriving DecidableEq, Repr

/-- Nothing met. -/
def Soft.none : Soft := { spd := .clean, dram := .clean, tag := false, tge := .none, conf := [] }

/-- What the boot ROM and the Dawn steps meet when PORST_N is released (R421, R438, R439) that the state does not hold: the
strap, what has been programmed into the flash and the OTP from outside, whether the flash answers, the verdicts of the
signature engine and the outcomes of the Dawn tests. -/
structure BootInput where
  pairRole   : Bool        -- PAIR_ROLE strap, false = A (R391)
  flash      : List (Nat × Bytes) -- programmed into the flash from outside since the last release (R419, R420)
  otp        : List (Nat × Bytes) -- fuses blown in manufacture since the last release (R415)
  otpBad     : Bool        -- an OTP word is uncorrectable (R415)
  flashOk    : Bool        -- the flash answers (R422)
  fwSigOk    : Bool        -- the firmware signature verifies under ROM_KEY (R421 step 4)
  imgSigOk   : Bool        -- the signature of the pipeline image in flash verifies (R141 check 3)
  log        : Option (Nat × List Int × Nat × Nat × Nat)
                           -- newest valid ageing-log record put there from outside: SEQ, AVS offsets, REF_DIV of A and B, hours (R383)
  pllOk      : Bool        -- every PLL locks (R439)
  dramOk     : Bool        -- both dies train
  spdOk      : Bool        -- scratchpad and tag self-test
  slicesBad  : List (Nat × Nat × List (BitVec 32))
                           -- slices, with lane group or lane, that fail, and the signatures of the failed runs: one where the retry passes,
                           -- two where it fails too (R371, R439)
  fsqOk      : Bool        -- Fault Sequencer, watchdog and lockstep self-test
deriving DecidableEq, Repr

/-- A usable Sync of the vehicle master on a host port (R57, R49): the master's identity and announced interval, and
the origin time of the Sync plus its corrections. -/
structure SyncInfo where
  gmId      : BitVec 64    -- clockIdentity of the grandmaster, byte 0 most significant (R474)
  domain    : Nat          -- gPTP domain
  logIntv   : Int          -- announced sync interval, 2^logIntv s
  origin    : Int          -- source time of the Sync at the master's MDI, 1/16 ns
  rxIntern  : Int          -- internal receive time stamp before TS_ING_LAT, on TB_MONO, 1/16 ns
  usable    : Bool         -- the Sync is usable
deriving DecidableEq, Repr

/-- A UDP datagram, or the message of another protocol, received on a port. -/
structure Datagram where
  srcIp   : Nat
  srcUdp  : Nat
  srcMac  : Nat
  dstIp   : Nat
  dstUdp  : Nat
  payload : Bytes
  tags    : Nat := 0       -- 802.1Q tags of its frame
  frag    : Bool := false  -- an IP fragment, no whole datagram
deriving DecidableEq, Repr

/-- How MACsec brought a frame to a host port (R308, R309). -/
structure SecInfo where
  protected_ : Bool        -- the frame carried a SecTAG
  sci        : Nat         -- SCI of the SecTAG, its first byte most significant
  an         : Nat         -- association number of the SecTAG
  pn         : Nat         -- packet number
  icvOk      : Bool        -- the ICV verifies under the installed key
deriving DecidableEq, Repr

/-- A request or reply of ARP, or an ICMP echo (R306, R296). -/
structure ArpInfo where
  senderIp  : Nat
  senderMac : Nat
  targetIp  : Nat
deriving DecidableEq, Repr

/-- A physical reading of the six dies' temperatures in 1/16 degC (R450). -/
abbrev Temps := List Int

/-- The results of one ageing run (R380). -/
structure AgeMeas where
  slack     : List (Nat × Nat)   -- worst slack in ps and its quadrant, per compute die
  ro        : List Nat           -- ring oscillators, kHz, six logic dies
  retention : List Nat           -- shortest retention of DRAM A, B, ms
  eyes      : List (Nat × Nat)   -- eye height and width in % of each port and lane in use: 0-7 heads, 8-9 hosts, 10-12 lanes
  eyeDram   : List (Nat × Nat)   -- eye height and width of DRAM PHY A, B
  reLow     : Bool               -- an eye stays below 10 % after re-adaptation
  avsFail   : List Bool          -- the PMBus transaction of the die's AVS step failed three times
  logFail   : Bool               -- the ageing-log write failed
deriving DecidableEq, Repr

/-- Readings that only the Power Manager's sensors give for a telemetry record (R385). -/
structure TelemInput where
  vcmpAmp10 : Nat
  inWatt10  : Nat
deriving DecidableEq, Repr

/-- A time exchange of the partner link (R402): the two-way time stamps and the partner's status. -/
structure TimeInfo where
  offset    : Int          -- TB_PTN minus TB_SNS as the two-way stamps give it, 1/16 ns
  state     : Nat          -- partner's SYS.STATE.STATE
  vehState  : Nat          -- partner's TMU.STAT.VEH_STATE
  epoch     : Nat          -- partner's MAP.EPOCH
  slots     : List Nat     -- status byte of each of the eight slots
  crcOk     : Bool
deriving DecidableEq, Repr

/-- The header of a partner-link frame as far as delivery goes (R394, R396). -/
structure LinkHdr where
  lseq  : Nat
  ack   : Nat
  crcOk : Bool
deriving DecidableEq, Repr

/-- HELLO (R397). -/
structure HelloInfo where
  role    : Bool
  part    : Nat
  digest  : Nat            -- SHA-256 of BUILD_ID and SVN, its first byte the most significant
  local_  : Nat            -- bit k: slot k local on the partner
  epoch   : Nat
  serials : List Nat
deriving DecidableEq, Repr

/-- One cross-check record (R405). -/
structure XcRec where
  wedge  : Nat
  flags  : Nat
  nObj   : Nat
  admNo  : Nat
  tClose : Int             -- ns, TB_SNS
  digest : Nat
deriving DecidableEq, Repr

/-- One map row-block record (R277). -/
structure MapRec where
  unit   : Fin 2           -- the Table Gather Engine that formed it
  epoch  : Nat
  level  : Nat
  table  : Nat
  block  : Nat
  serial : Nat
  crc    : Nat
  owner  : Bool            -- its sender holds itself the map owner
deriving DecidableEq, Repr

/-- A row of the map: level, slot, table, row (R263, R272). -/
structure RowKey where
  level : Nat
  slot  : Nat
  table : Nat
  row   : Nat
deriving DecidableEq, Repr

/-- The commands, one constructor per row of the table. `t` is the instant; `m` the master whose write it is; `h` a head
slot; `g` a global tile; `u` a base die's unit (0 = A); `p` a host port. -/
inductive Instr where
  -- reset and boot
  | porstNLow (t lowNs : Nat)
  | porstNRelease (t : Nat) (boot : BootInput)
  | tapReset (t : Nat)
  -- time
  | syncRx (t : Nat) (p : Fin 2) (y : SyncInfo)
  | holdover (t : Nat)
  | syncTx (t : Nat) (h : Fin 8)
  | announceTx (t : Nat) (h : Fin 8)
  | announceRx (t : Nat) (h : Fin 8)
  | pdelayReqTx (t : Nat) (q : Port)
  | pdelayReqRx (t : Nat) (q : Port) (seq : Nat)
  | pdelayRespRx (t : Nat) (q : Port) (seq : Nat) (turn : Int)
  | ppsInEdge (t : Nat)
  | ppsInLost (t : Nat)
  | ppsOutEdge (t : Nat)
  | ppsOutPulseEnd (t : Nat)
  | stepAccept (t : Nat) (m : Master)
  | snapshotGo (t : Nat) (m : Master)
  | snapshotDone (t : Nat)
  -- trackers and angle events
  | sampleGap (t : Nat) (h : Fin 8)
  | stopped (t : Nat) (h : Fin 8)
  | sectorStart (t : Nat) (h : Fin 8) (k : Nat)
  | farEdgeCrossing (t : Nat) (h : Fin 8) (w : Fin 64)
  | wedgeTimeout (t : Nat) (w : Fin 64)
  | wedgeCloseAfterCommit (t : Nat) (w : Fin 64)
  | columnEmissionDeadline (t : Nat) (h : Fin 8) (c : Nat)
  | twilightSlotOpen (t : Nat) (h : Fin 8)
  | twilightSlotClose (t : Nat) (h : Fin 8)
  | revolutionMark (t : Nat)
  -- head ports and identity
  | headLinkUp (t : Nat) (h : Fin 8)
  | headLinkDown (t : Nat) (h : Fin 8)
  | headPortEnable (t : Nat) (m : Master) (h : Fin 8)
  | arpRequestRx (t : Nat) (q : Port) (a : ArpInfo) (sec : SecInfo)
  | icmpEchoRx (t : Nat) (p : Fin 2) (d : Datagram) (sec : SecInfo)
  | challengeSend (t : Nat) (h : Fin 8)
  | challengeTimeout (t : Nat) (h : Fin 8)
  | answerSegmentRx (t : Nat) (h : Fin 8) (d : Datagram)
  | headCheckDone (t : Nat) (h : Fin 8) (sigOk : Bool) (digest : Bytes)
  | rechal (t : Nat) (m : Master) (h : Fin 8)
  | rechallengePeriod (t : Nat) (h : Fin 8)
  | intDrift (t : Nat) (h : Fin 8)
  -- ingest
  | pointPacket (t : Nat) (h : Fin 8) (d : Datagram)
  | poseFrame (t : Nat) (p : Fin 2) (d : Datagram) (sec : SecInfo)
  | imuDrdy (t : Nat)
  | imuReadDone (t : Nat) (rec : Bytes)
  | imuLost (t : Nat)
  | poseWaitTimeout (t : Nat) (u : Fin 2)
  | deskew (t : Nat) (u : Fin 2)
  | shedLevelUpdate (t : Nat) (u : Fin 2)
  -- voxel hash
  | voxelInsert (t : Nat) (u : Fin 2) (ecc : EccRes)
  | ageingPassStart (t : Nat) (u : Fin 2) (es : List EccRes := [])
  | ageingPassDone (t : Nat) (u : Fin 2)
  | recentringPassStart (t : Nat) (u : Fin 2) (es : List EccRes := [])
  | recentringPassDone (t : Nat) (u : Fin 2)
  | wedgeBuildStart (t : Nat) (ea : List EccRes := []) (eb : List EccRes := [])
  | wedgeBuildDone (t : Nat)
  -- descriptors of a tile
  | chainNone (t : Nat) (g : Fin 80) (x : Soft)
  | chainDense (t : Nat) (g : Fin 80) (x : Soft)
  | chainSparse (t : Nat) (g : Fin 80) (x : Soft)
  | chainDenseSm (t : Nat) (g : Fin 80) (x : Soft)
  | gather (t : Nat) (g : Fin 80) (x : Soft)
  | moveLinear (t : Nat) (g : Fin 80) (x : Soft)
  | moveStrided (t : Nat) (g : Fin 80) (x : Soft)
  | moveTransposedInt8 (t : Nat) (g : Fin 80) (x : Soft)
  | moveTransposedFp16 (t : Nat) (g : Fin 80) (x : Soft)
  | moveAllGather (t : Nat) (g : Fin 80) (x : Soft)
  | moveReduceScatter (t : Nat) (g : Fin 80) (x : Soft)
  | select (t : Nat) (g : Fin 80) (x : Soft)
  | merge (t : Nat) (g : Fin 80) (x : Soft)
  | maplookLookup (t : Nat) (g : Fin 80) (x : Soft)
  | maplookUpdate (t : Nat) (g : Fin 80) (x : Soft)
  | waitFull (t : Nat) (g : Fin 80) (x : Soft := Soft.none)
  | waitEmpty (t : Nat) (g : Fin 80) (x : Soft := Soft.none)
  | setFull (t : Nat) (g : Fin 80) (x : Soft := Soft.none)
  | setEmpty (t : Nat) (g : Fin 80) (x : Soft := Soft.none)
  | barrier (t : Nat) (g : Fin 80) (x : Soft := Soft.none)
  | barrierComplete (t : Nat) (stage : Fin 19)
  | tagWaitSatisfied (t : Nat) (g : Fin 80) (x : Soft := Soft.none)
  | wedgeAccept (t : Nat) (g : Fin 80) (x : Soft := Soft.none)
  | wedgeDone (t : Nat) (g : Fin 80) (x : Soft := Soft.none)
  | wedgeFptrWb (t : Nat) (g : Fin 80) (x : Soft := Soft.none)
  | loop (t : Nat) (g : Fin 80) (x : Soft := Soft.none)
  | late (t : Nat) (g : Fin 80)
  | hang (t : Nat) (g : Fin 80)
  | tagTo (t : Nat) (g : Fin 80)
  | barTo (t : Nat) (g : Fin 80)
  | ringArrival (t : Nat) (g : Fin 80) (x : Soft := Soft.none)
  | windowWrite (t : Nat) (g : Fin 80) (x : Soft := Soft.none)
  | scrubSweepLine (t : Nat) (g : Fin 80) (grp : Fin 3) (word : Nat) (ecc : EccRes)
  | scrubWriteBack (t : Nat) (g : Fin 80) (ecc : EccRes)
  | forcedScrubSlot (t : Nat) (g : Fin 80) (grp : Fin 3) (word : Nat := 0) (ecc : EccRes := .clean)
  | overflowSweepDone (t : Nat) (g : Fin 80) (errs : List (Nat × EccRes) := [])
  -- map store
  | mapDramReadDone (t : Nat) (u : Fin 2) (ecc : EccRes)
  | batchApplyDone (t : Nat) (u : Fin 2) (err : TgeErr) (errs : List (Fin 2 × RowKey × EccRes) := [])
  | shadowBankClear (t : Nat)
  | slotBusyEnd (t : Nat)
  | mapCommit (t : Nat) (m : Master) (levels : BitVec 16)
  | migrationRun (t : Nat) (u : Fin 2) (moves : List (Nat × Option Nat)) (errs : List (Nat × EccRes))
  | cacheRefresh (t : Nat) (u : Fin 2) (unpin : List RowKey) (loads : List (RowKey × EccRes) := [])
  -- output
  | columnEntryDrain (t : Nat) (g : Fin 80) (x : Soft := Soft.none)
  | resultBlockDrain (t : Nat) (g : Fin 80) (x : Soft := Soft.none)
  | colPackHoldExpiry (t : Nat) (p : Fin 2)
  | datagramTxStart (t : Nat) (p : Fin 2)
  | columnExpectationMissed (t : Nat)
  | wedgeExpectationMissed (t : Nat)
  | hostLinkUp (t : Nat) (p : Fin 2)
  | hostLinkDown (t : Nat) (p : Fin 2)
  | arpRetry (t : Nat) (p : Fin 2)
  | arpRefresh (t : Nat) (p : Fin 2)
  | arpRefreshTimeout (t : Nat) (p : Fin 2)
  | arpReplyRx (t : Nat) (p : Fin 2) (a : ArpInfo) (sec : SecInfo)
  -- ERAP and ownership
  | erapFrame (t : Nat) (p : Fin 2) (d : Datagram) (sec : SecInfo)
  | access (t : Nat)
  | claim (t : Nat)
  | electionClose (t : Nat)
  | renew (t : Nat)
  | release (t : Nat)
  | handover (t : Nat)
  | handoverOfferLapse (t : Nat)
  | leaseExpiry (t : Nat)
  | loadImage (t : Nat)
  | loadMap (t : Nat)
  | loadRecovery (t : Nat)
  | notify (t : Nat) (c : Fin 2)
  | pgCommit (t : Nat) (m : Master) (page : BitVec 12)
  | counterClear (t : Nat) (m : Master) (page : BitVec 12)
  | verify (t : Nat) (m : Master)
  | imageVerifyDone (t : Nat) (sigOk : Bool)
  | keyLoad (t : Nat) (m : Master) (p : Fin 2)
  | macsecLock (t : Nat) (m : Master) (p : Fin 2)
  | macsecEnable (t : Nat) (m : Master) (p : Fin 2)
  -- device states
  | goNoon (t : Nat) (m : Master)
  | noonEntryComplete (t : Nat) (checkOk : Bool)
  | goDusk (t : Nat) (m : Master)
  | drainComplete (t : Nat) (logFail : Bool)
  | duskTo (t : Nat)
  | goReady (t : Nat) (m : Master)
  | goHold (t : Nat) (m : Master)
  | refillComplete (t : Nat) (dramUe : Bool)
  | refillCheckDone (t : Nat) (crcOk : Bool) (spdUe : Option (Fin 80 × Nat))
  | flogPop (t : Nat) (m : Master)
  | fire (t : Nat) (m : Master) (page : BitVec 12)
  | lockstepMismatch (t : Nat)
  | wdt (t : Nat)
  | holdTo (t : Nat)
  -- self-test and maintenance
  | goldenWedgeClose (t : Nat)
  | sliceStart (t : Nat)
  | sliceDone (t : Nat) (words : List (BitVec 32)) (passes : List Bool)
  | abort (t : Nat)
  | roundTimeout (t : Nat)
  | missed (t : Nat) (code : Fin 12) (inst : Nat)
  | dramScrubRead (t : Nat) (u : Fin 2) (ecc : EccRes)
  | zqCalibration (t : Nat) (u : Fin 2)
  | readRetraining (t : Nat) (u : Fin 2)
  | portPhyCalibration (t : Nat) (port : Fin 13)
  | ageingMeasurement (t : Nat) (r : AgeMeas)
  | canary (t : Nat) (die : Fin 4) (slackPs : Nat)
  | lifeLimit (t : Nat)
  | telemetrySnapshot (t : Nat) (r : TelemInput)
  -- partner link
  | laneLock (t : Nat) (lane : Fin 3)
  | laneLockLoss (t : Nat) (lane : Fin 3)
  | hello (t : Nat) (hd : LinkHdr) (x : HelloInfo)
  | fwd (t : Nat) (hd : LinkHdr) (slot : Fin 8) (key : Bool) (payload : Bytes)
  | drop (t : Nat) (hd : LinkHdr) (slot : Fin 8) (count firstAz lastAz : Nat)
  | timeTx (t : Nat)
  | time (t : Nat) (x : TimeInfo)
  | idle (t : Nat)
  | replayTimeout (t : Nat)
  | xc (t : Nat) (hd : LinkHdr) (r : XcRec)
  | xcWaitExpiry (t : Nat)
  | mirrorLineSend (t : Nat) (g : Fin 80) (x : Soft := Soft.none)
  | mirror (t : Nat) (hd : LinkHdr) (part : Nat) (line : Bytes)
  | rej (t : Nat) (hd : LinkHdr)
  | mapck (t : Nat) (hd : LinkHdr) (recs : List MapRec) (errs : List (Fin 2 × RowKey × EccRes) := [])
  | maprow (t : Nat) (hd : LinkHdr) (rows : List (RowKey × Fin 2 × Bytes))
  | hbLost (t : Nat)
  | linkDown (t : Nat)
  | pulse (t : Nat) (m : Master)
  | autoResetDelay (t : Nat)
  | resetPulseEnd (t : Nat)
  -- security
  | recover (t : Nat) (m : Master) (sigOk : Bool)
  | flashWr (t : Nat) (m : Master)
  | flashDone (t : Nat)
  | progKey (t : Nat) (m : Master)
  | revoke (t : Nat) (m : Master)
  | advArb (t : Nat) (m : Master)
  | advLc (t : Nat) (m : Master)
  | otpDone (t : Nat) (readBack : Bool)
  | attGo (t : Nat) (m : Master)
  | attDone (t : Nat) (fwHash imgHash : Bytes) (signature : Bytes)
  | rngFail (t : Nat)
  | unlockExpiry (t : Nat)
  -- monitor
  | monHelp (t : Nat)
  | monId (t : Nat)
  | monState (t : Nat)
  | monRd (t addr n : Nat)
  | monFlog (t : Nat)
  | monClaim (t prio : Nat)
  | monRelease (t : Nat)
  | monHandover (t target : Nat)
  | monWr (t addr : Nat) (data : Word) (mask : Option Word)
  | monPop (t : Nat)
  | monUnlock (t : Nat)
  | monTok (t : Nat) (hex : Bytes)
  | monTokEnd (t : Nat) (sigOk : Bool)
  | monLock (t : Nat)
  | monBaud (t rate : Nat)
  | monitorIdle (t : Nat)
  | monitorLeaseRenew (t : Nat)
  -- JTAG
  | bypass (t : Nat)
  | idcode (t : Nat)
  | samplePreload (t : Nat)
  | extest (t : Nat)
  | clamp (t : Nat)
  | highz (t : Nat)
  | jtagDebugAccess (t addr : Nat) (write : Option Word)
  -- power and clocks
  | thermalRead (t : Nat) (temps : Temps)
  | railCheck (t : Nat) (rail : Fin 12) (dev : RailDev)
  | pmbAlert (t : Nat) (faults : List Bool)
  | refclkLost (t : Nat)
  | pllUnlock (t : Nat) (pll : Fin 6)
  | clkWindow (t : Nat) (dom : Fin 27)
  | lastDawnStepComplete (t : Nat)
  -- writes that start a unit, and what comes of them
  | trackerEnable (t : Nat) (m : Master) (h : Fin 8) (en : Bool)
  | partnerLinkEnable (t : Nat) (m : Master) (en : Bool)
  | imuEnable (t : Nat) (m : Master)
  | outputEnable (t : Nat) (m : Master)
  | partnerHbInEdge (t : Nat)
  | idleRx (t : Nat) (ack : Nat)
  | holdoffExpiry (t : Nat) (c : Fin 2)
  | rngPass (t : Nat)
deriving DecidableEq, Repr

end Sys2Proof
end

