-- ==== Sys2Proof/Machine/Crc.lean ====
section
/-! DEFINITION. The CRCs the manual names: CRC-32 with the IEEE 802.3 polynomial (R95, R350) and CRC-64 with the
ECMA-182 polynomial (R277, R366: initial value all ones, no reflection, no final XOR). The polynomials' values, and the bit
order, initial and final value of CRC-32, are those of the standards (assumption 17). -/

namespace Sys2Proof.Machine

/-- One bit step of the reflected CRC-32. -/
def crc32Bit (c : Nat) : Nat := if c % 2 = 1 then Nat.xor (c / 2) 0xEDB88320 else c / 2

/-- One byte of the reflected CRC-32. -/
def crc32Byte (c : Nat) (b : Byte) : Nat :=
  let c := Nat.xor c b.toNat
  crc32Bit (crc32Bit (crc32Bit (crc32Bit (crc32Bit (crc32Bit (crc32Bit (crc32Bit c)))))))

/-- CRC-32 (IEEE 802.3) of a byte string. -/
def crc32 (bs : Bytes) : Nat := Nat.xor (bs.foldl crc32Byte 0xFFFFFFFF) 0xFFFFFFFF

/-- One bit step of CRC-64. -/
def crc64Bit (c : Nat) : Nat :=
  if c / 2 ^ 63 % 2 = 1 then Nat.xor (c * 2 % 2 ^ 64) 0x42F0E1EBA9EA3693 else c * 2 % 2 ^ 64

/-- One byte of CRC-64. -/
def crc64Byte (c : Nat) (b : Byte) : Nat :=
  let c := Nat.xor c (b.toNat * 2 ^ 56)
  crc64Bit (crc64Bit (crc64Bit (crc64Bit (crc64Bit (crc64Bit (crc64Bit (crc64Bit c)))))))

/-- CRC-64 (ECMA-182) of a byte string (R366). -/
def crc64 (bs : Bytes) : Nat := bs.foldl crc64Byte 0xFFFFFFFFFFFFFFFF

end Sys2Proof.Machine
end

