-- ==== Sys2Proof/Config.lean ====
section
/-! DEFINITION. What the manual fixes for no one device and what it leaves open: every constant below is an OPAQUE
free value without a body, so that no proof can see what it is. Notes in notes/assumptions name each of them. -/

namespace Sys2Proof.Config

/-- Free value: the n-th 32-bit word drawn from the Security Island's random source (R88, R322, R425, R427), and the
n-th open choice of the device elsewhere (assumption 5). -/
opaque freeWord : Nat → BitVec 32

/-- Free value: the servo of TB_VEH (R47) gives no gain; offset in ns and sync interval in ns to a rate in 1/16 ppb,
limited to 250 ppm where it is used (assumption 12). -/
opaque vehServo : Int → Int → Int

/-- Implementation constants: Elvile's calibrated ingress latency of a port speed, in 1/16 ns (R58, assumption 13). -/
opaque calIngress : Nat → BitVec 16

/-- Implementation constants: Elvile's calibrated egress latency of a port speed, in 1/16 ns (R58, assumption 13). -/
opaque calEgress : Nat → BitVec 16

/-- Free value: sin of a 24-bit angle in Q2.30; it is used within the error bound of R101 (assumption 14). -/
opaque sinQ30 : Nat → Int

/-- Free value: cos of a 24-bit angle in Q2.30; it is used within the error bound of R101 (assumption 14). -/
opaque cosQ30 : Nat → Int

/-- Free value: whether entry `i` (0 to 8) of the Q2.30 rotation matrix of a quaternion is rounded up where the exact entry is no
multiple of 2^-30 (R99, assumption 15). -/
opaque rotUp : Int → Int → Int → Int → Nat → Bool

/-- Free value: whether `num / 2^sh` in the interpolation matrices m1 and m2 is rounded up where it is not exact (R101,
assumption 15). -/
opaque rndUp : Int → Nat → Bool

/-- Free value: the approximated GELU of R228, binary32 to binary32 (assumption 11). -/
opaque gelu : BitVec 32 → BitVec 32

/-- Free value: the approximated SiLU of R228 (assumption 11). -/
opaque silu : BitVec 32 → BitVec 32

/-- Free value: the approximated sigmoid of R228 (assumption 11). -/
opaque sigmoid : BitVec 32 → BitVec 32

/-- Free value: the approximated reciprocal square root of R228 (assumption 11). -/
opaque rsqrt : BitVec 32 → BitVec 32

/-- Free value: the approximated exponential of R228 for arguments not above 0 (assumption 11). -/
opaque expNeg : BitVec 32 → BitVec 32

/-- Implementation constants: the stored signature of a self-test slice and lane group in the BIST ROM (R371). -/
opaque bistRom : Nat → Nat → BitVec 32

/-- Free value: the source UDP port of the datagrams that the output block sends (R295 states none). -/
opaque resultUdp : Nat → BitVec 16

/-- Implementation constants: the VDD_CMP set point of a compute die at offset 0, in mV (R438, R442 give a range). -/
opaque vcmpNominal : Nat → BitVec 10

/-- Free value: whether a PORST_N low between 1 us and 10 us is taken (R448), by its length in ns. -/
opaque shortReset : Nat → Bool

end Sys2Proof.Config
end

