-- ==== Sys2Proof/Machine/RegTable.lean ====
section
/-! DEFINITION. The register tables of the AT-48: every register row of the manual's register tables with its offset,
array stride and count, reset values (R473) and the bits of each type (R11), and the page map of R332. Values the
manual leaves to OTP, flash or straps are 0 here (assumption 7); the variant is AT48-P3 (assumption 8). -/

namespace Sys2Proof.Machine

/-- One register row: offset in the page, array stride (0: no array) and count, reset values by array index or (when
`perPage`) by instance, and the bit masks of the types RW, W1C, W1S, SH and IW (R11); every other bit is RO or reserved. -/
structure RegDef where
  name : String
  ofs : Nat
  stride : Nat
  count : Nat
  resets : List Nat
  perPage : Bool
  rw : Nat
  w1c : Nat
  w1s : Nat
  sh : Nat
  iw : Nat
deriving DecidableEq, Repr

/-- One block of the page map (R332). -/
structure BlockDef where
  name : String
  page : Nat
  pages : Nat
  code : Nat
  parts : Nat
  regs : List RegDef
deriving DecidableEq, Repr

/-- A field whose written values are brought into a stated range (the register chapters' nearest-value rule). -/
structure RangeDef where
  block : Nat
  ofs : Nat
  lo : Nat
  w : Nat
  min : Nat
  max : Nat
deriving DecidableEq, Repr

/-- The common page header (R331). -/
def pgRegs : List RegDef := [
  ⟨"PG_ID", 0x000, 0, 1, [0x0], false, 0x0, 0x0, 0x0, 0x0, 0x0⟩,
  ⟨"PG_VER", 0x004, 0, 1, [0x100], false, 0x0, 0x0, 0x0, 0x0, 0x0⟩,
  ⟨"PG_CTRL", 0x008, 0, 1, [0x1], false, 0x1, 0x0, 0x0, 0x0, 0x0⟩,
  ⟨"PG_STAT", 0x00C, 0, 1, [0x0], false, 0x0, 0x1, 0x0, 0x0, 0x0⟩,
  ⟨"PG_IRQ_RAW", 0x010, 0, 1, [0x0], false, 0x0, 0x0, 0x0, 0x0, 0x0⟩,
  ⟨"PG_IRQ_EN", 0x014, 0, 1, [0x0], false, 0xFFFFFFFF, 0x0, 0x0, 0x0, 0x0⟩,
  ⟨"PG_IRQ_OUT", 0x018, 0, 1, [0x0], false, 0x0, 0x0, 0x0, 0x0, 0x0⟩,
  ⟨"PG_FAULT", 0x01C, 0, 1, [0x0], false, 0x0, 0x4, 0x0, 0x0, 0x0⟩,
  ⟨"PG_FAULT_INJ", 0x020, 0, 1, [0x0], false, 0xFF, 0x0, 0x100, 0x0, 0x0⟩,
  ⟨"PG_COMMIT", 0x024, 0, 1, [0x0], false, 0x0, 0x0, 0x1, 0x0, 0x0⟩,
  ⟨"PG_PART", 0x028, 0, 1, [0x0], false, 0x0, 0x0, 0x0, 0x0, 0x0⟩]

/-- The registers of block SYS. -/
def sysRegs : List RegDef := [
  ⟨"SYS.ID", 0x040, 0, 1, [0x230048], false, 0x0, 0x0, 0x0, 0x0, 0x0⟩,
  ⟨"SYS.REV", 0x044, 0, 1, [0x1], false, 0x0, 0x0, 0x0, 0x0, 0x0⟩,
  ⟨"SYS.STATE", 0x048, 0, 1, [0x1], false, 0x0, 0x0, 0x0, 0x0, 0x0⟩,
  ⟨"SYS.CMD", 0x04C, 0, 1, [0x0], false, 0x7, 0x0, 0x0, 0x0, 0x0⟩,
  ⟨"SYS.OWN", 0x050, 0, 1, [0x0], false, 0x0, 0x0, 0x0, 0x0, 0x0⟩,
  ⟨"SYS.EVT", 0x054, 0, 1, [0x0], false, 0x0, 0xFF, 0x0, 0x0, 0x0⟩,
  ⟨"SYS.IMG_CTRL", 0x058, 0, 1, [0x0], false, 0x0, 0x0, 0x1, 0x0, 0x0⟩,
  ⟨"SYS.IMG_STAT", 0x05C, 0, 1, [0x0], false, 0x0, 0x0, 0x0, 0x0, 0x0⟩,
  ⟨"SYS.IMG_LEN", 0x060, 0, 1, [0x0], false, 0x0, 0x0, 0x0, 0x0, 0x0⟩,
  ⟨"SYS.NOTIFY", 0x064, 0, 1, [0x3E80003], false, 0xFFFF0003, 0x0, 0x0, 0x0, 0x0⟩,
  ⟨"SYS.CLIENT.ADDR", 0x068, 4, 2, [0x0], false, 0x0, 0x0, 0x0, 0x0, 0x0⟩,
  ⟨"SYS.ERAP_RX_CNT", 0x070, 0, 1, [0x0], false, 0x0, 0x0, 0x0, 0x0, 0x0⟩,
  ⟨"SYS.ERAP_BAD_CNT", 0x074, 0, 1, [0x0], false, 0x0, 0x0, 0x0, 0x0, 0x0⟩,
  ⟨"SYS.NOT_OWNER_CNT", 0x078, 0, 1, [0x0], false, 0x0, 0x0, 0x0, 0x0, 0x0⟩,
  ⟨"SYS.TOKEN_CNT", 0x07C, 0, 1, [0x0], false, 0x0, 0x0, 0x0, 0x0, 0x0⟩,
  ⟨"SYS.REPLAY_CNT", 0x080, 0, 1, [0x0], false, 0x0, 0x0, 0x0, 0x0, 0x0⟩,
  ⟨"SYS.ERAP_DROP_CNT", 0x084, 0, 1, [0x0], false, 0x0, 0x0, 0x0, 0x0, 0x0⟩,
  ⟨"SYS.CNT_CLR", 0x088, 0, 1, [0x0], false, 0x0, 0x0, 0x1, 0x0, 0x0⟩]

/-- The registers of block TMU. -/
def tmuRegs : List RegDef := [
  ⟨"TMU.CTRL", 0x040, 0, 1, [0x0], false, 0xF, 0x0, 0x0, 0x0, 0x0⟩,
  ⟨"TMU.GPTP_CFG", 0x044, 0, 1, [0xD0000], false, 0x0, 0x0, 0x0, 0x0, 0xFFFFF⟩,
  ⟨"TMU.STAT", 0x048, 0, 1, [0x0], false, 0x0, 0x0, 0x0, 0x0, 0x0⟩,
  ⟨"TMU.EVT", 0x04C, 0, 1, [0x0], false, 0x0, 0xFF, 0x0, 0x0, 0x0⟩,
  ⟨"TMU.STEP_LIM", 0x050, 0, 1, [0x3E8], false, 0xFFFFF, 0x0, 0x0, 0x0, 0x0⟩,
  ⟨"TMU.STEP_OFS_LO", 0x054, 0, 1, [0x0], false, 0x0, 0x0, 0x0, 0x0, 0x0⟩,
  ⟨"TMU.STEP_OFS_HI", 0x058, 0, 1, [0x0], false, 0x0, 0x0, 0x0, 0x0, 0x0⟩,
  ⟨"TMU.STEP_GM_LO", 0x05C, 0, 1, [0x0], false, 0x0, 0x0, 0x0, 0x0, 0x0⟩,
  ⟨"TMU.STEP_GM_HI", 0x060, 0, 1, [0x0], false, 0x0, 0x0, 0x0, 0x0, 0x0⟩,
  ⟨"TMU.STEP_ACCEPT", 0x064, 0, 1, [0x0], false, 0x0, 0x0, 0x1, 0x0, 0x0⟩,
  ⟨"TMU.SNS_SLEW", 0x068, 0, 1, [0x186A0], false, 0x1FFFF, 0x0, 0x0, 0x0, 0x0⟩,
  ⟨"TMU.SNS_VEH_OFS", 0x06C, 0, 1, [0x0], false, 0x0, 0x0, 0x0, 0x0, 0x0⟩,
  ⟨"TMU.PPS_OUT", 0x070, 0, 1, [0x6400], false, 0xFF03, 0x0, 0x0, 0x0, 0x0⟩,
  ⟨"TMU.PTN_TOL", 0x074, 0, 1, [0x1F4], false, 0xFFFFF, 0x0, 0x0, 0x0, 0x0⟩,
  ⟨"TMU.WEDGE_TO", 0x078, 0, 1, [0x2710], false, 0x0, 0x0, 0x0, 0x1FFFF, 0x0⟩,
  ⟨"TMU.REF", 0x07C, 0, 1, [0x0], false, 0x0, 0x0, 0x0, 0x0, 0x0⟩,
  ⟨"TMU.SNAP_CTRL", 0x080, 0, 1, [0x0], false, 0x0, 0x0, 0x1, 0x0, 0x0⟩,
  ⟨"TMU.SNAP.SEC_LO", 0x090, 16, 4, [0x0], false, 0x0, 0x0, 0x0, 0x0, 0x0⟩,
  ⟨"TMU.SNAP.SEC_HI", 0x094, 16, 4, [0x0], false, 0x0, 0x0, 0x0, 0x0, 0x0⟩,
  ⟨"TMU.SNAP.NS", 0x098, 16, 4, [0x0], false, 0x0, 0x0, 0x0, 0x0, 0x0⟩,
  ⟨"TMU.STEP_REF_CNT", 0x0D0, 0, 1, [0x0], false, 0x0, 0x0, 0x0, 0x0, 0x0⟩,
  ⟨"TMU.HOLDOVER_CNT", 0x0D4, 0, 1, [0x0], false, 0x0, 0x0, 0x0, 0x0, 0x0⟩,
  ⟨"TMU.PPS_IN_NS", 0x0D8, 0, 1, [0x0], false, 0x0, 0x0, 0x0, 0x0, 0x0⟩]

/-- The registers of block AT. -/
def atRegs : List RegDef := [
  ⟨"AT.CTRL", 0x040, 0, 1, [0x0], false, 0x1, 0x0, 0x0, 0x0, 0x0⟩,
  ⟨"AT.CFG", 0x044, 0, 1, [0x1403C1], false, 0x0, 0x0, 0x0, 0x0, 0x1FF0FF3⟩,
  ⟨"AT.AZ_OFS", 0x048, 0, 1, [0x0], false, 0x0, 0x0, 0x0, 0xFFFFFF, 0x0⟩,
  ⟨"AT.COVER_LO", 0x04C, 0, 1, [0x0], false, 0x0, 0x0, 0x0, 0xFFFFFFFF, 0x0⟩,
  ⟨"AT.COVER_HI", 0x050, 0, 1, [0x0], false, 0x0, 0x0, 0x0, 0xFFFFFFFF, 0x0⟩,
  ⟨"AT.GUARD", 0x054, 0, 1, [0x4000], false, 0x0, 0x0, 0x0, 0xFFFFF, 0x0⟩,
  ⟨"AT.COL_DL", 0x058, 0, 1, [0x1800], false, 0x0, 0x0, 0x0, 0xFFFFF, 0x0⟩,
  ⟨"AT.TWI_START", 0x05C, 0, 1, [0x0], false, 0x0, 0x0, 0x0, 0xFFFFFF, 0x0⟩,
  ⟨"AT.TWI_END", 0x060, 0, 1, [0x0], false, 0x0, 0x0, 0x0, 0xFFFFFF, 0x0⟩,
  ⟨"AT.TOL", 0x064, 0, 1, [0x8000200], false, 0xFFFFFFFF, 0x0, 0x0, 0x0, 0x0⟩,
  ⟨"AT.STAT", 0x068, 0, 1, [0x0], false, 0x0, 0x0, 0x0, 0x0, 0x0⟩,
  ⟨"AT.RATE", 0x06C, 0, 1, [0x0], false, 0x0, 0x0, 0x0, 0x0, 0x0⟩,
  ⟨"AT.ANGLE", 0x070, 0, 1, [0x0], false, 0x0, 0x0, 0x0, 0x0, 0x0⟩,
  ⟨"AT.RESID", 0x074, 0, 1, [0x0], false, 0x0, 0x0, 0x0, 0x0, 0x0⟩,
  ⟨"AT.EVT", 0x078, 0, 1, [0x0], false, 0x0, 0xFF, 0x0, 0x0, 0x0⟩,
  ⟨"AT.FB_CNT", 0x07C, 0, 1, [0x0], false, 0x0, 0x0, 0x0, 0x0, 0x0⟩,
  ⟨"AT.DROP_SMP_CNT", 0x080, 0, 1, [0x0], false, 0x0, 0x0, 0x0, 0x0, 0x0⟩]

/-- The registers of block HP. Part 1. -/
def hpRegs1 : List RegDef := [
  ⟨"TS_ING_LAT", 0x3C0, 0, 1, [0x0], false, 0xFFFF, 0x0, 0x0, 0x0, 0x0⟩,
  ⟨"TS_EGR_LAT", 0x3C4, 0, 1, [0x0], false, 0xFFFF, 0x0, 0x0, 0x0, 0x0⟩,
  ⟨"TS_ASYM", 0x3C8, 0, 1, [0x0], false, 0xFFFFFFFF, 0x0, 0x0, 0x0, 0x0⟩,
  ⟨"TS_PDELAY", 0x3CC, 0, 1, [0x0], false, 0x0, 0x0, 0x0, 0x0, 0x0⟩,
  ⟨"HP.CTRL", 0x040, 0, 1, [0x4], false, 0x1, 0x0, 0x0, 0x0, 0xE⟩,
  ⟨"HP.STAT", 0x044, 0, 1, [0x400], false, 0x0, 0x0, 0x0, 0x0, 0x0⟩,
  ⟨"HP.EVT", 0x048, 0, 1, [0x0], false, 0x0, 0x1FF, 0x0, 0x0, 0x0⟩,
  ⟨"HP.CFG", 0x04C, 0, 1, [0x1F00], false, 0x0, 0x0, 0x0, 0x0, 0xFF03⟩,
  ⟨"HP.PRIO", 0x050, 0, 1, [0x0], false, 0x0, 0x0, 0x0, 0x7, 0x0⟩,
  ⟨"HP.UDP", 0x054, 0, 1, [0x1B591B58], false, 0x0, 0x0, 0x0, 0x0, 0xFFFFFFFF⟩,
  ⟨"HP.IPV4", 0x058, 0, 1, [0x0], false, 0x0, 0x0, 0x0, 0x0, 0xFFFFFFFF⟩,
  ⟨"HP.HEAD_IPV4", 0x05C, 0, 1, [0x0], false, 0xFFFFFFFF, 0x0, 0x0, 0x0, 0x0⟩,
  ⟨"HP.PKT0", 0x060, 0, 1, [0x0], false, 0x0, 0x0, 0x0, 0x0, 0x3FFF3FFF⟩,
  ⟨"HP.PKT1", 0x064, 0, 1, [0x101], false, 0x0, 0x0, 0x0, 0x0, 0xFFFF⟩,
  ⟨"HP.PKT2", 0x068, 0, 1, [0x0], false, 0x0, 0x0, 0x0, 0x0, 0x3FFF3FFF⟩,
  ⟨"HP.TS_WIN", 0x06C, 0, 1, [0x2710], false, 0xFFFFFF, 0x0, 0x0, 0x0, 0x0⟩,
  ⟨"HP.TS_NOM", 0x070, 0, 1, [0x0], false, 0xFFFFFF, 0x0, 0x0, 0x0, 0x0⟩,
  ⟨"HP.LIFE_CFG", 0x074, 0, 1, [0xE100014], false, 0xFFFF00FF, 0x0, 0x0, 0x0, 0x0⟩,
  ⟨"HP.INT_REF", 0x078, 0, 1, [0x0], false, 0xFFFF, 0x0, 0x0, 0x0, 0x0⟩,
  ⟨"HP.INT_DRIFT", 0x07C, 0, 1, [0x0], false, 0x0, 0x0, 0x0, 0x0, 0x0⟩,
  ⟨"HP.ID_CTRL", 0x080, 0, 1, [0x0], false, 0x2, 0x0, 0x1, 0x0, 0x0⟩,
  ⟨"HP.LIFE_HRS", 0x084, 0, 1, [0x0], false, 0x0, 0x0, 0x0, 0x0, 0x0⟩,
  ⟨"HP.LIFE_RATED", 0x088, 0, 1, [0x0], false, 0x0, 0x0, 0x0, 0x0, 0x0⟩,
  ⟨"HP.CNT_CLR", 0x08C, 0, 1, [0x0], false, 0x0, 0x0, 0x1, 0x0, 0x0⟩,
  ⟨"HP.FMAP.LOC", 0x100, 8, 16, [0x0], false, 0x0, 0x0, 0x0, 0x0, 0xFFFFFFFF⟩,
  ⟨"HP.FMAP.CONV", 0x104, 8, 16, [0x0], false, 0x0, 0x0, 0x0, 0x0, 0xFFFFFFFF⟩,
  ⟨"HP.MNT_R", 0x180, 4, 9, [0x40000000, 0x0, 0x0, 0x0, 0x40000000, 0x0, 0x0, 0x0, 0x40000000], false, 0x0, 0x0, 0x0, 0xFFFFFFFF, 0x0⟩,
  ⟨"HP.MNT_T", 0x1A4, 4, 3, [0x0], false, 0x0, 0x0, 0x0, 0xFFFFFFFF, 0x0⟩,
  ⟨"HP.ENROL", 0x1C0, 4, 8, [0x0], false, 0xFFFFFFFF, 0x0, 0x0, 0x0, 0x0⟩,
  ⟨"HP.RX_PKT", 0x200, 0, 1, [0x0], false, 0x0, 0x0, 0x0, 0x0, 0x0⟩]

/-- The registers of block HP. Part 2. -/
def hpRegs2 : List RegDef := [
  ⟨"HP.RX_RET", 0x204, 0, 1, [0x0], false, 0x0, 0x0, 0x0, 0x0, 0x0⟩,
  ⟨"HP.DROP_PARSE", 0x208, 0, 1, [0x0], false, 0x0, 0x0, 0x0, 0x0, 0x0⟩,
  ⟨"HP.DROP_TIME", 0x20C, 0, 1, [0x0], false, 0x0, 0x0, 0x0, 0x0, 0x0⟩,
  ⟨"HP.DROP_SHED", 0x210, 0, 1, [0x0], false, 0x0, 0x0, 0x0, 0x0, 0x0⟩,
  ⟨"HP.DROP_RANGE", 0x214, 0, 1, [0x0], false, 0x0, 0x0, 0x0, 0x0, 0x0⟩,
  ⟨"HP.DROP_VOXEL", 0x218, 0, 1, [0x0], false, 0x0, 0x0, 0x0, 0x0, 0x0⟩,
  ⟨"HP.DROP_POSE", 0x21C, 0, 1, [0x0], false, 0x0, 0x0, 0x0, 0x0, 0x0⟩,
  ⟨"HP.COL_EXCESS", 0x220, 0, 1, [0x0], false, 0x0, 0x0, 0x0, 0x0, 0x0⟩,
  ⟨"HP.EXCL_QUAR", 0x224, 0, 1, [0x0], false, 0x0, 0x0, 0x0, 0x0, 0x0⟩,
  ⟨"HP.SECT_SHED", 0x228, 0, 1, [0x0], false, 0x0, 0x0, 0x0, 0x0, 0x0⟩,
  ⟨"HP.CH.ELEV", 0x800, 8, 256, [0x0], false, 0x0, 0x0, 0x0, 0x0, 0xFFFFFF⟩,
  ⟨"HP.CH.ADJ", 0x804, 8, 256, [0x0], false, 0x0, 0x0, 0x0, 0x0, 0xFFFFFFFF⟩]

/-- The registers of block HP. -/
def hpRegs : List RegDef := hpRegs1 ++ hpRegs2

/-- The registers of block HS. -/
def hsRegs : List RegDef := [
  ⟨"TS_ING_LAT", 0x3C0, 0, 1, [0x0], false, 0xFFFF, 0x0, 0x0, 0x0, 0x0⟩,
  ⟨"TS_EGR_LAT", 0x3C4, 0, 1, [0x0], false, 0xFFFF, 0x0, 0x0, 0x0, 0x0⟩,
  ⟨"TS_ASYM", 0x3C8, 0, 1, [0x0], false, 0xFFFFFFFF, 0x0, 0x0, 0x0, 0x0⟩,
  ⟨"TS_PDELAY", 0x3CC, 0, 1, [0x0], false, 0x0, 0x0, 0x0, 0x0, 0x0⟩,
  ⟨"HS.CTRL", 0x040, 0, 1, [0x3], false, 0x1, 0x0, 0x0, 0x0, 0x6⟩,
  ⟨"HS.STAT", 0x044, 0, 1, [0x0], false, 0x0, 0x0, 0x0, 0x0, 0x0⟩,
  ⟨"HS.EVT", 0x048, 0, 1, [0x0], false, 0x0, 0x7F, 0x0, 0x0, 0x0⟩,
  ⟨"HS.IPV4", 0x04C, 0, 1, [0xC0A8300A, 0xC0A8310A], true, 0xFFFFFFFF, 0x0, 0x0, 0x0, 0x0⟩,
  ⟨"HS.MAC_LO", 0x050, 0, 1, [0x0], false, 0x0, 0x0, 0x0, 0x0, 0x0⟩,
  ⟨"HS.MAC_HI", 0x054, 0, 1, [0x0], false, 0x0, 0x0, 0x0, 0x0, 0x0⟩,
  ⟨"HS.VLAN", 0x058, 0, 1, [0x0], false, 0x0, 0x0, 0x0, 0x0, 0x7FFF⟩,
  ⟨"HS.ERAP_UDP", 0x05C, 0, 1, [0x1C84], false, 0xFFFF, 0x0, 0x0, 0x0, 0x0⟩,
  ⟨"HS.MACSEC", 0x060, 0, 1, [0x2], false, 0xFFFF000B, 0x0, 0x4, 0x0, 0x0⟩,
  ⟨"HS.RXSCI.LO", 0x064, 8, 2, [0x0], false, 0xFFFFFFFF, 0x0, 0x0, 0x0, 0x0⟩,
  ⟨"HS.RXSCI.HI", 0x068, 8, 2, [0x0], false, 0xFFFFFFFF, 0x0, 0x0, 0x0, 0x0⟩,
  ⟨"HS.KEY_SEL", 0x074, 0, 1, [0x0], false, 0x7, 0x0, 0x0, 0x0, 0x0⟩,
  ⟨"HS.KEY_CTRL", 0x078, 0, 1, [0x0], false, 0x0, 0x0, 0x1, 0x0, 0x0⟩,
  ⟨"HS.KEY", 0x080, 4, 8, [0x0], false, 0xFFFFFFFF, 0x0, 0x0, 0x0, 0x0⟩,
  ⟨"HS.TX_PN", 0x0A0, 0, 1, [0x0], false, 0x0, 0x0, 0x0, 0x0, 0x0⟩,
  ⟨"HS.RX_CNT", 0x0A4, 0, 1, [0x0], false, 0x0, 0x0, 0x0, 0x0, 0x0⟩,
  ⟨"HS.UNPROT_DROP_CNT", 0x0A8, 0, 1, [0x0], false, 0x0, 0x0, 0x0, 0x0, 0x0⟩,
  ⟨"HS.ICV_FAIL_CNT", 0x0AC, 0, 1, [0x0], false, 0x0, 0x0, 0x0, 0x0, 0x0⟩,
  ⟨"HS.REPLAY_CNT", 0x0B0, 0, 1, [0x0], false, 0x0, 0x0, 0x0, 0x0, 0x0⟩,
  ⟨"HS.CNT_CLR", 0x0B4, 0, 1, [0x0], false, 0x0, 0x0, 0x1, 0x0, 0x0⟩]

/-- The registers of block PLK. -/
def plkRegs : List RegDef := [
  ⟨"PLK.CTRL", 0x040, 0, 1, [0xC], false, 0x7, 0x0, 0x0, 0x0, 0x8⟩,
  ⟨"PLK.STAT", 0x044, 0, 1, [0x0], false, 0x0, 0x0, 0x0, 0x0, 0x0⟩,
  ⟨"PLK.EVT", 0x048, 0, 1, [0x0], false, 0x0, 0xFFF, 0x0, 0x0, 0x0⟩,
  ⟨"PLK.TIMEOUT", 0x04C, 0, 1, [0xC80064], false, 0xFFFFFFFF, 0x0, 0x0, 0x0, 0x0⟩,
  ⟨"PLK.RST", 0x050, 0, 1, [0x30001], false, 0xFFFFF, 0x0, 0x1000000, 0x0, 0x0⟩,
  ⟨"PLK.XC", 0x054, 0, 1, [0x3E8000A], false, 0xFFFF00FF, 0x0, 0x0, 0x0, 0x0⟩,
  ⟨"PLK.PTN_STATE", 0x058, 0, 1, [0x0], false, 0x0, 0x0, 0x0, 0x0, 0x0⟩,
  ⟨"PLK.PTN_EPOCH", 0x05C, 0, 1, [0x0], false, 0x0, 0x0, 0x0, 0x0, 0x0⟩,
  ⟨"PLK.CRC_ERR_CNT", 0x080, 0, 1, [0x0], false, 0x0, 0x0, 0x0, 0x0, 0x0⟩,
  ⟨"PLK.REPLAY_CNT", 0x084, 0, 1, [0x0], false, 0x0, 0x0, 0x0, 0x0, 0x0⟩,
  ⟨"PLK.FWD_TX_CNT", 0x088, 0, 1, [0x0], false, 0x0, 0x0, 0x0, 0x0, 0x0⟩,
  ⟨"PLK.FWD_RX_CNT", 0x08C, 0, 1, [0x0], false, 0x0, 0x0, 0x0, 0x0, 0x0⟩,
  ⟨"PLK.FWD_DROP_CNT", 0x090, 0, 1, [0x0], false, 0x0, 0x0, 0x0, 0x0, 0x0⟩,
  ⟨"PLK.RX_GAP_CNT", 0x094, 0, 1, [0x0], false, 0x0, 0x0, 0x0, 0x0, 0x0⟩,
  ⟨"PLK.XC_MATCH_CNT", 0x098, 0, 1, [0x0], false, 0x0, 0x0, 0x0, 0x0, 0x0⟩,
  ⟨"PLK.XC_MISMATCH_CNT", 0x09C, 0, 1, [0x0], false, 0x0, 0x0, 0x0, 0x0, 0x0⟩,
  ⟨"PLK.XC_UNMATCHED_CNT", 0x0A0, 0, 1, [0x0], false, 0x0, 0x0, 0x0, 0x0, 0x0⟩,
  ⟨"PLK.MIR_REJ_CNT", 0x0A4, 0, 1, [0x0], false, 0x0, 0x0, 0x0, 0x0, 0x0⟩,
  ⟨"PLK.LOST_CNT", 0x0A8, 0, 1, [0x0], false, 0x0, 0x0, 0x0, 0x0, 0x0⟩,
  ⟨"PLK.RST_CNT", 0x0AC, 0, 1, [0x0], false, 0x0, 0x0, 0x0, 0x0, 0x0⟩,
  ⟨"PLK.CNT_CLR", 0x0B0, 0, 1, [0x0], false, 0x0, 0x0, 0x1, 0x0, 0x0⟩]

/-- The registers of block ING. -/
def ingRegs : List RegDef := [
  ⟨"ING.CTRL", 0x040, 0, 1, [0x0], false, 0x0, 0x0, 0x0, 0x0, 0x3⟩,
  ⟨"ING.POSE_UDP", 0x044, 0, 1, [0x1BBC], false, 0x0, 0x0, 0x0, 0x0, 0xFFFF⟩,
  ⟨"ING.POSE_WAIT", 0x048, 0, 1, [0x2710], false, 0xFFFF, 0x0, 0x0, 0x0, 0x0⟩,
  ⟨"ING.POSE_GAP", 0x04C, 0, 1, [0xC350], false, 0xFFFF, 0x0, 0x0, 0x0, 0x0⟩,
  ⟨"ING.BAND0", 0x050, 0, 1, [0x320019], false, 0x0, 0x0, 0x0, 0xFFFFFFFF, 0x0⟩,
  ⟨"ING.BAND1", 0x054, 0, 1, [0x64004B], false, 0x0, 0x0, 0x0, 0xFFFFFFFF, 0x0⟩,
  ⟨"ING.BAND2", 0x058, 0, 1, [0xC80096], false, 0x0, 0x0, 0x0, 0xFFFFFFFF, 0x0⟩,
  ⟨"ING.BAND3", 0x05C, 0, 1, [0xFA], false, 0x0, 0x0, 0x0, 0xFFFF, 0x0⟩,
  ⟨"ING.SHED_WM", 0x060, 0, 1, [0x4B19], false, 0xFFFF, 0x0, 0x0, 0x0, 0x0⟩,
  ⟨"ING.SHED_STAT", 0x064, 0, 1, [0x0], false, 0x0, 0x0, 0x0, 0x0, 0x0⟩,
  ⟨"ING.EVT", 0x068, 0, 1, [0x0], false, 0x0, 0x7F, 0x0, 0x0, 0x0⟩,
  ⟨"ING.STAT", 0x06C, 0, 1, [0x0], false, 0x0, 0x0, 0x0, 0x0, 0x0⟩,
  ⟨"ING.ANCHOR.LO", 0x070, 8, 3, [0x0], false, 0x0, 0x0, 0x0, 0x0, 0x0⟩,
  ⟨"ING.ANCHOR.HI", 0x074, 8, 3, [0x0], false, 0x0, 0x0, 0x0, 0x0, 0x0⟩,
  ⟨"ING.POSE_RX_CNT", 0x088, 0, 1, [0x0], false, 0x0, 0x0, 0x0, 0x0, 0x0⟩,
  ⟨"ING.POSE_BAD_CNT", 0x08C, 0, 1, [0x0], false, 0x0, 0x0, 0x0, 0x0, 0x0⟩,
  ⟨"ING.EXTRAP_CNT", 0x090, 0, 1, [0x0], false, 0x0, 0x0, 0x0, 0x0, 0x0⟩,
  ⟨"ING.CNT_CLR", 0x094, 0, 1, [0x0], false, 0x0, 0x0, 0x1, 0x0, 0x0⟩,
  ⟨"ING.IMU_CFG", 0x0A0, 0, 1, [0x38000], false, 0x0, 0x0, 0x0, 0x0, 0xFFFF07⟩,
  ⟨"ING.IMU_LAT", 0x0A4, 0, 1, [0x0], false, 0xFFFF, 0x0, 0x0, 0x0, 0x0⟩]

/-- The registers of block VHU. -/
def vhuRegs : List RegDef := [
  ⟨"VHU.CTRL", 0x040, 0, 1, [0x1F], false, 0x0, 0x0, 0x0, 0x0, 0x1F⟩,
  ⟨"VHU.STAT", 0x044, 0, 1, [0x0], false, 0x0, 0x0, 0x0, 0x0, 0x0⟩,
  ⟨"VHU.EVT", 0x048, 0, 1, [0x0], false, 0x0, 0x7FF, 0x0, 0x0, 0x0⟩,
  ⟨"VHU.STASH_WM", 0x04C, 0, 1, [0xC000800], false, 0xFFF0FFF, 0x0, 0x0, 0x0, 0x0⟩,
  ⟨"VHU.HALO", 0x050, 0, 1, [0x190], false, 0x0, 0x0, 0x0, 0xFFFF, 0x0⟩,
  ⟨"VHU.MAX_ROWS", 0x054, 0, 1, [0xFFFF], false, 0x0, 0x0, 0x0, 0x0, 0xFFFF⟩,
  ⟨"VHU.ROWDST", 0x058, 0, 1, [0x0], false, 0x0, 0x0, 0x0, 0x0, 0x0⟩,
  ⟨"VHU.GRID.CFG", 0x060, 32, 3, [0x7, 0x8, 0x9], false, 0x0, 0x0, 0x0, 0x0, 0xF⟩,
  ⟨"VHU.GRID.EXT", 0x064, 32, 3, [0x400320, 0x4004B0, 0x4004B0], false, 0x0, 0x0, 0x0, 0x0, 0xFFFFFFFF⟩,
  ⟨"VHU.GRID.RECT", 0x068, 32, 3, [0x40], false, 0xFFFF, 0x0, 0x0, 0x0, 0x0⟩,
  ⟨"VHU.GRID.CTR_X", 0x06C, 32, 3, [0x0], false, 0x0, 0x0, 0x0, 0x0, 0x0⟩,
  ⟨"VHU.GRID.CTR_Y", 0x070, 32, 3, [0x0], false, 0x0, 0x0, 0x0, 0x0, 0x0⟩,
  ⟨"VHU.GRID.CTR_Z", 0x074, 32, 3, [0x0], false, 0x0, 0x0, 0x0, 0x0, 0x0⟩,
  ⟨"VHU.OCC", 0x0C0, 0, 1, [0x0], false, 0x0, 0x0, 0x0, 0x0, 0x0⟩,
  ⟨"VHU.STASH_OCC", 0x0C4, 0, 1, [0x0], false, 0x0, 0x0, 0x0, 0x0, 0x0⟩,
  ⟨"VHU.INS_CNT", 0x0C8, 0, 1, [0x0], false, 0x0, 0x0, 0x0, 0x0, 0x0⟩,
  ⟨"VHU.DROP_FULL_CNT", 0x0CC, 0, 1, [0x0], false, 0x0, 0x0, 0x0, 0x0, 0x0⟩,
  ⟨"VHU.OUT_WIN_CNT", 0x0D0, 0, 1, [0x0], false, 0x0, 0x0, 0x0, 0x0, 0x0⟩,
  ⟨"VHU.STALE_CNT", 0x0D4, 0, 1, [0x0], false, 0x0, 0x0, 0x0, 0x0, 0x0⟩,
  ⟨"VHU.SAT_CNT", 0x0D8, 0, 1, [0x0], false, 0x0, 0x0, 0x0, 0x0, 0x0⟩,
  ⟨"VHU.ROW_OVF_CNT", 0x0DC, 0, 1, [0x0], false, 0x0, 0x0, 0x0, 0x0, 0x0⟩,
  ⟨"VHU.LEVEL_OVF_CNT", 0x0E0, 0, 1, [0x0], false, 0x0, 0x0, 0x0, 0x0, 0x0⟩,
  ⟨"VHU.RB_OVF_CNT", 0x0E4, 0, 1, [0x0], false, 0x0, 0x0, 0x0, 0x0, 0x0⟩,
  ⟨"VHU.FPTR_LOST_CNT", 0x0E8, 0, 1, [0x0], false, 0x0, 0x0, 0x0, 0x0, 0x0⟩,
  ⟨"VHU.ECC_CE_CNT", 0x0EC, 0, 1, [0x0], false, 0x0, 0x0, 0x0, 0x0, 0x0⟩,
  ⟨"VHU.BUILD_CYC", 0x0F0, 0, 1, [0x0], false, 0x0, 0x0, 0x0, 0x0, 0x0⟩,
  ⟨"VHU.CNT_CLR", 0x0F4, 0, 1, [0x0], false, 0x0, 0x0, 0x1, 0x0, 0x0⟩,
  ⟨"VHU.RBQ.KIND", 0x100, 8, 16, [0x0], false, 0x0, 0x0, 0x0, 0x0, 0x0⟩,
  ⟨"VHU.RBQ.DST", 0x104, 8, 16, [0x0], false, 0x0, 0x0, 0x0, 0x0, 0x0⟩]

/-- The registers of block TGE. -/
def tgeRegs : List RegDef := [
  ⟨"TGE.STAT", 0x040, 0, 1, [0x0], false, 0x0, 0x0, 0x0, 0x0, 0x0⟩,
  ⟨"TGE.EVT", 0x044, 0, 1, [0x0], false, 0x0, 0xFF, 0x0, 0x0, 0x0⟩,
  ⟨"TGE.CACHE_OCC", 0x048, 0, 1, [0x0], false, 0x0, 0x0, 0x0, 0x0, 0x0⟩,
  ⟨"TGE.REMAP_OCC", 0x04C, 0, 1, [0x0], false, 0x0, 0x0, 0x0, 0x0, 0x0⟩,
  ⟨"TGE.LOOKUP_CNT", 0x050, 0, 1, [0x0], false, 0x0, 0x0, 0x0, 0x0, 0x0⟩,
  ⟨"TGE.COALESCE_CNT", 0x054, 0, 1, [0x0], false, 0x0, 0x0, 0x0, 0x0, 0x0⟩,
  ⟨"TGE.CACHE_HIT_CNT", 0x058, 0, 1, [0x0], false, 0x0, 0x0, 0x0, 0x0, 0x0⟩,
  ⟨"TGE.DRAM_READ_CNT", 0x05C, 0, 1, [0x0], false, 0x0, 0x0, 0x0, 0x0, 0x0⟩,
  ⟨"TGE.INVALID_CNT", 0x060, 0, 1, [0x0], false, 0x0, 0x0, 0x0, 0x0, 0x0⟩,
  ⟨"TGE.IDX_DROP_CNT", 0x064, 0, 1, [0x0], false, 0x0, 0x0, 0x0, 0x0, 0x0⟩,
  ⟨"TGE.EMPTY_CNT", 0x068, 0, 1, [0x0], false, 0x0, 0x0, 0x0, 0x0, 0x0⟩,
  ⟨"TGE.MUB_DROP_CNT", 0x06C, 0, 1, [0x0], false, 0x0, 0x0, 0x0, 0x0, 0x0⟩,
  ⟨"TGE.UPD_INV_CNT", 0x070, 0, 1, [0x0], false, 0x0, 0x0, 0x0, 0x0, 0x0⟩,
  ⟨"TGE.UPD_DISC_CNT", 0x074, 0, 1, [0x0], false, 0x0, 0x0, 0x0, 0x0, 0x0⟩,
  ⟨"TGE.BADROW_HIT_CNT", 0x078, 0, 1, [0x0], false, 0x0, 0x0, 0x0, 0x0, 0x0⟩,
  ⟨"TGE.MIGRATE_CNT", 0x07C, 0, 1, [0x0], false, 0x0, 0x0, 0x0, 0x0, 0x0⟩,
  ⟨"TGE.ECC_CE_CNT", 0x080, 0, 1, [0x0], false, 0x0, 0x0, 0x0, 0x0, 0x0⟩,
  ⟨"TGE.CNT_CLR", 0x084, 0, 1, [0x0], false, 0x0, 0x0, 0x1, 0x0, 0x0⟩,
  ⟨"TGE.HOT_IDX", 0x0A0, 0, 1, [0x0], false, 0x3FF, 0x0, 0x0, 0x0, 0x0⟩,
  ⟨"TGE.HOT_KEY", 0x0A4, 0, 1, [0x0], false, 0x0, 0x0, 0x0, 0x0, 0x0⟩,
  ⟨"TGE.HOT_CNT", 0x0A8, 0, 1, [0x0], false, 0x0, 0x0, 0x0, 0x0, 0x0⟩,
  ⟨"TGE.BADROW.ROW", 0x100, 8, 16, [0x0], false, 0x0, 0x0, 0x0, 0x0, 0x0⟩,
  ⟨"TGE.BADROW.KEY", 0x104, 8, 16, [0x0], false, 0x0, 0x0, 0x0, 0x0, 0x0⟩,
  ⟨"TGE.SHARD_LOAD", 0x200, 4, 32, [0x0], false, 0x0, 0x0, 0x0, 0x0, 0x0⟩]

/-- The registers of block MAP. -/
def mapRegs : List RegDef := [
  ⟨"MAP.CTRL", 0x040, 0, 1, [0x1002], false, 0xFF02, 0x0, 0x0, 0x0, 0x1⟩,
  ⟨"MAP.COMMIT", 0x044, 0, 1, [0x0], false, 0x0, 0x0, 0xFFFF, 0x0, 0x0⟩,
  ⟨"MAP.STAT", 0x048, 0, 1, [0xFFFF0000], false, 0x0, 0x0, 0x0, 0x0, 0x0⟩,
  ⟨"MAP.BUSY", 0x04C, 0, 1, [0x0], false, 0x0, 0x0, 0x0, 0x0, 0x0⟩,
  ⟨"MAP.EVT", 0x050, 0, 1, [0x0], false, 0x0, 0x1FFF, 0x0, 0x0, 0x0⟩,
  ⟨"MAP.EPOCH", 0x054, 0, 1, [0x0], false, 0x0, 0x0, 0x0, 0x0, 0x0⟩,
  ⟨"MAP.STAGES", 0x058, 0, 1, [0x0], false, 0x0, 0x0, 0x0, 0x0, 0x0⟩,
  ⟨"MAP.PAIR", 0x05C, 0, 1, [0x400], false, 0xFF01, 0x0, 0x0, 0x0, 0x0⟩,
  ⟨"MAP.SPARE", 0x060, 0, 1, [0x0], false, 0x0, 0x0, 0x0, 0x0, 0x0⟩,
  ⟨"MAP.SPARE_N", 0x064, 0, 1, [0x0], false, 0x0, 0x0, 0x0, 0x0, 0x0⟩,
  ⟨"MAP.MIG", 0x068, 0, 1, [0x40], false, 0xFFFF, 0x0, 0x0, 0x0, 0x0⟩,
  ⟨"MAP.ORIGIN.LO", 0x070, 8, 3, [0x0], false, 0x0, 0x0, 0x0, 0xFFFFFFFF, 0x0⟩,
  ⟨"MAP.ORIGIN.HI", 0x074, 8, 3, [0x0], false, 0x0, 0x0, 0x0, 0xFFFF, 0x0⟩,
  ⟨"MAP.RESYNC_CNT", 0x090, 0, 1, [0x0], false, 0x0, 0x0, 0x0, 0x0, 0x0⟩,
  ⟨"MAP.CKS_MISMATCH_CNT", 0x094, 0, 1, [0x0], false, 0x0, 0x0, 0x0, 0x0, 0x0⟩,
  ⟨"MAP.CNT_CLR", 0x098, 0, 1, [0x0], false, 0x0, 0x0, 0x1, 0x0, 0x0⟩,
  ⟨"MAP.LVL.CFG", 0x100, 32, 16, [0x0], false, 0x0, 0x0, 0x0, 0x0, 0x0⟩,
  ⟨"MAP.LVL.EXT", 0x104, 32, 16, [0x0], false, 0x0, 0x0, 0x0, 0x0, 0x0⟩,
  ⟨"MAP.LVL.BASE0", 0x108, 32, 16, [0x0], false, 0x0, 0x0, 0x0, 0x0, 0x0⟩,
  ⟨"MAP.LVL.BASE1", 0x10C, 32, 16, [0x0], false, 0x0, 0x0, 0x0, 0x0, 0x0⟩,
  ⟨"MAP.LVL.SERIAL", 0x110, 32, 16, [0x0], false, 0x0, 0x0, 0x0, 0x0, 0x0⟩]

/-- The registers of block DRAM. -/
def dramRegs : List RegDef := [
  ⟨"DRAM.STAT", 0x040, 0, 1, [0x0], false, 0x0, 0x0, 0x0, 0x0, 0x0⟩,
  ⟨"DRAM.EVT", 0x044, 0, 1, [0x0], false, 0x0, 0x3F, 0x0, 0x0, 0x0⟩,
  ⟨"DRAM.SCRUB", 0x048, 0, 1, [0x3E8], false, 0xFFFF, 0x0, 0x0, 0x0, 0x0⟩,
  ⟨"DRAM.RET_MS", 0x04C, 0, 1, [0x0], false, 0x0, 0x0, 0x0, 0x0, 0x0⟩,
  ⟨"DRAM.EYE", 0x050, 0, 1, [0x0], false, 0x0, 0x0, 0x0, 0x0, 0x0⟩,
  ⟨"DRAM.ECC_ADDR", 0x054, 0, 1, [0x0], false, 0x0, 0x0, 0x0, 0x0, 0x0⟩,
  ⟨"DRAM.ECC_INFO", 0x058, 0, 1, [0x0], false, 0x0, 0x0, 0x0, 0x0, 0x0⟩,
  ⟨"DRAM.CE_CNT", 0x05C, 0, 1, [0x0], false, 0x0, 0x0, 0x0, 0x0, 0x0⟩,
  ⟨"DRAM.UE_CNT", 0x060, 0, 1, [0x0], false, 0x0, 0x0, 0x0, 0x0, 0x0⟩,
  ⟨"DRAM.SCRUB_PASS_CNT", 0x064, 0, 1, [0x0], false, 0x0, 0x0, 0x0, 0x0, 0x0⟩,
  ⟨"DRAM.CNT_CLR", 0x068, 0, 1, [0x0], false, 0x0, 0x0, 0x1, 0x0, 0x0⟩]

/-- The registers of block AM. -/
def amRegs : List RegDef := [
  ⟨"AM.CTRL", 0x040, 0, 1, [0x0], false, 0x3, 0x0, 0x0, 0x0, 0x0⟩,
  ⟨"AM.COL_LIM", 0x044, 0, 1, [0x12C], false, 0xFFFF, 0x0, 0x0, 0x0, 0x0⟩,
  ⟨"AM.WEDGE_LIM", 0x048, 0, 1, [0xFA0], false, 0xFFFF, 0x0, 0x0, 0x0, 0x0⟩,
  ⟨"AM.COL_MISS", 0x04C, 0, 1, [0x12C], false, 0xFFFF, 0x0, 0x0, 0x0, 0x0⟩,
  ⟨"AM.WEDGE_MISS", 0x050, 0, 1, [0xFA0], false, 0xFFFF, 0x0, 0x0, 0x0, 0x0⟩,
  ⟨"AM.EVT", 0x054, 0, 1, [0x0], false, 0x0, 0xF, 0x0, 0x0, 0x0⟩,
  ⟨"AM.LAST_MISS", 0x058, 0, 1, [0x0], false, 0x0, 0x0, 0x0, 0x0, 0x0⟩,
  ⟨"AM.MAX_COL_AGE", 0x05C, 0, 1, [0x0], false, 0x0, 0x0, 0x0, 0x0, 0x0⟩,
  ⟨"AM.MAX_WEDGE_AGE", 0x060, 0, 1, [0x0], false, 0x0, 0x0, 0x0, 0x0, 0x0⟩,
  ⟨"AM.COL_STALE_CNT", 0x080, 4, 8, [0x0], false, 0x0, 0x0, 0x0, 0x0, 0x0⟩,
  ⟨"AM.COL_MISS_CNT", 0x0A0, 4, 8, [0x0], false, 0x0, 0x0, 0x0, 0x0, 0x0⟩,
  ⟨"AM.WEDGE_STALE_CNT", 0x0C0, 0, 1, [0x0], false, 0x0, 0x0, 0x0, 0x0, 0x0⟩,
  ⟨"AM.WEDGE_MISS_CNT", 0x0C4, 0, 1, [0x0], false, 0x0, 0x0, 0x0, 0x0, 0x0⟩,
  ⟨"AM.SUPP_CNT", 0x0C8, 0, 1, [0x0], false, 0x0, 0x0, 0x0, 0x0, 0x0⟩,
  ⟨"AM.CNT_CLR", 0x0CC, 0, 1, [0x0], false, 0x0, 0x0, 0x1, 0x0, 0x0⟩]

/-- The registers of block SI. -/
def siRegs : List RegDef := [
  ⟨"SI.CTRL", 0x040, 0, 1, [0x0], false, 0x1, 0x0, 0x0, 0x0, 0x0⟩,
  ⟨"SI.STAT", 0x044, 0, 1, [0x0], false, 0x0, 0x0, 0x0, 0x0, 0x0⟩,
  ⟨"SI.EVT", 0x048, 0, 1, [0x0], false, 0x0, 0xF, 0x0, 0x0, 0x0⟩,
  ⟨"SI.FLOG_POP", 0x04C, 0, 1, [0x0], false, 0x0, 0x0, 0x1, 0x0, 0x0⟩,
  ⟨"SI.FLOG", 0x050, 4, 4, [0x0], false, 0x0, 0x0, 0x0, 0x0, 0x0⟩,
  ⟨"SI.INJ", 0x060, 0, 1, [0x0], false, 0x0, 0x0, 0x0, 0x0, 0x3⟩,
  ⟨"SI.RST_CNT", 0x064, 0, 1, [0x0], false, 0x0, 0x0, 0x0, 0x0, 0x0⟩,
  ⟨"SI.HOLD_CAUSE", 0x068, 0, 1, [0x0], false, 0x0, 0x0, 0x0, 0x0, 0x0⟩,
  ⟨"SI.FSQ", 0x06C, 0, 1, [0x0], false, 0x0, 0x0, 0x0, 0x0, 0x0⟩,
  ⟨"SI.VIOL_ADDR", 0x070, 0, 1, [0x0], false, 0x0, 0x0, 0x0, 0x0, 0x0⟩,
  ⟨"SI.VIOL_INFO", 0x074, 0, 1, [0x0], false, 0x0, 0x0, 0x0, 0x0, 0x0⟩,
  ⟨"SI.VIOL_CNT", 0x078, 0, 1, [0x0], false, 0x0, 0x0, 0x0, 0x0, 0x0⟩,
  ⟨"SI.FLOG_SEL", 0x07C, 0, 1, [0x0], false, 0xF, 0x0, 0x0, 0x0, 0x0⟩,
  ⟨"SI.AV_EXP_LO", 0x080, 0, 1, [0x0], false, 0x0, 0x0, 0x0, 0x0, 0x0⟩,
  ⟨"SI.AV_EXP_HI", 0x084, 0, 1, [0x0], false, 0x0, 0x0, 0x0, 0x0, 0x0⟩,
  ⟨"SI.AV_FAIL_LO", 0x088, 0, 1, [0x0], false, 0x0, 0x0, 0x0, 0x0, 0x0⟩,
  ⟨"SI.AV_FAIL_HI", 0x08C, 0, 1, [0x0], false, 0x0, 0x0, 0x0, 0x0, 0x0⟩,
  ⟨"SI.CNT_CLR", 0x090, 0, 1, [0x0], false, 0x0, 0x0, 0x1, 0x0, 0x0⟩,
  ⟨"SI.REGION.BASE", 0x100, 16, 32, [0x0], false, 0x0, 0x0, 0x0, 0x0, 0x0⟩,
  ⟨"SI.REGION.SIZE", 0x104, 16, 32, [0x0], false, 0x0, 0x0, 0x0, 0x0, 0x0⟩,
  ⟨"SI.REGION.ATTR", 0x108, 16, 32, [0x0], false, 0x0, 0x0, 0x0, 0x0, 0x0⟩,
  ⟨"SI.BW", 0x300, 4, 16, [0x0], false, 0x0, 0x0, 0x0, 0x0, 0x0⟩]

/-- The registers of block MS. -/
def msRegs : List RegDef := [
  ⟨"MS.SCRUB", 0x040, 0, 1, [0x1000], false, 0xFFFF, 0x0, 0x0, 0x0, 0x0⟩,
  ⟨"MS.GOLD_CFG", 0x044, 0, 1, [0x40800], false, 0xFF0F00, 0x0, 0x0, 0x0, 0x0⟩,
  ⟨"MS.STAT", 0x048, 0, 1, [0x0], false, 0x0, 0x0, 0x0, 0x0, 0x0⟩,
  ⟨"MS.EVT", 0x04C, 0, 1, [0x0], false, 0x0, 0x3, 0x0, 0x0, 0x0⟩,
  ⟨"MS.LAST_MISSED", 0x050, 0, 1, [0x0], false, 0x0, 0x0, 0x0, 0x0, 0x0⟩,
  ⟨"MS.MISSED_CNT", 0x080, 4, 12, [0x0], false, 0x0, 0x0, 0x0, 0x0, 0x0⟩,
  ⟨"MS.CNT_CLR", 0x0B0, 0, 1, [0x0], false, 0x0, 0x0, 0x1, 0x0, 0x0⟩]

/-- The registers of block BIST. -/
def bistRegs : List RegDef := [
  ⟨"BIST.SLICE_EN", 0x040, 0, 1, [0x1FFF], false, 0x1FFF, 0x0, 0x0, 0x0, 0x0⟩,
  ⟨"BIST.ROUND", 0x044, 0, 1, [0x3C], false, 0xFFFF, 0x0, 0x0, 0x0, 0x0⟩,
  ⟨"BIST.READY_GAP", 0x048, 0, 1, [0xA], false, 0xFFFF, 0x0, 0x0, 0x0, 0x0⟩,
  ⟨"BIST.STAT", 0x04C, 0, 1, [0x0], false, 0x0, 0x0, 0x0, 0x0, 0x0⟩,
  ⟨"BIST.EVT", 0x050, 0, 1, [0x0], false, 0x0, 0xFF, 0x0, 0x0, 0x0⟩,
  ⟨"BIST.LAST_FAIL", 0x054, 0, 1, [0x0], false, 0x0, 0x0, 0x0, 0x0, 0x0⟩,
  ⟨"BIST.LAST_SIG", 0x058, 0, 1, [0x0], false, 0x0, 0x0, 0x0, 0x0, 0x0⟩,
  ⟨"BIST.LAST_EXP", 0x05C, 0, 1, [0x0], false, 0x0, 0x0, 0x0, 0x0, 0x0⟩,
  ⟨"BIST.REPAIR", 0x060, 0, 1, [0x0], false, 0x0, 0x0, 0x0, 0x0, 0x0⟩,
  ⟨"BIST.GOLD_SIG_LO", 0x068, 0, 1, [0x0], false, 0x0, 0x0, 0x0, 0x0, 0x0⟩,
  ⟨"BIST.GOLD_SIG_HI", 0x06C, 0, 1, [0x0], false, 0x0, 0x0, 0x0, 0x0, 0x0⟩,
  ⟨"BIST.GOLD_EXP.LO", 0x070, 8, 2, [0x0], false, 0x0, 0x0, 0x0, 0x0, 0x0⟩,
  ⟨"BIST.GOLD_EXP.HI", 0x074, 8, 2, [0x0], false, 0x0, 0x0, 0x0, 0x0, 0x0⟩,
  ⟨"BIST.GOLD_RUN_CNT", 0x080, 0, 1, [0x0], false, 0x0, 0x0, 0x0, 0x0, 0x0⟩,
  ⟨"BIST.GOLD_DEFER_CNT", 0x084, 0, 1, [0x0], false, 0x0, 0x0, 0x0, 0x0, 0x0⟩,
  ⟨"BIST.GOLD_FORCED_CNT", 0x088, 0, 1, [0x0], false, 0x0, 0x0, 0x0, 0x0, 0x0⟩,
  ⟨"BIST.GOLD_FAIL_CNT", 0x08C, 0, 1, [0x0], false, 0x0, 0x0, 0x0, 0x0, 0x0⟩,
  ⟨"BIST.SLICE_RUN_CNT", 0x090, 0, 1, [0x0], false, 0x0, 0x0, 0x0, 0x0, 0x0⟩,
  ⟨"BIST.SLICE_FAIL_CNT", 0x094, 0, 1, [0x0], false, 0x0, 0x0, 0x0, 0x0, 0x0⟩,
  ⟨"BIST.ABORT_CNT", 0x098, 0, 1, [0x0], false, 0x0, 0x0, 0x0, 0x0, 0x0⟩,
  ⟨"BIST.CNT_CLR", 0x09C, 0, 1, [0x0], false, 0x0, 0x0, 0x1, 0x0, 0x0⟩]

/-- The registers of block AGE. -/
def ageRegs : List RegDef := [
  ⟨"AGE.CFG", 0x040, 0, 1, [0xE10], false, 0xFFFF, 0x0, 0x0, 0x0, 0x0⟩,
  ⟨"AGE.SLACK", 0x044, 0, 1, [0x14783C], false, 0xFFFF, 0x0, 0x0, 0x0, 0x0⟩,
  ⟨"AGE.EVT", 0x048, 0, 1, [0x0], false, 0x0, 0xEF, 0x0, 0x0, 0x0⟩,
  ⟨"AGE.AVS", 0x050, 4, 4, [0x0], false, 0x0, 0x0, 0x0, 0x0, 0x0⟩,
  ⟨"AGE.SLACK_PS", 0x060, 4, 4, [0x0], false, 0x0, 0x0, 0x0, 0x0, 0x0⟩,
  ⟨"AGE.HOURS", 0x070, 0, 1, [0x0], false, 0x0, 0x0, 0x0, 0x0, 0x0⟩,
  ⟨"AGE.LOG", 0x074, 0, 1, [0x0], false, 0x0, 0x0, 0x0, 0x0, 0xFFFFFFFF⟩,
  ⟨"AGE.LOG_SEQ", 0x078, 0, 1, [0x0], false, 0x0, 0x0, 0x0, 0x0, 0x0⟩,
  ⟨"AGE.TELEM", 0x080, 0, 1, [0x640000], false, 0xFFFF0001, 0x0, 0x0, 0x0, 0x0⟩,
  ⟨"AGE.TEL_UDP", 0x084, 0, 1, [0x1C22], false, 0xFFFF, 0x0, 0x0, 0x0, 0x0⟩,
  ⟨"AGE.TEL_SEQ", 0x088, 0, 1, [0x0], false, 0x0, 0x0, 0x0, 0x0, 0x0⟩,
  ⟨"AGE.TEL_DROP_CNT", 0x08C, 0, 1, [0x0], false, 0x0, 0x0, 0x0, 0x0, 0x0⟩,
  ⟨"AGE.RO_KHZ", 0x090, 4, 6, [0x0], false, 0x0, 0x0, 0x0, 0x0, 0x0⟩,
  ⟨"AGE.CNT_CLR", 0x0B0, 0, 1, [0x0], false, 0x0, 0x0, 0x1, 0x0, 0x0⟩]

/-- The registers of block PM. -/
def pmRegs : List RegDef := [
  ⟨"PM.DOM_ON", 0x040, 0, 1, [0x23100000], false, 0x0, 0x0, 0x0, 0x0, 0x0⟩,
  ⟨"PM.DUSK", 0x044, 0, 1, [0x32], false, 0xFFFF, 0x0, 0x0, 0x0, 0x0⟩,
  ⟨"PM.THERM", 0x048, 0, 1, [0x78], false, 0xFF, 0x0, 0x0, 0x0, 0x0⟩,
  ⟨"PM.EVT", 0x04C, 0, 1, [0x0], false, 0x0, 0x3F, 0x0, 0x0, 0x0⟩,
  ⟨"PM.TEMP", 0x050, 4, 6, [0x0], false, 0x0, 0x0, 0x0, 0x0, 0x0⟩,
  ⟨"PM.VCMP", 0x068, 4, 4, [0x0], false, 0x0, 0x0, 0x0, 0x0, 0x0⟩,
  ⟨"PM.PMBUS_ERR_CNT", 0x078, 0, 1, [0x0], false, 0x0, 0x0, 0x0, 0x0, 0x0⟩,
  ⟨"PM.DUSK_TO_CNT", 0x07C, 0, 1, [0x0], false, 0x0, 0x0, 0x0, 0x0, 0x0⟩,
  ⟨"PM.CNT_CLR", 0x080, 0, 1, [0x0], false, 0x0, 0x0, 0x1, 0x0, 0x0⟩]

/-- The registers of block CM. -/
def cmRegs : List RegDef := [
  ⟨"CM.STAT", 0x040, 0, 1, [0x0], false, 0x0, 0x0, 0x0, 0x0, 0x0⟩,
  ⟨"CM.EVT", 0x044, 0, 1, [0x0], false, 0x0, 0xF, 0x0, 0x0, 0x0⟩,
  ⟨"CM.AON_KHZ", 0x048, 0, 1, [0x0], false, 0x0, 0x0, 0x0, 0x0, 0x0⟩,
  ⟨"CM.LAST", 0x04C, 0, 1, [0x0], false, 0x0, 0x0, 0x0, 0x0, 0x0⟩,
  ⟨"CM.UNLOCK_CNT", 0x050, 0, 1, [0x0], false, 0x0, 0x0, 0x0, 0x0, 0x0⟩,
  ⟨"CM.CNT_CLR", 0x054, 0, 1, [0x0], false, 0x0, 0x0, 0x1, 0x0, 0x0⟩]

/-- The registers of block SEC. -/
def secRegs : List RegDef := [
  ⟨"SEC.BOOT_STAT", 0x040, 0, 1, [0x0], false, 0x0, 0x0, 0x0, 0x0, 0x0⟩,
  ⟨"SEC.BOOT_CTRL", 0x044, 0, 1, [0x0], false, 0x0, 0x0, 0x3, 0x0, 0x0⟩,
  ⟨"SEC.STAT", 0x048, 0, 1, [0x0], false, 0x0, 0x0, 0x0, 0x0, 0x0⟩,
  ⟨"SEC.EVT", 0x04C, 0, 1, [0x0], false, 0x0, 0x1FF, 0x0, 0x0, 0x0⟩,
  ⟨"SEC.ARB", 0x050, 0, 1, [0x0], false, 0x7F0000, 0x0, 0x0, 0x0, 0x0⟩,
  ⟨"SEC.LC_ADV", 0x054, 0, 1, [0x0], false, 0xFFFF0003, 0x0, 0x0, 0x0, 0x0⟩,
  ⟨"SEC.OTP_CMD", 0x058, 0, 1, [0x0], false, 0x130, 0x0, 0x7, 0x0, 0x0⟩,
  ⟨"SEC.OTP_STAT", 0x05C, 0, 1, [0x0], false, 0x0, 0x0, 0x0, 0x0, 0x0⟩,
  ⟨"SEC.KEYSLOT", 0x060, 4, 4, [0x0], false, 0x0, 0x0, 0x0, 0x0, 0x0⟩,
  ⟨"SEC.KEY_RD", 0x070, 0, 1, [0x0], false, 0x3, 0x0, 0x0, 0x0, 0x0⟩,
  ⟨"SEC.KEY_VAL", 0x080, 4, 8, [0x0], false, 0x0, 0x0, 0x0, 0x0, 0x0⟩,
  ⟨"SEC.KEY_WR", 0x0A0, 4, 8, [0x0], false, 0xFFFFFFFF, 0x0, 0x0, 0x0, 0x0⟩,
  ⟨"SEC.DEV_PK", 0x0C0, 4, 8, [0x0], false, 0x0, 0x0, 0x0, 0x0, 0x0⟩,
  ⟨"SEC.SERIAL", 0x0E0, 4, 4, [0x0], false, 0x0, 0x0, 0x0, 0x0, 0x0⟩,
  ⟨"SEC.ATT_NONCE", 0x100, 4, 8, [0x0], false, 0xFFFFFFFF, 0x0, 0x0, 0x0, 0x0⟩,
  ⟨"SEC.ATT_CTRL", 0x120, 0, 1, [0x0], false, 0x0, 0x0, 0x1, 0x0, 0x0⟩,
  ⟨"SEC.ATT_SEG", 0x124, 0, 1, [0x0], false, 0xF, 0x0, 0x0, 0x0, 0x0⟩,
  ⟨"SEC.DBG", 0x128, 0, 1, [0x0], false, 0x0, 0x0, 0x0, 0x0, 0x0⟩,
  ⟨"SEC.MON_CFG", 0x12C, 0, 1, [0x12C], false, 0xFFFF, 0x0, 0x0, 0x0, 0x0⟩,
  ⟨"SEC.UNLOCK_FAIL_CNT", 0x130, 0, 1, [0x0], false, 0x0, 0x0, 0x0, 0x0, 0x0⟩,
  ⟨"SEC.ATT_CNT", 0x134, 0, 1, [0x0], false, 0x0, 0x0, 0x0, 0x0, 0x0⟩,
  ⟨"SEC.CNT_CLR", 0x138, 0, 1, [0x0], false, 0x0, 0x0, 0x1, 0x0, 0x0⟩,
  ⟨"SEC.ATT_WIN", 0x800, 4, 512, [0x0], false, 0x0, 0x0, 0x0, 0x0, 0x0⟩]

/-- The registers of block OUT. -/
def outRegs : List RegDef := [
  ⟨"OUT.CTRL", 0x040, 0, 1, [0x18], false, 0x1F, 0x0, 0x0, 0x0, 0x0⟩,
  ⟨"OUT.COL_PACK", 0x044, 0, 1, [0x1], false, 0xFF0F, 0x0, 0x0, 0x0, 0x0⟩,
  ⟨"OUT.MTU", 0x048, 0, 1, [0x5DC], false, 0x0, 0x0, 0x0, 0x0, 0x3FFF⟩,
  ⟨"OUT.DST.ADDR", 0x050, 8, 2, [0x0], false, 0xFFFFFFFF, 0x0, 0x0, 0x0, 0x0⟩,
  ⟨"OUT.DST.PORTS", 0x054, 8, 2, [0x1C211C20], false, 0xFFFFFFFF, 0x0, 0x0, 0x0, 0x0⟩,
  ⟨"OUT.STAT", 0x060, 0, 1, [0x0], false, 0x0, 0x0, 0x0, 0x0, 0x0⟩,
  ⟨"OUT.EVT", 0x064, 0, 1, [0x0], false, 0x0, 0x1F, 0x0, 0x0, 0x0⟩,
  ⟨"OUT.RESTARTS", 0x068, 0, 1, [0x0], false, 0x0, 0x0, 0x0, 0x0, 0x0⟩,
  ⟨"OUT.COL_SENT_CNT", 0x080, 0, 1, [0x0], false, 0x0, 0x0, 0x0, 0x0, 0x0⟩,
  ⟨"OUT.WEDGE_SENT_CNT", 0x084, 0, 1, [0x0], false, 0x0, 0x0, 0x0, 0x0, 0x0⟩,
  ⟨"OUT.DGRAM_CNT", 0x088, 4, 2, [0x0], false, 0x0, 0x0, 0x0, 0x0, 0x0⟩,
  ⟨"OUT.COL_QDROP_CNT", 0x090, 0, 1, [0x0], false, 0x0, 0x0, 0x0, 0x0, 0x0⟩,
  ⟨"OUT.LINK_DROP_CNT", 0x094, 0, 1, [0x0], false, 0x0, 0x0, 0x0, 0x0, 0x0⟩,
  ⟨"OUT.OBJ_TRUNC_CNT", 0x098, 0, 1, [0x0], false, 0x0, 0x0, 0x0, 0x0, 0x0⟩,
  ⟨"OUT.BLOCK_ERR_CNT", 0x09C, 0, 1, [0x0], false, 0x0, 0x0, 0x0, 0x0, 0x0⟩,
  ⟨"OUT.FLUSH_CNT", 0x0A0, 0, 1, [0x0], false, 0x0, 0x0, 0x0, 0x0, 0x0⟩,
  ⟨"OUT.ARP_DROP_CNT", 0x0A8, 0, 1, [0x0], false, 0x0, 0x0, 0x0, 0x0, 0x0⟩,
  ⟨"OUT.CNT_CLR", 0x0A4, 0, 1, [0x0], false, 0x0, 0x0, 0x1, 0x0, 0x0⟩]

/-- The registers of block TILE. Part 1. -/
def tileRegs1 : List RegDef := [
  ⟨"TILE.ROLE", 0x040, 0, 1, [0x0], false, 0x0, 0x0, 0x0, 0x0, 0x0⟩,
  ⟨"TILE.PROG", 0x044, 0, 1, [0x0], false, 0x0, 0x0, 0x0, 0x0, 0x0⟩,
  ⟨"TILE.BUDGET", 0x048, 0, 1, [0x0], false, 0x0, 0x0, 0x0, 0xFFFFFF, 0x0⟩,
  ⟨"TILE.BUDGET_SLACK", 0x04C, 0, 1, [0x0], false, 0x0, 0x0, 0x0, 0xFFFFFF, 0x0⟩,
  ⟨"TILE.STAT", 0x050, 0, 1, [0x0], false, 0x0, 0x0, 0x0, 0x0, 0x0⟩,
  ⟨"TILE.ADMIT", 0x054, 0, 1, [0x0], false, 0x0, 0x0, 0x0, 0x0, 0x0⟩,
  ⟨"TILE.PC", 0x058, 0, 1, [0x0], false, 0x0, 0x0, 0x0, 0x0, 0x0⟩,
  ⟨"TILE.EVT", 0x05C, 0, 1, [0x0], false, 0x0, 0x3F, 0x0, 0x0, 0x0⟩,
  ⟨"TILE.ERR_DESC", 0x060, 0, 1, [0x0], false, 0x0, 0x0, 0x0, 0x0, 0x0⟩,
  ⟨"TILE.LAST_CYC", 0x064, 0, 1, [0x0], false, 0x0, 0x0, 0x0, 0x0, 0x0⟩,
  ⟨"TILE.MAX_CYC", 0x068, 0, 1, [0x0], false, 0x0, 0x0, 0x0, 0x0, 0x0⟩,
  ⟨"TILE.WEDGE_CNT", 0x06C, 0, 1, [0x0], false, 0x0, 0x0, 0x0, 0x0, 0x0⟩,
  ⟨"TILE.OVERRUN_CNT", 0x070, 0, 1, [0x0], false, 0x0, 0x0, 0x0, 0x0, 0x0⟩,
  ⟨"TILE.LATE_CNT", 0x074, 0, 1, [0x0], false, 0x0, 0x0, 0x0, 0x0, 0x0⟩,
  ⟨"TILE.MXE_ISSUED", 0x078, 0, 1, [0x0], false, 0x0, 0x0, 0x0, 0x0, 0x0⟩,
  ⟨"TILE.MXE_USEFUL", 0x07C, 0, 1, [0x0], false, 0x0, 0x0, 0x0, 0x0, 0x0⟩,
  ⟨"TILE.CNT_CLR", 0x080, 0, 1, [0x0], false, 0x0, 0x0, 0x1, 0x0, 0x0⟩,
  ⟨"TILE.SPD_SIZE", 0x200, 0, 1, [0x3180C00], false, 0x0, 0x0, 0x0, 0x0, 0x0⟩,
  ⟨"TILE.SPD_CFG", 0x204, 0, 1, [0x0], false, 0x0, 0x0, 0x0, 0x0, 0x1⟩,
  ⟨"TILE.TAG_TIMEOUT", 0x208, 0, 1, [0xF4240], false, 0x0, 0x0, 0x0, 0xFFFFFF, 0x0⟩,
  ⟨"TILE.SPD_STAT", 0x20C, 0, 1, [0x0], false, 0x0, 0x0, 0x0, 0x0, 0x0⟩,
  ⟨"TILE.SPD_EVT", 0x210, 0, 1, [0x0], false, 0x0, 0x1FF, 0x0, 0x0, 0x0⟩,
  ⟨"TILE.SPD_CONF_INFO", 0x214, 0, 1, [0x0], false, 0x0, 0x0, 0x0, 0x0, 0x0⟩,
  ⟨"TILE.SPD_ECC_INFO", 0x218, 0, 1, [0x0], false, 0x0, 0x0, 0x0, 0x0, 0x0⟩,
  ⟨"TILE.SPD_TAG_INFO", 0x21C, 0, 1, [0x0], false, 0x0, 0x0, 0x0, 0x0, 0x0⟩,
  ⟨"TILE.SPD_WIN_INFO", 0x220, 0, 1, [0x0], false, 0x0, 0x0, 0x0, 0x0, 0x0⟩,
  ⟨"TILE.SPD_WIN_OFS", 0x224, 0, 1, [0x0], false, 0x0, 0x0, 0x0, 0x0, 0x0⟩,
  ⟨"TILE.SPD_CONFLICT_CNT", 0x228, 0, 1, [0x0], false, 0x0, 0x0, 0x0, 0x0, 0x0⟩,
  ⟨"TILE.SPD_CE_CNT", 0x22C, 0, 1, [0x0], false, 0x0, 0x0, 0x0, 0x0, 0x0⟩,
  ⟨"TILE.SPD_WIN_REJ_CNT", 0x230, 0, 1, [0x0], false, 0x0, 0x0, 0x0, 0x0, 0x0⟩]

/-- The registers of block TILE. Part 2. -/
def tileRegs2 : List RegDef := [
  ⟨"TILE.SPD_SCRUB_FORCE_CNT", 0x234, 0, 1, [0x0], false, 0x0, 0x0, 0x0, 0x0, 0x0⟩,
  ⟨"TILE.SPD_SCRUB_SWEEP_CNT", 0x238, 0, 1, [0x0], false, 0x0, 0x0, 0x0, 0x0, 0x0⟩,
  ⟨"RING.BASE", 0x300, 32, 4, [0x0], false, 0x0, 0x0, 0x0, 0x0, 0x3FFFFF⟩,
  ⟨"RING.SIZE", 0x304, 32, 4, [0x0], false, 0x0, 0x0, 0x0, 0x0, 0x1FFF⟩,
  ⟨"RING.HEAD_PTR", 0x308, 32, 4, [0x0], false, 0x0, 0x0, 0x0, 0x0, 0x0⟩,
  ⟨"RING.TAIL_PTR", 0x30C, 32, 4, [0x0], false, 0x0, 0x0, 0x0, 0x0, 0x0⟩,
  ⟨"RING.CFG", 0x310, 32, 4, [0x0], false, 0x0, 0x0, 0x0, 0x0, 0xFFF0031⟩,
  ⟨"RING.MAX_OCC", 0x314, 32, 4, [0x0], false, 0x0, 0x0, 0x0, 0x0, 0x0⟩,
  ⟨"RING.EVT_CNT", 0x318, 32, 4, [0x0], false, 0x0, 0x0, 0x0, 0x0, 0x0⟩,
  ⟨"WIN.BASE", 0x380, 16, 8, [0x0], false, 0x0, 0x0, 0x0, 0x0, 0x3FFFFF⟩,
  ⟨"WIN.LEN", 0x384, 16, 8, [0x0], false, 0x0, 0x0, 0x0, 0x0, 0x7FFFFF⟩,
  ⟨"WIN.SRC", 0x388, 16, 8, [0x0], false, 0x0, 0x0, 0x0, 0x0, 0x1FF7F⟩,
  ⟨"WIN.ATTR", 0x38C, 16, 8, [0x0], false, 0x0, 0x0, 0x0, 0x0, 0x3F01⟩,
  ⟨"HDL.BASE", 0x400, 16, 64, [0x0], false, 0x0, 0x0, 0x0, 0x0, 0x3FFFFF⟩,
  ⟨"HDL.LEN", 0x404, 16, 64, [0x0], false, 0x0, 0x0, 0x0, 0x0, 0x7FFFFF⟩,
  ⟨"HDL.ATTR", 0x408, 16, 64, [0x0], false, 0x0, 0x0, 0x0, 0x0, 0x3FFF3⟩]

/-- The registers of block TILE. -/
def tileRegs : List RegDef := tileRegs1 ++ tileRegs2

/-- The page map (R332). -/
def blocks : List BlockDef := [
  ⟨"SYS", 0x000, 1, 0x01, 0x0, sysRegs⟩,
  ⟨"TMU", 0x001, 1, 0x02, 0x0, tmuRegs⟩,
  ⟨"AT", 0x002, 8, 0x03, 0xB, atRegs⟩,
  ⟨"HP", 0x010, 8, 0x04, 0x3, hpRegs⟩,
  ⟨"HS", 0x018, 2, 0x05, 0xB, hsRegs⟩,
  ⟨"PLK", 0x01A, 1, 0x06, 0x6, plkRegs⟩,
  ⟨"ING", 0x020, 2, 0x07, 0xB, ingRegs⟩,
  ⟨"VHU", 0x022, 2, 0x08, 0xA, vhuRegs⟩,
  ⟨"TGE", 0x028, 2, 0x09, 0xE, tgeRegs⟩,
  ⟨"MAP", 0x02A, 2, 0x0A, 0x4, mapRegs⟩,
  ⟨"DRAM", 0x030, 2, 0x0B, 0xE, dramRegs⟩,
  ⟨"AM", 0x038, 1, 0x0C, 0x3, amRegs⟩,
  ⟨"SI", 0x039, 1, 0x0D, 0x0, siRegs⟩,
  ⟨"MS", 0x03A, 1, 0x0E, 0xC, msRegs⟩,
  ⟨"BIST", 0x03B, 1, 0x0F, 0x8, bistRegs⟩,
  ⟨"AGE", 0x03C, 1, 0x10, 0x8, ageRegs⟩,
  ⟨"PM", 0x03D, 1, 0x11, 0x0, pmRegs⟩,
  ⟨"CM", 0x03E, 1, 0x12, 0x0, cmRegs⟩,
  ⟨"SEC", 0x03F, 1, 0x13, 0x0, secRegs⟩,
  ⟨"OUT", 0x040, 1, 0x14, 0xB, outRegs⟩,
  ⟨"TILE", 0x100, 80, 0x20, 0x0, tileRegs⟩]

/-- The fields with a stated range: a written value outside it is stored as the nearest one. -/
def ranges : List RangeDef := [
  ⟨0x001, 0x050, 0, 20, 100, 1000000⟩,
  ⟨0x001, 0x068, 0, 17, 0, 100000⟩,
  ⟨0x001, 0x078, 0, 17, 100, 100000⟩,
  ⟨0x002, 0x044, 4, 4, 9, 13⟩,
  ⟨0x002, 0x044, 8, 4, 0, 6⟩,
  ⟨0x002, 0x044, 16, 8, 1, 255⟩,
  ⟨0x020, 0x048, 0, 16, 0, 20000⟩,
  ⟨0x022, 0x040, 0, 2, 1, 3⟩,
  ⟨0x022, 0x054, 0, 16, 1, 65535⟩,
  ⟨0x022, 0x060, 0, 4, 5, 13⟩,
  ⟨0x022, 0x064, 0, 16, 1, 65535⟩,
  ⟨0x022, 0x064, 16, 16, 1, 65535⟩,
  ⟨0x100, 0x048, 0, 24, 1, 16777215⟩,
  ⟨0x100, 0x208, 0, 24, 1024, 16777215⟩,
  ⟨0x040, 0x044, 0, 4, 1, 15⟩,
  ⟨0x040, 0x048, 0, 14, 576, 9000⟩,
  ⟨0x038, 0x044, 0, 16, 10, 1000⟩,
  ⟨0x038, 0x048, 0, 16, 100, 50000⟩,
  ⟨0x038, 0x04C, 0, 16, 10, 10000⟩,
  ⟨0x038, 0x050, 0, 16, 100, 50000⟩,
  ⟨0x03A, 0x040, 0, 16, 256, 65535⟩,
  ⟨0x03A, 0x044, 8, 4, 0, 8⟩,
  ⟨0x03A, 0x044, 16, 8, 0, 64⟩,
  ⟨0x03C, 0x040, 0, 16, 600, 65535⟩,
  ⟨0x03C, 0x074, 24, 8, 2, 255⟩,
  ⟨0x03C, 0x080, 16, 16, 10, 1000⟩,
  ⟨0x030, 0x048, 0, 16, 100, 65535⟩,
  ⟨0x01A, 0x04C, 0, 16, 10, 10000⟩,
  ⟨0x01A, 0x04C, 16, 16, 50, 10000⟩,
  ⟨0x01A, 0x050, 0, 16, 0, 60000⟩,
  ⟨0x01A, 0x050, 16, 4, 0, 15⟩,
  ⟨0x01A, 0x054, 0, 8, 1, 255⟩,
  ⟨0x03D, 0x044, 0, 16, 1, 1000⟩,
  ⟨0x03D, 0x048, 0, 8, 80, 125⟩]

end Sys2Proof.Machine
end

