-- ==== Sys2Proof/Machine/Regs.lean ====
section
/-! DEFINITION. The names of the registers and register fields of the manual's register tables. A name is a field
(address, first bit, width); the block prefix is the manual's. The first argument `u` is the page's instance (tile,
head slot, unit or port), `p` a page number; further arguments are the register's array indices. -/

namespace Sys2Proof.Machine

/-- A register field: address of its register in the 2^24-byte register space (R330), first bit and width. -/
structure Fld where
  addr : Nat
  lo : Nat
  w : Nat
deriving DecidableEq, Repr

/-- TMU.CTRL (R61). -/
def TMU.CTRL : Fld := ⟨0x001040, 0, 32⟩
/-- TMU.CTRL.COUPLE (R61). -/
def TMU.CTRL_COUPLE : Fld := ⟨0x001040, 0, 1⟩
/-- TMU.CTRL.PPS_IN_EN (R61). -/
def TMU.CTRL_PPS_IN_EN : Fld := ⟨0x001040, 1, 1⟩
/-- TMU.CTRL.VEH_PORT (R61). -/
def TMU.CTRL_VEH_PORT : Fld := ⟨0x001040, 2, 2⟩
/-- TMU.GPTP_CFG (R61). -/
def TMU.GPTP_CFG : Fld := ⟨0x001044, 0, 32⟩
/-- TMU.GPTP_CFG.SNS_DOMAIN (R61). -/
def TMU.GPTP_CFG_SNS_DOMAIN : Fld := ⟨0x001044, 0, 8⟩
/-- TMU.GPTP_CFG.VEH_DOMAIN (R61). -/
def TMU.GPTP_CFG_VEH_DOMAIN : Fld := ⟨0x001044, 8, 8⟩
/-- TMU.GPTP_CFG.SNS_LOG_SYNC (R61). -/
def TMU.GPTP_CFG_SNS_LOG_SYNC : Fld := ⟨0x001044, 16, 4⟩
/-- TMU.STAT (R61). -/
def TMU.STAT : Fld := ⟨0x001048, 0, 32⟩
/-- TMU.STAT.VEH_STATE (R61). -/
def TMU.STAT_VEH_STATE : Fld := ⟨0x001048, 0, 3⟩
/-- TMU.STAT.SNS_SRC (R61). -/
def TMU.STAT_SNS_SRC : Fld := ⟨0x001048, 4, 2⟩
/-- TMU.STAT.VEH_PORT_ACT (R61). -/
def TMU.STAT_VEH_PORT_ACT : Fld := ⟨0x001048, 6, 2⟩
/-- TMU.STAT.PTN_VALID (R61). -/
def TMU.STAT_PTN_VALID : Fld := ⟨0x001048, 8, 1⟩
/-- TMU.STAT.SNS_INIT_DONE (R61). -/
def TMU.STAT_SNS_INIT_DONE : Fld := ⟨0x001048, 9, 1⟩
/-- TMU.STAT.REV_TIMER (R61). -/
def TMU.STAT_REV_TIMER : Fld := ⟨0x001048, 10, 1⟩
/-- TMU.EVT (R61). -/
def TMU.EVT : Fld := ⟨0x00104C, 0, 32⟩
/-- TMU.EVT.HOLDOVER (R61). -/
def TMU.EVT_HOLDOVER : Fld := ⟨0x00104C, 0, 1⟩
/-- TMU.EVT.MASTER_CHANGE (R61). -/
def TMU.EVT_MASTER_CHANGE : Fld := ⟨0x00104C, 1, 1⟩
/-- TMU.EVT.STEP_REFUSED (R61). -/
def TMU.EVT_STEP_REFUSED : Fld := ⟨0x00104C, 2, 1⟩
/-- TMU.EVT.STEP_APPLIED (R61). -/
def TMU.EVT_STEP_APPLIED : Fld := ⟨0x00104C, 3, 1⟩
/-- TMU.EVT.STEP_STALE (R61). -/
def TMU.EVT_STEP_STALE : Fld := ⟨0x00104C, 4, 1⟩
/-- TMU.EVT.PPS_IN_LOST (R61). -/
def TMU.EVT_PPS_IN_LOST : Fld := ⟨0x00104C, 5, 1⟩
/-- TMU.EVT.PTN_DIVERGE (R61). -/
def TMU.EVT_PTN_DIVERGE : Fld := ⟨0x00104C, 6, 1⟩
/-- TMU.EVT.SLEW_LIMIT (R61). -/
def TMU.EVT_SLEW_LIMIT : Fld := ⟨0x00104C, 7, 1⟩
/-- TMU.STEP_LIM (R61). -/
def TMU.STEP_LIM : Fld := ⟨0x001050, 0, 32⟩
/-- TMU.STEP_LIM.VALUE (R61). -/
def TMU.STEP_LIM_VALUE : Fld := ⟨0x001050, 0, 20⟩
/-- TMU.STEP_OFS_LO (R61). -/
def TMU.STEP_OFS_LO : Fld := ⟨0x001054, 0, 32⟩
/-- TMU.STEP_OFS_LO.OFS (R61). -/
def TMU.STEP_OFS_LO_OFS : Fld := ⟨0x001054, 0, 32⟩
/-- TMU.STEP_OFS_HI (R61). -/
def TMU.STEP_OFS_HI : Fld := ⟨0x001058, 0, 32⟩
/-- TMU.STEP_OFS_HI.OFS (R61). -/
def TMU.STEP_OFS_HI_OFS : Fld := ⟨0x001058, 0, 32⟩
/-- TMU.STEP_GM_LO (R61). -/
def TMU.STEP_GM_LO : Fld := ⟨0x00105C, 0, 32⟩
/-- TMU.STEP_GM_LO.ID (R61). -/
def TMU.STEP_GM_LO_ID : Fld := ⟨0x00105C, 0, 32⟩
/-- TMU.STEP_GM_HI (R61). -/
def TMU.STEP_GM_HI : Fld := ⟨0x001060, 0, 32⟩
/-- TMU.STEP_GM_HI.ID (R61). -/
def TMU.STEP_GM_HI_ID : Fld := ⟨0x001060, 0, 32⟩
/-- TMU.STEP_ACCEPT (R61). -/
def TMU.STEP_ACCEPT : Fld := ⟨0x001064, 0, 32⟩
/-- TMU.STEP_ACCEPT.ACCEPT (R61). -/
def TMU.STEP_ACCEPT_ACCEPT : Fld := ⟨0x001064, 0, 1⟩
/-- TMU.SNS_SLEW (R61). -/
def TMU.SNS_SLEW : Fld := ⟨0x001068, 0, 32⟩
/-- TMU.SNS_SLEW.PPB (R61). -/
def TMU.SNS_SLEW_PPB : Fld := ⟨0x001068, 0, 17⟩
/-- TMU.SNS_VEH_OFS (R61). -/
def TMU.SNS_VEH_OFS : Fld := ⟨0x00106C, 0, 32⟩
/-- TMU.SNS_VEH_OFS.OFS (R61). -/
def TMU.SNS_VEH_OFS_OFS : Fld := ⟨0x00106C, 0, 32⟩
/-- TMU.PPS_OUT (R61). -/
def TMU.PPS_OUT : Fld := ⟨0x001070, 0, 32⟩
/-- TMU.PPS_OUT.SRC (R61). -/
def TMU.PPS_OUT_SRC : Fld := ⟨0x001070, 0, 2⟩
/-- TMU.PPS_OUT.WIDTH_MS (R61). -/
def TMU.PPS_OUT_WIDTH_MS : Fld := ⟨0x001070, 8, 8⟩
/-- TMU.PTN_TOL (R61). -/
def TMU.PTN_TOL : Fld := ⟨0x001074, 0, 32⟩
/-- TMU.PTN_TOL.NS (R61). -/
def TMU.PTN_TOL_NS : Fld := ⟨0x001074, 0, 20⟩
/-- TMU.WEDGE_TO (R61). -/
def TMU.WEDGE_TO : Fld := ⟨0x001078, 0, 32⟩
/-- TMU.WEDGE_TO.US (R61). -/
def TMU.WEDGE_TO_US : Fld := ⟨0x001078, 0, 17⟩
/-- TMU.REF (R61). -/
def TMU.REF : Fld := ⟨0x00107C, 0, 32⟩
/-- TMU.REF.REF_HEAD (R61). -/
def TMU.REF_REF_HEAD : Fld := ⟨0x00107C, 0, 3⟩
/-- TMU.REF.REV_ANGLE (R61). -/
def TMU.REF_REV_ANGLE : Fld := ⟨0x00107C, 8, 24⟩
/-- TMU.SNAP_CTRL (R61). -/
def TMU.SNAP_CTRL : Fld := ⟨0x001080, 0, 32⟩
/-- TMU.SNAP_CTRL.GO (R61). -/
def TMU.SNAP_CTRL_GO : Fld := ⟨0x001080, 0, 1⟩
/-- TMU.SNAP_CTRL.DONE (R61). -/
def TMU.SNAP_CTRL_DONE : Fld := ⟨0x001080, 1, 1⟩
/-- TMU.SNAP[b].SEC_LO (R61). -/
def TMU.SNAP_SEC_LO (b : Nat) : Fld := ⟨0x001 * 4096 + 0x090 + 16 * b, 0, 32⟩
/-- TMU.SNAP[b].SEC_LO.SEC (R61). -/
def TMU.SNAP_SEC_LO_SEC (b : Nat) : Fld := ⟨0x001 * 4096 + 0x090 + 16 * b, 0, 32⟩
/-- TMU.SNAP[b].SEC_HI (R61). -/
def TMU.SNAP_SEC_HI (b : Nat) : Fld := ⟨0x001 * 4096 + 0x094 + 16 * b, 0, 32⟩
/-- TMU.SNAP[b].SEC_HI.SEC (R61). -/
def TMU.SNAP_SEC_HI_SEC (b : Nat) : Fld := ⟨0x001 * 4096 + 0x094 + 16 * b, 0, 16⟩
/-- TMU.SNAP[b].SEC_HI.FRAC (R61). -/
def TMU.SNAP_SEC_HI_FRAC (b : Nat) : Fld := ⟨0x001 * 4096 + 0x094 + 16 * b, 16, 4⟩
/-- TMU.SNAP[b].SEC_HI.VALID (R61). -/
def TMU.SNAP_SEC_HI_VALID (b : Nat) : Fld := ⟨0x001 * 4096 + 0x094 + 16 * b, 31, 1⟩
/-- TMU.SNAP[b].NS (R61). -/
def TMU.SNAP_NS (b : Nat) : Fld := ⟨0x001 * 4096 + 0x098 + 16 * b, 0, 32⟩
/-- TMU.SNAP[b].NS.NS (R61). -/
def TMU.SNAP_NS_NS (b : Nat) : Fld := ⟨0x001 * 4096 + 0x098 + 16 * b, 0, 32⟩
/-- TMU.STEP_REF_CNT (R61). -/
def TMU.STEP_REF_CNT : Fld := ⟨0x0010D0, 0, 32⟩
/-- TMU.HOLDOVER_CNT (R61). -/
def TMU.HOLDOVER_CNT : Fld := ⟨0x0010D4, 0, 32⟩
/-- TMU.PPS_IN_NS (R61). -/
def TMU.PPS_IN_NS : Fld := ⟨0x0010D8, 0, 32⟩
/-- TMU.PPS_IN_NS.NS (R61). -/
def TMU.PPS_IN_NS_NS : Fld := ⟨0x0010D8, 0, 32⟩
/-- TS_ING_LAT (R62). -/
def TS.ING_LAT (p : Nat) : Fld := ⟨p * 4096 + 0x3C0, 0, 32⟩
/-- TS_ING_LAT.LAT (R62). -/
def TS.ING_LAT_LAT (p : Nat) : Fld := ⟨p * 4096 + 0x3C0, 0, 16⟩
/-- TS_EGR_LAT (R62). -/
def TS.EGR_LAT (p : Nat) : Fld := ⟨p * 4096 + 0x3C4, 0, 32⟩
/-- TS_EGR_LAT.LAT (R62). -/
def TS.EGR_LAT_LAT (p : Nat) : Fld := ⟨p * 4096 + 0x3C4, 0, 16⟩
/-- TS_ASYM (R62). -/
def TS.ASYM (p : Nat) : Fld := ⟨p * 4096 + 0x3C8, 0, 32⟩
/-- TS_ASYM.ASYM (R62). -/
def TS.ASYM_ASYM (p : Nat) : Fld := ⟨p * 4096 + 0x3C8, 0, 32⟩
/-- TS_PDELAY (R62). -/
def TS.PDELAY (p : Nat) : Fld := ⟨p * 4096 + 0x3CC, 0, 32⟩
/-- TS_PDELAY.DELAY (R62). -/
def TS.PDELAY_DELAY (p : Nat) : Fld := ⟨p * 4096 + 0x3CC, 0, 32⟩
/-- AT.CTRL (R75). -/
def AT.CTRL (u : Nat) : Fld := ⟨(0x002 + u) * 4096 + 0x040, 0, 32⟩
/-- AT.CTRL.EN (R75). -/
def AT.CTRL_EN (u : Nat) : Fld := ⟨(0x002 + u) * 4096 + 0x040, 0, 1⟩
/-- AT.CFG (R75). -/
def AT.CFG (u : Nat) : Fld := ⟨(0x002 + u) * 4096 + 0x044, 0, 32⟩
/-- AT.CFG.LOOP_BW (R75). -/
def AT.CFG_LOOP_BW (u : Nat) : Fld := ⟨(0x002 + u) * 4096 + 0x044, 0, 2⟩
/-- AT.CFG.COL_LOG2 (R75). -/
def AT.CFG_COL_LOG2 (u : Nat) : Fld := ⟨(0x002 + u) * 4096 + 0x044, 4, 4⟩
/-- AT.CFG.SECT_LOG2 (R75). -/
def AT.CFG_SECT_LOG2 (u : Nat) : Fld := ⟨(0x002 + u) * 4096 + 0x044, 8, 4⟩
/-- AT.CFG.FB_REVS (R75). -/
def AT.CFG_FB_REVS (u : Nat) : Fld := ⟨(0x002 + u) * 4096 + 0x044, 16, 8⟩
/-- AT.CFG.DIR (R75). -/
def AT.CFG_DIR (u : Nat) : Fld := ⟨(0x002 + u) * 4096 + 0x044, 24, 1⟩
/-- AT.AZ_OFS (R75). -/
def AT.AZ_OFS (u : Nat) : Fld := ⟨(0x002 + u) * 4096 + 0x048, 0, 32⟩
/-- AT.AZ_OFS.OFFSET (R75). -/
def AT.AZ_OFS_OFFSET (u : Nat) : Fld := ⟨(0x002 + u) * 4096 + 0x048, 0, 24⟩
/-- AT.COVER_LO (R75). -/
def AT.COVER_LO (u : Nat) : Fld := ⟨(0x002 + u) * 4096 + 0x04C, 0, 32⟩
/-- AT.COVER_LO.WEDGES (R75). -/
def AT.COVER_LO_WEDGES (u : Nat) : Fld := ⟨(0x002 + u) * 4096 + 0x04C, 0, 32⟩
/-- AT.COVER_HI (R75). -/
def AT.COVER_HI (u : Nat) : Fld := ⟨(0x002 + u) * 4096 + 0x050, 0, 32⟩
/-- AT.COVER_HI.WEDGES (R75). -/
def AT.COVER_HI_WEDGES (u : Nat) : Fld := ⟨(0x002 + u) * 4096 + 0x050, 0, 32⟩
/-- AT.GUARD (R75). -/
def AT.GUARD (u : Nat) : Fld := ⟨(0x002 + u) * 4096 + 0x054, 0, 32⟩
/-- AT.GUARD.GUARD (R75). -/
def AT.GUARD_GUARD (u : Nat) : Fld := ⟨(0x002 + u) * 4096 + 0x054, 0, 20⟩
/-- AT.COL_DL (R75). -/
def AT.COL_DL (u : Nat) : Fld := ⟨(0x002 + u) * 4096 + 0x058, 0, 32⟩
/-- AT.COL_DL.DL (R75). -/
def AT.COL_DL_DL (u : Nat) : Fld := ⟨(0x002 + u) * 4096 + 0x058, 0, 20⟩
/-- AT.TWI_START (R75). -/
def AT.TWI_START (u : Nat) : Fld := ⟨(0x002 + u) * 4096 + 0x05C, 0, 32⟩
/-- AT.TWI_START.ANGLE (R75). -/
def AT.TWI_START_ANGLE (u : Nat) : Fld := ⟨(0x002 + u) * 4096 + 0x05C, 0, 24⟩
/-- AT.TWI_END (R75). -/
def AT.TWI_END (u : Nat) : Fld := ⟨(0x002 + u) * 4096 + 0x060, 0, 32⟩
/-- AT.TWI_END.ANGLE (R75). -/
def AT.TWI_END_ANGLE (u : Nat) : Fld := ⟨(0x002 + u) * 4096 + 0x060, 0, 24⟩
/-- AT.TOL (R75). -/
def AT.TOL (u : Nat) : Fld := ⟨(0x002 + u) * 4096 + 0x064, 0, 32⟩
/-- AT.TOL.LOCK_TOL (R75). -/
def AT.TOL_LOCK_TOL (u : Nat) : Fld := ⟨(0x002 + u) * 4096 + 0x064, 0, 16⟩
/-- AT.TOL.LOSS_TOL (R75). -/
def AT.TOL_LOSS_TOL (u : Nat) : Fld := ⟨(0x002 + u) * 4096 + 0x064, 16, 16⟩
/-- AT.STAT (R75). -/
def AT.STAT (u : Nat) : Fld := ⟨(0x002 + u) * 4096 + 0x068, 0, 32⟩
/-- AT.STAT.STATE (R75). -/
def AT.STAT_STATE (u : Nat) : Fld := ⟨(0x002 + u) * 4096 + 0x068, 0, 3⟩
/-- AT.RATE (R75). -/
def AT.RATE (u : Nat) : Fld := ⟨(0x002 + u) * 4096 + 0x06C, 0, 32⟩
/-- AT.RATE.MHZ (R75). -/
def AT.RATE_MHZ (u : Nat) : Fld := ⟨(0x002 + u) * 4096 + 0x06C, 0, 16⟩
/-- AT.ANGLE (R75). -/
def AT.ANGLE (u : Nat) : Fld := ⟨(0x002 + u) * 4096 + 0x070, 0, 32⟩
/-- AT.ANGLE.ANGLE (R75). -/
def AT.ANGLE_ANGLE (u : Nat) : Fld := ⟨(0x002 + u) * 4096 + 0x070, 0, 24⟩
/-- AT.RESID (R75). -/
def AT.RESID (u : Nat) : Fld := ⟨(0x002 + u) * 4096 + 0x074, 0, 32⟩
/-- AT.RESID.RESID (R75). -/
def AT.RESID_RESID (u : Nat) : Fld := ⟨(0x002 + u) * 4096 + 0x074, 0, 16⟩
/-- AT.EVT (R75). -/
def AT.EVT (u : Nat) : Fld := ⟨(0x002 + u) * 4096 + 0x078, 0, 32⟩
/-- AT.EVT.LOCKED (R75). -/
def AT.EVT_LOCKED (u : Nat) : Fld := ⟨(0x002 + u) * 4096 + 0x078, 0, 1⟩
/-- AT.EVT.LOCK_LOST (R75). -/
def AT.EVT_LOCK_LOST (u : Nat) : Fld := ⟨(0x002 + u) * 4096 + 0x078, 1, 1⟩
/-- AT.EVT.SLOW (R75). -/
def AT.EVT_SLOW (u : Nat) : Fld := ⟨(0x002 + u) * 4096 + 0x078, 2, 1⟩
/-- AT.EVT.FALLBACK (R75). -/
def AT.EVT_FALLBACK (u : Nat) : Fld := ⟨(0x002 + u) * 4096 + 0x078, 3, 1⟩
/-- AT.EVT.STOPPED (R75). -/
def AT.EVT_STOPPED (u : Nat) : Fld := ⟨(0x002 + u) * 4096 + 0x078, 4, 1⟩
/-- AT.EVT.SAMPLE_GAP (R75). -/
def AT.EVT_SAMPLE_GAP (u : Nat) : Fld := ⟨(0x002 + u) * 4096 + 0x078, 5, 1⟩
/-- AT.EVT.OUT_OF_ORDER (R75). -/
def AT.EVT_OUT_OF_ORDER (u : Nat) : Fld := ⟨(0x002 + u) * 4096 + 0x078, 6, 1⟩
/-- AT.EVT.RATE_HIGH (R75). -/
def AT.EVT_RATE_HIGH (u : Nat) : Fld := ⟨(0x002 + u) * 4096 + 0x078, 7, 1⟩
/-- AT.FB_CNT (R75). -/
def AT.FB_CNT (u : Nat) : Fld := ⟨(0x002 + u) * 4096 + 0x07C, 0, 32⟩
/-- AT.DROP_SMP_CNT (R75). -/
def AT.DROP_SMP_CNT (u : Nat) : Fld := ⟨(0x002 + u) * 4096 + 0x080, 0, 32⟩
/-- HP.CTRL (R108). -/
def HP.CTRL (u : Nat) : Fld := ⟨(0x010 + u) * 4096 + 0x040, 0, 32⟩
/-- HP.CTRL.EN (R108). -/
def HP.CTRL_EN (u : Nat) : Fld := ⟨(0x010 + u) * 4096 + 0x040, 0, 1⟩
/-- HP.CTRL.SPEED (R108). -/
def HP.CTRL_SPEED (u : Nat) : Fld := ⟨(0x010 + u) * 4096 + 0x040, 1, 2⟩
/-- HP.CTRL.PHY_SLAVE (R108). -/
def HP.CTRL_PHY_SLAVE (u : Nat) : Fld := ⟨(0x010 + u) * 4096 + 0x040, 3, 1⟩
/-- HP.STAT (R108). -/
def HP.STAT (u : Nat) : Fld := ⟨(0x010 + u) * 4096 + 0x044, 0, 32⟩
/-- HP.STAT.LINK (R108). -/
def HP.STAT_LINK (u : Nat) : Fld := ⟨(0x010 + u) * 4096 + 0x044, 0, 1⟩
/-- HP.STAT.ID_STATE (R108). -/
def HP.STAT_ID_STATE (u : Nat) : Fld := ⟨(0x010 + u) * 4096 + 0x044, 4, 3⟩
/-- HP.STAT.MAP_ERR (R108). -/
def HP.STAT_MAP_ERR (u : Nat) : Fld := ⟨(0x010 + u) * 4096 + 0x044, 7, 1⟩
/-- HP.STAT.WORN (R108). -/
def HP.STAT_WORN (u : Nat) : Fld := ⟨(0x010 + u) * 4096 + 0x044, 8, 1⟩
/-- HP.STAT.LIFE_END (R108). -/
def HP.STAT_LIFE_END (u : Nat) : Fld := ⟨(0x010 + u) * 4096 + 0x044, 9, 1⟩
/-- HP.STAT.QUAR (R108). -/
def HP.STAT_QUAR (u : Nat) : Fld := ⟨(0x010 + u) * 4096 + 0x044, 10, 1⟩
/-- HP.EVT (R108). -/
def HP.EVT (u : Nat) : Fld := ⟨(0x010 + u) * 4096 + 0x048, 0, 32⟩
/-- HP.EVT.LINK_DOWN (R108). -/
def HP.EVT_LINK_DOWN (u : Nat) : Fld := ⟨(0x010 + u) * 4096 + 0x048, 0, 1⟩
/-- HP.EVT.ID_OK (R108). -/
def HP.EVT_ID_OK (u : Nat) : Fld := ⟨(0x010 + u) * 4096 + 0x048, 1, 1⟩
/-- HP.EVT.ID_FAIL (R108). -/
def HP.EVT_ID_FAIL (u : Nat) : Fld := ⟨(0x010 + u) * 4096 + 0x048, 2, 1⟩
/-- HP.EVT.HEAD_WORN (R108). -/
def HP.EVT_HEAD_WORN (u : Nat) : Fld := ⟨(0x010 + u) * 4096 + 0x048, 3, 1⟩
/-- HP.EVT.HEAD_LIFE_END (R108). -/
def HP.EVT_HEAD_LIFE_END (u : Nat) : Fld := ⟨(0x010 + u) * 4096 + 0x048, 4, 1⟩
/-- HP.EVT.INT_DRIFT (R108). -/
def HP.EVT_INT_DRIFT (u : Nat) : Fld := ⟨(0x010 + u) * 4096 + 0x048, 5, 1⟩
/-- HP.EVT.TS_WINDOW (R108). -/
def HP.EVT_TS_WINDOW (u : Nat) : Fld := ⟨(0x010 + u) * 4096 + 0x048, 6, 1⟩
/-- HP.EVT.SHED (R108). -/
def HP.EVT_SHED (u : Nat) : Fld := ⟨(0x010 + u) * 4096 + 0x048, 7, 1⟩
/-- HP.EVT.COL_EXCESS (R108). -/
def HP.EVT_COL_EXCESS (u : Nat) : Fld := ⟨(0x010 + u) * 4096 + 0x048, 8, 1⟩
/-- HP.CFG (R108). -/
def HP.CFG (u : Nat) : Fld := ⟨(0x010 + u) * 4096 + 0x04C, 0, 32⟩
/-- HP.CFG.TS_SRC (R108). -/
def HP.CFG_TS_SRC (u : Nat) : Fld := ⟨(0x010 + u) * 4096 + 0x04C, 0, 1⟩
/-- HP.CFG.CH_IMPLICIT (R108). -/
def HP.CFG_CH_IMPLICIT (u : Nat) : Fld := ⟨(0x010 + u) * 4096 + 0x04C, 1, 1⟩
/-- HP.CFG.CH_CNT_M1 (R108). -/
def HP.CFG_CH_CNT_M1 (u : Nat) : Fld := ⟨(0x010 + u) * 4096 + 0x04C, 8, 8⟩
/-- HP.PRIO (R108). -/
def HP.PRIO (u : Nat) : Fld := ⟨(0x010 + u) * 4096 + 0x050, 0, 32⟩
/-- HP.PRIO.PRIO (R108). -/
def HP.PRIO_PRIO (u : Nat) : Fld := ⟨(0x010 + u) * 4096 + 0x050, 0, 3⟩
/-- HP.UDP (R108). -/
def HP.UDP (u : Nat) : Fld := ⟨(0x010 + u) * 4096 + 0x054, 0, 32⟩
/-- HP.UDP.PT_PORT (R108). -/
def HP.UDP_PT_PORT (u : Nat) : Fld := ⟨(0x010 + u) * 4096 + 0x054, 0, 16⟩
/-- HP.UDP.CTL_PORT (R108). -/
def HP.UDP_CTL_PORT (u : Nat) : Fld := ⟨(0x010 + u) * 4096 + 0x054, 16, 16⟩
/-- HP.IPV4 (R108). -/
def HP.IPV4 (u : Nat) : Fld := ⟨(0x010 + u) * 4096 + 0x058, 0, 32⟩
/-- HP.IPV4.ADDR (R108). -/
def HP.IPV4_ADDR (u : Nat) : Fld := ⟨(0x010 + u) * 4096 + 0x058, 0, 32⟩
/-- HP.HEAD_IPV4 (R108). -/
def HP.HEAD_IPV4 (u : Nat) : Fld := ⟨(0x010 + u) * 4096 + 0x05C, 0, 32⟩
/-- HP.HEAD_IPV4.ADDR (R108). -/
def HP.HEAD_IPV4_ADDR (u : Nat) : Fld := ⟨(0x010 + u) * 4096 + 0x05C, 0, 32⟩
/-- HP.PKT0 (R108). -/
def HP.PKT0 (u : Nat) : Fld := ⟨(0x010 + u) * 4096 + 0x060, 0, 32⟩
/-- HP.PKT0.BLK_BASE (R108). -/
def HP.PKT0_BLK_BASE (u : Nat) : Fld := ⟨(0x010 + u) * 4096 + 0x060, 0, 14⟩
/-- HP.PKT0.BLK_STRIDE (R108). -/
def HP.PKT0_BLK_STRIDE (u : Nat) : Fld := ⟨(0x010 + u) * 4096 + 0x060, 16, 14⟩
/-- HP.PKT1 (R108). -/
def HP.PKT1 (u : Nat) : Fld := ⟨(0x010 + u) * 4096 + 0x064, 0, 32⟩
/-- HP.PKT1.BLK_CNT (R108). -/
def HP.PKT1_BLK_CNT (u : Nat) : Fld := ⟨(0x010 + u) * 4096 + 0x064, 0, 8⟩
/-- HP.PKT1.RET_CNT (R108). -/
def HP.PKT1_RET_CNT (u : Nat) : Fld := ⟨(0x010 + u) * 4096 + 0x064, 8, 8⟩
/-- HP.PKT2 (R108). -/
def HP.PKT2 (u : Nat) : Fld := ⟨(0x010 + u) * 4096 + 0x068, 0, 32⟩
/-- HP.PKT2.RET_OFS (R108). -/
def HP.PKT2_RET_OFS (u : Nat) : Fld := ⟨(0x010 + u) * 4096 + 0x068, 0, 14⟩
/-- HP.PKT2.RET_STRIDE (R108). -/
def HP.PKT2_RET_STRIDE (u : Nat) : Fld := ⟨(0x010 + u) * 4096 + 0x068, 16, 14⟩
/-- HP.TS_WIN (R108). -/
def HP.TS_WIN (u : Nat) : Fld := ⟨(0x010 + u) * 4096 + 0x06C, 0, 32⟩
/-- HP.TS_WIN.US (R108). -/
def HP.TS_WIN_US (u : Nat) : Fld := ⟨(0x010 + u) * 4096 + 0x06C, 0, 24⟩
/-- HP.TS_NOM (R108). -/
def HP.TS_NOM (u : Nat) : Fld := ⟨(0x010 + u) * 4096 + 0x070, 0, 32⟩
/-- HP.TS_NOM.NS (R108). -/
def HP.TS_NOM_NS (u : Nat) : Fld := ⟨(0x010 + u) * 4096 + 0x070, 0, 24⟩
/-- HP.LIFE_CFG (R108). -/
def HP.LIFE_CFG (u : Nat) : Fld := ⟨(0x010 + u) * 4096 + 0x074, 0, 32⟩
/-- HP.LIFE_CFG.DRIFT_LIM (R108). -/
def HP.LIFE_CFG_DRIFT_LIM (u : Nat) : Fld := ⟨(0x010 + u) * 4096 + 0x074, 0, 8⟩
/-- HP.LIFE_CFG.PERIOD_S (R108). -/
def HP.LIFE_CFG_PERIOD_S (u : Nat) : Fld := ⟨(0x010 + u) * 4096 + 0x074, 16, 16⟩
/-- HP.INT_REF (R108). -/
def HP.INT_REF (u : Nat) : Fld := ⟨(0x010 + u) * 4096 + 0x078, 0, 32⟩
/-- HP.INT_REF.MEAN (R108). -/
def HP.INT_REF_MEAN (u : Nat) : Fld := ⟨(0x010 + u) * 4096 + 0x078, 0, 16⟩
/-- HP.INT_DRIFT (R108). -/
def HP.INT_DRIFT (u : Nat) : Fld := ⟨(0x010 + u) * 4096 + 0x07C, 0, 32⟩
/-- HP.INT_DRIFT.RATIO (R108). -/
def HP.INT_DRIFT_RATIO (u : Nat) : Fld := ⟨(0x010 + u) * 4096 + 0x07C, 0, 16⟩
/-- HP.ID_CTRL (R108). -/
def HP.ID_CTRL (u : Nat) : Fld := ⟨(0x010 + u) * 4096 + 0x080, 0, 32⟩
/-- HP.ID_CTRL.RECHAL (R108). -/
def HP.ID_CTRL_RECHAL (u : Nat) : Fld := ⟨(0x010 + u) * 4096 + 0x080, 0, 1⟩
/-- HP.ID_CTRL.ENROL_VALID (R108). -/
def HP.ID_CTRL_ENROL_VALID (u : Nat) : Fld := ⟨(0x010 + u) * 4096 + 0x080, 1, 1⟩
/-- HP.LIFE_HRS (R108). -/
def HP.LIFE_HRS (u : Nat) : Fld := ⟨(0x010 + u) * 4096 + 0x084, 0, 32⟩
/-- HP.LIFE_RATED (R108). -/
def HP.LIFE_RATED (u : Nat) : Fld := ⟨(0x010 + u) * 4096 + 0x088, 0, 32⟩
/-- HP.CNT_CLR (R108). -/
def HP.CNT_CLR (u : Nat) : Fld := ⟨(0x010 + u) * 4096 + 0x08C, 0, 32⟩
/-- HP.CNT_CLR.CLR (R108). -/
def HP.CNT_CLR_CLR (u : Nat) : Fld := ⟨(0x010 + u) * 4096 + 0x08C, 0, 1⟩
/-- HP.FMAP[i].LOC (R108). -/
def HP.FMAP_LOC (u i : Nat) : Fld := ⟨(0x010 + u) * 4096 + 0x100 + 8 * i, 0, 32⟩
/-- HP.FMAP[i].CONV (R108). -/
def HP.FMAP_CONV (u i : Nat) : Fld := ⟨(0x010 + u) * 4096 + 0x104 + 8 * i, 0, 32⟩
/-- HP.MNT_R[j] (R108). -/
def HP.MNT_R (u j : Nat) : Fld := ⟨(0x010 + u) * 4096 + 0x180 + 4 * j, 0, 32⟩
/-- HP.MNT_T[j] (R108). -/
def HP.MNT_T (u j : Nat) : Fld := ⟨(0x010 + u) * 4096 + 0x1A4 + 4 * j, 0, 32⟩
/-- HP.ENROL[j] (R108). -/
def HP.ENROL (u j : Nat) : Fld := ⟨(0x010 + u) * 4096 + 0x1C0 + 4 * j, 0, 32⟩
/-- HP.RX_PKT (R108). -/
def HP.RX_PKT (u : Nat) : Fld := ⟨(0x010 + u) * 4096 + 0x200, 0, 32⟩
/-- HP.RX_RET (R108). -/
def HP.RX_RET (u : Nat) : Fld := ⟨(0x010 + u) * 4096 + 0x204, 0, 32⟩
/-- HP.DROP_PARSE (R108). -/
def HP.DROP_PARSE (u : Nat) : Fld := ⟨(0x010 + u) * 4096 + 0x208, 0, 32⟩
/-- HP.DROP_TIME (R108). -/
def HP.DROP_TIME (u : Nat) : Fld := ⟨(0x010 + u) * 4096 + 0x20C, 0, 32⟩
/-- HP.DROP_SHED (R108). -/
def HP.DROP_SHED (u : Nat) : Fld := ⟨(0x010 + u) * 4096 + 0x210, 0, 32⟩
/-- HP.DROP_RANGE (R108). -/
def HP.DROP_RANGE (u : Nat) : Fld := ⟨(0x010 + u) * 4096 + 0x214, 0, 32⟩
/-- HP.DROP_VOXEL (R108). -/
def HP.DROP_VOXEL (u : Nat) : Fld := ⟨(0x010 + u) * 4096 + 0x218, 0, 32⟩
/-- HP.DROP_POSE (R108). -/
def HP.DROP_POSE (u : Nat) : Fld := ⟨(0x010 + u) * 4096 + 0x21C, 0, 32⟩
/-- HP.COL_EXCESS (R108). -/
def HP.COL_EXCESS (u : Nat) : Fld := ⟨(0x010 + u) * 4096 + 0x220, 0, 32⟩
/-- HP.EXCL_QUAR (R108). -/
def HP.EXCL_QUAR (u : Nat) : Fld := ⟨(0x010 + u) * 4096 + 0x224, 0, 32⟩
/-- HP.SECT_SHED (R108). -/
def HP.SECT_SHED (u : Nat) : Fld := ⟨(0x010 + u) * 4096 + 0x228, 0, 32⟩
/-- HP.CH[c].ELEV (R108). -/
def HP.CH_ELEV (u c : Nat) : Fld := ⟨(0x010 + u) * 4096 + 0x800 + 8 * c, 0, 24⟩
/-- HP.CH[c].ADJ (R108). -/
def HP.CH_ADJ (u c : Nat) : Fld := ⟨(0x010 + u) * 4096 + 0x804 + 8 * c, 0, 32⟩
/-- ING.CTRL (R109). -/
def ING.CTRL (u : Nat) : Fld := ⟨(0x020 + u) * 4096 + 0x040, 0, 32⟩
/-- ING.CTRL.POSE_SRC (R109). -/
def ING.CTRL_POSE_SRC (u : Nat) : Fld := ⟨(0x020 + u) * 4096 + 0x040, 0, 2⟩
/-- ING.POSE_UDP (R109). -/
def ING.POSE_UDP (u : Nat) : Fld := ⟨(0x020 + u) * 4096 + 0x044, 0, 32⟩
/-- ING.POSE_UDP.PORT (R109). -/
def ING.POSE_UDP_PORT (u : Nat) : Fld := ⟨(0x020 + u) * 4096 + 0x044, 0, 16⟩
/-- ING.POSE_WAIT (R109). -/
def ING.POSE_WAIT (u : Nat) : Fld := ⟨(0x020 + u) * 4096 + 0x048, 0, 32⟩
/-- ING.POSE_WAIT.US (R109). -/
def ING.POSE_WAIT_US (u : Nat) : Fld := ⟨(0x020 + u) * 4096 + 0x048, 0, 16⟩
/-- ING.POSE_GAP (R109). -/
def ING.POSE_GAP (u : Nat) : Fld := ⟨(0x020 + u) * 4096 + 0x04C, 0, 32⟩
/-- ING.POSE_GAP.US (R109). -/
def ING.POSE_GAP_US (u : Nat) : Fld := ⟨(0x020 + u) * 4096 + 0x04C, 0, 16⟩
/-- ING.BAND0 (R109). -/
def ING.BAND0 (u : Nat) : Fld := ⟨(0x020 + u) * 4096 + 0x050, 0, 32⟩
/-- ING.BAND0.T0 (R109). -/
def ING.BAND0_T0 (u : Nat) : Fld := ⟨(0x020 + u) * 4096 + 0x050, 0, 16⟩
/-- ING.BAND0.T1 (R109). -/
def ING.BAND0_T1 (u : Nat) : Fld := ⟨(0x020 + u) * 4096 + 0x050, 16, 16⟩
/-- ING.BAND1 (R109). -/
def ING.BAND1 (u : Nat) : Fld := ⟨(0x020 + u) * 4096 + 0x054, 0, 32⟩
/-- ING.BAND1.T2 (R109). -/
def ING.BAND1_T2 (u : Nat) : Fld := ⟨(0x020 + u) * 4096 + 0x054, 0, 16⟩
/-- ING.BAND1.T3 (R109). -/
def ING.BAND1_T3 (u : Nat) : Fld := ⟨(0x020 + u) * 4096 + 0x054, 16, 16⟩
/-- ING.BAND2 (R109). -/
def ING.BAND2 (u : Nat) : Fld := ⟨(0x020 + u) * 4096 + 0x058, 0, 32⟩
/-- ING.BAND2.T4 (R109). -/
def ING.BAND2_T4 (u : Nat) : Fld := ⟨(0x020 + u) * 4096 + 0x058, 0, 16⟩
/-- ING.BAND2.T5 (R109). -/
def ING.BAND2_T5 (u : Nat) : Fld := ⟨(0x020 + u) * 4096 + 0x058, 16, 16⟩
/-- ING.BAND3 (R109). -/
def ING.BAND3 (u : Nat) : Fld := ⟨(0x020 + u) * 4096 + 0x05C, 0, 32⟩
/-- ING.BAND3.T6 (R109). -/
def ING.BAND3_T6 (u : Nat) : Fld := ⟨(0x020 + u) * 4096 + 0x05C, 0, 16⟩
/-- ING.SHED_WM (R109). -/
def ING.SHED_WM (u : Nat) : Fld := ⟨(0x020 + u) * 4096 + 0x060, 0, 32⟩
/-- ING.SHED_WM.LO (R109). -/
def ING.SHED_WM_LO (u : Nat) : Fld := ⟨(0x020 + u) * 4096 + 0x060, 0, 8⟩
/-- ING.SHED_WM.HI (R109). -/
def ING.SHED_WM_HI (u : Nat) : Fld := ⟨(0x020 + u) * 4096 + 0x060, 8, 8⟩
/-- ING.SHED_STAT (R109). -/
def ING.SHED_STAT (u : Nat) : Fld := ⟨(0x020 + u) * 4096 + 0x064, 0, 32⟩
/-- ING.SHED_STAT.LEVEL (R109). -/
def ING.SHED_STAT_LEVEL (u : Nat) : Fld := ⟨(0x020 + u) * 4096 + 0x064, 0, 7⟩
/-- ING.SHED_STAT.MAX (R109). -/
def ING.SHED_STAT_MAX (u : Nat) : Fld := ⟨(0x020 + u) * 4096 + 0x064, 8, 7⟩
/-- ING.EVT (R109). -/
def ING.EVT (u : Nat) : Fld := ⟨(0x020 + u) * 4096 + 0x068, 0, 32⟩
/-- ING.EVT.POSE_EXTRAP (R109). -/
def ING.EVT_POSE_EXTRAP (u : Nat) : Fld := ⟨(0x020 + u) * 4096 + 0x068, 0, 1⟩
/-- ING.EVT.POSE_GAP (R109). -/
def ING.EVT_POSE_GAP (u : Nat) : Fld := ⟨(0x020 + u) * 4096 + 0x068, 1, 1⟩
/-- ING.EVT.POSE_BAD (R109). -/
def ING.EVT_POSE_BAD (u : Nat) : Fld := ⟨(0x020 + u) * 4096 + 0x068, 2, 1⟩
/-- ING.EVT.IMU_LOST (R109). -/
def ING.EVT_IMU_LOST (u : Nat) : Fld := ⟨(0x020 + u) * 4096 + 0x068, 3, 1⟩
/-- ING.EVT.ANCHOR_MOVE (R109). -/
def ING.EVT_ANCHOR_MOVE (u : Nat) : Fld := ⟨(0x020 + u) * 4096 + 0x068, 4, 1⟩
/-- ING.EVT.PWB_FULL (R109). -/
def ING.EVT_PWB_FULL (u : Nat) : Fld := ⟨(0x020 + u) * 4096 + 0x068, 5, 1⟩
/-- ING.EVT.SHED_START (R109). -/
def ING.EVT_SHED_START (u : Nat) : Fld := ⟨(0x020 + u) * 4096 + 0x068, 6, 1⟩
/-- ING.STAT (R109). -/
def ING.STAT (u : Nat) : Fld := ⟨(0x020 + u) * 4096 + 0x06C, 0, 32⟩
/-- ING.STAT.POSE_ACT (R109). -/
def ING.STAT_POSE_ACT (u : Nat) : Fld := ⟨(0x020 + u) * 4096 + 0x06C, 0, 2⟩
/-- ING.STAT.ANCHOR_GEN (R109). -/
def ING.STAT_ANCHOR_GEN (u : Nat) : Fld := ⟨(0x020 + u) * 4096 + 0x06C, 2, 2⟩
/-- ING.ANCHOR[i].LO (R109). -/
def ING.ANCHOR_LO (u i : Nat) : Fld := ⟨(0x020 + u) * 4096 + 0x070 + 8 * i, 0, 32⟩
/-- ING.ANCHOR[i].HI (R109). -/
def ING.ANCHOR_HI (u i : Nat) : Fld := ⟨(0x020 + u) * 4096 + 0x074 + 8 * i, 0, 32⟩
/-- ING.ANCHOR[i].HI.HI (R109). -/
def ING.ANCHOR_HI_HI (u i : Nat) : Fld := ⟨(0x020 + u) * 4096 + 0x074 + 8 * i, 0, 16⟩
/-- ING.POSE_RX_CNT (R109). -/
def ING.POSE_RX_CNT (u : Nat) : Fld := ⟨(0x020 + u) * 4096 + 0x088, 0, 32⟩
/-- ING.POSE_BAD_CNT (R109). -/
def ING.POSE_BAD_CNT (u : Nat) : Fld := ⟨(0x020 + u) * 4096 + 0x08C, 0, 32⟩
/-- ING.EXTRAP_CNT (R109). -/
def ING.EXTRAP_CNT (u : Nat) : Fld := ⟨(0x020 + u) * 4096 + 0x090, 0, 32⟩
/-- ING.CNT_CLR (R109). -/
def ING.CNT_CLR (u : Nat) : Fld := ⟨(0x020 + u) * 4096 + 0x094, 0, 32⟩
/-- ING.CNT_CLR.CLR (R109). -/
def ING.CNT_CLR_CLR (u : Nat) : Fld := ⟨(0x020 + u) * 4096 + 0x094, 0, 1⟩
/-- ING.IMU_CFG (R109). -/
def ING.IMU_CFG (u : Nat) : Fld := ⟨(0x020 + u) * 4096 + 0x0A0, 0, 32⟩
/-- ING.IMU_CFG.EN (R109). -/
def ING.IMU_CFG_EN (u : Nat) : Fld := ⟨(0x020 + u) * 4096 + 0x0A0, 0, 1⟩
/-- ING.IMU_CFG.CPOL (R109). -/
def ING.IMU_CFG_CPOL (u : Nat) : Fld := ⟨(0x020 + u) * 4096 + 0x0A0, 1, 1⟩
/-- ING.IMU_CFG.CPHA (R109). -/
def ING.IMU_CFG_CPHA (u : Nat) : Fld := ⟨(0x020 + u) * 4096 + 0x0A0, 2, 1⟩
/-- ING.IMU_CFG.RD_CMD (R109). -/
def ING.IMU_CFG_RD_CMD (u : Nat) : Fld := ⟨(0x020 + u) * 4096 + 0x0A0, 8, 8⟩
/-- ING.IMU_CFG.DIV (R109). -/
def ING.IMU_CFG_DIV (u : Nat) : Fld := ⟨(0x020 + u) * 4096 + 0x0A0, 16, 8⟩
/-- ING.IMU_LAT (R109). -/
def ING.IMU_LAT (u : Nat) : Fld := ⟨(0x020 + u) * 4096 + 0x0A4, 0, 32⟩
/-- ING.IMU_LAT.NS (R109). -/
def ING.IMU_LAT_NS (u : Nat) : Fld := ⟨(0x020 + u) * 4096 + 0x0A4, 0, 16⟩
/-- VHU.CTRL (R135). -/
def VHU.CTRL (u : Nat) : Fld := ⟨(0x022 + u) * 4096 + 0x040, 0, 32⟩
/-- VHU.CTRL.GRID_CNT (R135). -/
def VHU.CTRL_GRID_CNT (u : Nat) : Fld := ⟨(0x022 + u) * 4096 + 0x040, 0, 2⟩
/-- VHU.CTRL.SWEEP_WIN_M1 (R135). -/
def VHU.CTRL_SWEEP_WIN_M1 (u : Nat) : Fld := ⟨(0x022 + u) * 4096 + 0x040, 2, 2⟩
/-- VHU.CTRL.SUM_MODE (R135). -/
def VHU.CTRL_SUM_MODE (u : Nat) : Fld := ⟨(0x022 + u) * 4096 + 0x040, 4, 1⟩
/-- VHU.STAT (R135). -/
def VHU.STAT (u : Nat) : Fld := ⟨(0x022 + u) * 4096 + 0x044, 0, 32⟩
/-- VHU.STAT.BUILD (R135). -/
def VHU.STAT_BUILD (u : Nat) : Fld := ⟨(0x022 + u) * 4096 + 0x044, 0, 1⟩
/-- VHU.STAT.STASH_PRESS (R135). -/
def VHU.STAT_STASH_PRESS (u : Nat) : Fld := ⟨(0x022 + u) * 4096 + 0x044, 1, 1⟩
/-- VHU.STAT.RECENTER_PEND (R135). -/
def VHU.STAT_RECENTER_PEND (u : Nat) : Fld := ⟨(0x022 + u) * 4096 + 0x044, 2, 1⟩
/-- VHU.STAT.AGE_PEND (R135). -/
def VHU.STAT_AGE_PEND (u : Nat) : Fld := ⟨(0x022 + u) * 4096 + 0x044, 3, 1⟩
/-- VHU.STAT.SWEEP_CUR (R135). -/
def VHU.STAT_SWEEP_CUR (u : Nat) : Fld := ⟨(0x022 + u) * 4096 + 0x044, 8, 8⟩
/-- VHU.EVT (R135). -/
def VHU.EVT (u : Nat) : Fld := ⟨(0x022 + u) * 4096 + 0x048, 0, 32⟩
/-- VHU.EVT.TABLE_FULL (R135). -/
def VHU.EVT_TABLE_FULL (u : Nat) : Fld := ⟨(0x022 + u) * 4096 + 0x048, 0, 1⟩
/-- VHU.EVT.STASH_PRESS (R135). -/
def VHU.EVT_STASH_PRESS (u : Nat) : Fld := ⟨(0x022 + u) * 4096 + 0x048, 1, 1⟩
/-- VHU.EVT.OUT_WIN (R135). -/
def VHU.EVT_OUT_WIN (u : Nat) : Fld := ⟨(0x022 + u) * 4096 + 0x048, 2, 1⟩
/-- VHU.EVT.STALE_SWEEP (R135). -/
def VHU.EVT_STALE_SWEEP (u : Nat) : Fld := ⟨(0x022 + u) * 4096 + 0x048, 3, 1⟩
/-- VHU.EVT.ROW_OVF (R135). -/
def VHU.EVT_ROW_OVF (u : Nat) : Fld := ⟨(0x022 + u) * 4096 + 0x048, 4, 1⟩
/-- VHU.EVT.LEVEL_OVF (R135). -/
def VHU.EVT_LEVEL_OVF (u : Nat) : Fld := ⟨(0x022 + u) * 4096 + 0x048, 5, 1⟩
/-- VHU.EVT.RB_OVF (R135). -/
def VHU.EVT_RB_OVF (u : Nat) : Fld := ⟨(0x022 + u) * 4096 + 0x048, 6, 1⟩
/-- VHU.EVT.FPTR_LOST (R135). -/
def VHU.EVT_FPTR_LOST (u : Nat) : Fld := ⟨(0x022 + u) * 4096 + 0x048, 7, 1⟩
/-- VHU.EVT.RECENTER (R135). -/
def VHU.EVT_RECENTER (u : Nat) : Fld := ⟨(0x022 + u) * 4096 + 0x048, 8, 1⟩
/-- VHU.EVT.ECC_CE (R135). -/
def VHU.EVT_ECC_CE (u : Nat) : Fld := ⟨(0x022 + u) * 4096 + 0x048, 9, 1⟩
/-- VHU.EVT.ECC_UE (R135). -/
def VHU.EVT_ECC_UE (u : Nat) : Fld := ⟨(0x022 + u) * 4096 + 0x048, 10, 1⟩
/-- VHU.STASH_WM (R135). -/
def VHU.STASH_WM (u : Nat) : Fld := ⟨(0x022 + u) * 4096 + 0x04C, 0, 32⟩
/-- VHU.STASH_WM.LO (R135). -/
def VHU.STASH_WM_LO (u : Nat) : Fld := ⟨(0x022 + u) * 4096 + 0x04C, 0, 12⟩
/-- VHU.STASH_WM.HI (R135). -/
def VHU.STASH_WM_HI (u : Nat) : Fld := ⟨(0x022 + u) * 4096 + 0x04C, 16, 12⟩
/-- VHU.HALO (R135). -/
def VHU.HALO (u : Nat) : Fld := ⟨(0x022 + u) * 4096 + 0x050, 0, 32⟩
/-- VHU.HALO.CM (R135). -/
def VHU.HALO_CM (u : Nat) : Fld := ⟨(0x022 + u) * 4096 + 0x050, 0, 16⟩
/-- VHU.MAX_ROWS (R135). -/
def VHU.MAX_ROWS (u : Nat) : Fld := ⟨(0x022 + u) * 4096 + 0x054, 0, 32⟩
/-- VHU.MAX_ROWS.ROWS (R135). -/
def VHU.MAX_ROWS_ROWS (u : Nat) : Fld := ⟨(0x022 + u) * 4096 + 0x054, 0, 16⟩
/-- VHU.ROWDST (R135). -/
def VHU.ROWDST (u : Nat) : Fld := ⟨(0x022 + u) * 4096 + 0x058, 0, 32⟩
/-- VHU.ROWDST.FEAT (R135). -/
def VHU.ROWDST_FEAT (u : Nat) : Fld := ⟨(0x022 + u) * 4096 + 0x058, 0, 6⟩
/-- VHU.ROWDST.COORD0 (R135). -/
def VHU.ROWDST_COORD0 (u : Nat) : Fld := ⟨(0x022 + u) * 4096 + 0x058, 6, 6⟩
/-- VHU.ROWDST.COORD1 (R135). -/
def VHU.ROWDST_COORD1 (u : Nat) : Fld := ⟨(0x022 + u) * 4096 + 0x058, 12, 6⟩
/-- VHU.ROWDST.COORD2 (R135). -/
def VHU.ROWDST_COORD2 (u : Nat) : Fld := ⟨(0x022 + u) * 4096 + 0x058, 18, 6⟩
/-- VHU.ROWDST.COORD3 (R135). -/
def VHU.ROWDST_COORD3 (u : Nat) : Fld := ⟨(0x022 + u) * 4096 + 0x058, 24, 6⟩
/-- VHU.GRID[n].CFG (R135). -/
def VHU.GRID_CFG (u n : Nat) : Fld := ⟨(0x022 + u) * 4096 + 0x060 + 32 * n, 0, 32⟩
/-- VHU.GRID[n].CFG.VLOG (R135). -/
def VHU.GRID_CFG_VLOG (u n : Nat) : Fld := ⟨(0x022 + u) * 4096 + 0x060 + 32 * n, 0, 4⟩
/-- VHU.GRID[n].EXT (R135). -/
def VHU.GRID_EXT (u n : Nat) : Fld := ⟨(0x022 + u) * 4096 + 0x064 + 32 * n, 0, 32⟩
/-- VHU.GRID[n].EXT.HXY (R135). -/
def VHU.GRID_EXT_HXY (u n : Nat) : Fld := ⟨(0x022 + u) * 4096 + 0x064 + 32 * n, 0, 16⟩
/-- VHU.GRID[n].EXT.HZ (R135). -/
def VHU.GRID_EXT_HZ (u n : Nat) : Fld := ⟨(0x022 + u) * 4096 + 0x064 + 32 * n, 16, 16⟩
/-- VHU.GRID[n].RECT (R135). -/
def VHU.GRID_RECT (u n : Nat) : Fld := ⟨(0x022 + u) * 4096 + 0x068 + 32 * n, 0, 32⟩
/-- VHU.GRID[n].RECT.STEP (R135). -/
def VHU.GRID_RECT_STEP (u n : Nat) : Fld := ⟨(0x022 + u) * 4096 + 0x068 + 32 * n, 0, 16⟩
/-- VHU.GRID[n].CTR_X (R135). -/
def VHU.GRID_CTR_X (u n : Nat) : Fld := ⟨(0x022 + u) * 4096 + 0x06C + 32 * n, 0, 32⟩
/-- VHU.GRID[n].CTR_X.KEY (R135). -/
def VHU.GRID_CTR_X_KEY (u n : Nat) : Fld := ⟨(0x022 + u) * 4096 + 0x06C + 32 * n, 0, 21⟩
/-- VHU.GRID[n].CTR_Y (R135). -/
def VHU.GRID_CTR_Y (u n : Nat) : Fld := ⟨(0x022 + u) * 4096 + 0x070 + 32 * n, 0, 32⟩
/-- VHU.GRID[n].CTR_Y.KEY (R135). -/
def VHU.GRID_CTR_Y_KEY (u n : Nat) : Fld := ⟨(0x022 + u) * 4096 + 0x070 + 32 * n, 0, 21⟩
/-- VHU.GRID[n].CTR_Z (R135). -/
def VHU.GRID_CTR_Z (u n : Nat) : Fld := ⟨(0x022 + u) * 4096 + 0x074 + 32 * n, 0, 32⟩
/-- VHU.GRID[n].CTR_Z.KEY (R135). -/
def VHU.GRID_CTR_Z_KEY (u n : Nat) : Fld := ⟨(0x022 + u) * 4096 + 0x074 + 32 * n, 0, 21⟩
/-- VHU.OCC (R135). -/
def VHU.OCC (u : Nat) : Fld := ⟨(0x022 + u) * 4096 + 0x0C0, 0, 32⟩
/-- VHU.OCC.SLOTS (R135). -/
def VHU.OCC_SLOTS (u : Nat) : Fld := ⟨(0x022 + u) * 4096 + 0x0C0, 0, 20⟩
/-- VHU.STASH_OCC (R135). -/
def VHU.STASH_OCC (u : Nat) : Fld := ⟨(0x022 + u) * 4096 + 0x0C4, 0, 32⟩
/-- VHU.STASH_OCC.ENTRIES (R135). -/
def VHU.STASH_OCC_ENTRIES (u : Nat) : Fld := ⟨(0x022 + u) * 4096 + 0x0C4, 0, 13⟩
/-- VHU.INS_CNT (R135). -/
def VHU.INS_CNT (u : Nat) : Fld := ⟨(0x022 + u) * 4096 + 0x0C8, 0, 32⟩
/-- VHU.DROP_FULL_CNT (R135). -/
def VHU.DROP_FULL_CNT (u : Nat) : Fld := ⟨(0x022 + u) * 4096 + 0x0CC, 0, 32⟩
/-- VHU.OUT_WIN_CNT (R135). -/
def VHU.OUT_WIN_CNT (u : Nat) : Fld := ⟨(0x022 + u) * 4096 + 0x0D0, 0, 32⟩
/-- VHU.STALE_CNT (R135). -/
def VHU.STALE_CNT (u : Nat) : Fld := ⟨(0x022 + u) * 4096 + 0x0D4, 0, 32⟩
/-- VHU.SAT_CNT (R135). -/
def VHU.SAT_CNT (u : Nat) : Fld := ⟨(0x022 + u) * 4096 + 0x0D8, 0, 32⟩
/-- VHU.ROW_OVF_CNT (R135). -/
def VHU.ROW_OVF_CNT (u : Nat) : Fld := ⟨(0x022 + u) * 4096 + 0x0DC, 0, 32⟩
/-- VHU.LEVEL_OVF_CNT (R135). -/
def VHU.LEVEL_OVF_CNT (u : Nat) : Fld := ⟨(0x022 + u) * 4096 + 0x0E0, 0, 32⟩
/-- VHU.RB_OVF_CNT (R135). -/
def VHU.RB_OVF_CNT (u : Nat) : Fld := ⟨(0x022 + u) * 4096 + 0x0E4, 0, 32⟩
/-- VHU.FPTR_LOST_CNT (R135). -/
def VHU.FPTR_LOST_CNT (u : Nat) : Fld := ⟨(0x022 + u) * 4096 + 0x0E8, 0, 32⟩
/-- VHU.ECC_CE_CNT (R135). -/
def VHU.ECC_CE_CNT (u : Nat) : Fld := ⟨(0x022 + u) * 4096 + 0x0EC, 0, 32⟩
/-- VHU.BUILD_CYC (R135). -/
def VHU.BUILD_CYC (u : Nat) : Fld := ⟨(0x022 + u) * 4096 + 0x0F0, 0, 32⟩
/-- VHU.BUILD_CYC.CYC (R135). -/
def VHU.BUILD_CYC_CYC (u : Nat) : Fld := ⟨(0x022 + u) * 4096 + 0x0F0, 0, 24⟩
/-- VHU.CNT_CLR (R135). -/
def VHU.CNT_CLR (u : Nat) : Fld := ⟨(0x022 + u) * 4096 + 0x0F4, 0, 32⟩
/-- VHU.CNT_CLR.CLR (R135). -/
def VHU.CNT_CLR_CLR (u : Nat) : Fld := ⟨(0x022 + u) * 4096 + 0x0F4, 0, 1⟩
/-- VHU.RBQ[i].KIND (R135). -/
def VHU.RBQ_KIND (u i : Nat) : Fld := ⟨(0x022 + u) * 4096 + 0x100 + 8 * i, 0, 32⟩
/-- VHU.RBQ[i].KIND.KIND (R135). -/
def VHU.RBQ_KIND_KIND (u i : Nat) : Fld := ⟨(0x022 + u) * 4096 + 0x100 + 8 * i, 0, 3⟩
/-- VHU.RBQ[i].KIND.GRID (R135). -/
def VHU.RBQ_KIND_GRID (u i : Nat) : Fld := ⟨(0x022 + u) * 4096 + 0x100 + 8 * i, 4, 2⟩
/-- VHU.RBQ[i].KIND.LVL_IN (R135). -/
def VHU.RBQ_KIND_LVL_IN (u i : Nat) : Fld := ⟨(0x022 + u) * 4096 + 0x100 + 8 * i, 8, 2⟩
/-- VHU.RBQ[i].KIND.LVL_OUT (R135). -/
def VHU.RBQ_KIND_LVL_OUT (u i : Nat) : Fld := ⟨(0x022 + u) * 4096 + 0x100 + 8 * i, 12, 2⟩
/-- VHU.RBQ[i].DST (R135). -/
def VHU.RBQ_DST (u i : Nat) : Fld := ⟨(0x022 + u) * 4096 + 0x104 + 8 * i, 0, 32⟩
/-- VHU.RBQ[i].DST.HDL (R135). -/
def VHU.RBQ_DST_HDL (u i : Nat) : Fld := ⟨(0x022 + u) * 4096 + 0x104 + 8 * i, 0, 6⟩
/-- TILE.ROLE (R167). -/
def TILE.ROLE (u : Nat) : Fld := ⟨(0x100 + u) * 4096 + 0x040, 0, 32⟩
/-- TILE.ROLE.ROLE (R167). -/
def TILE.ROLE_ROLE (u : Nat) : Fld := ⟨(0x100 + u) * 4096 + 0x040, 0, 2⟩
/-- TILE.ROLE.STAGE (R167). -/
def TILE.ROLE_STAGE (u : Nat) : Fld := ⟨(0x100 + u) * 4096 + 0x040, 8, 5⟩
/-- TILE.ROLE.SLOTS (R167). -/
def TILE.ROLE_SLOTS (u : Nat) : Fld := ⟨(0x100 + u) * 4096 + 0x040, 16, 8⟩
/-- TILE.PROG (R167). -/
def TILE.PROG (u : Nat) : Fld := ⟨(0x100 + u) * 4096 + 0x044, 0, 32⟩
/-- TILE.PROG.START (R167). -/
def TILE.PROG_START (u : Nat) : Fld := ⟨(0x100 + u) * 4096 + 0x044, 0, 16⟩
/-- TILE.PROG.LEN (R167). -/
def TILE.PROG_LEN (u : Nat) : Fld := ⟨(0x100 + u) * 4096 + 0x044, 16, 13⟩
/-- TILE.BUDGET (R167). -/
def TILE.BUDGET (u : Nat) : Fld := ⟨(0x100 + u) * 4096 + 0x048, 0, 32⟩
/-- TILE.BUDGET.CYC (R167). -/
def TILE.BUDGET_CYC (u : Nat) : Fld := ⟨(0x100 + u) * 4096 + 0x048, 0, 24⟩
/-- TILE.BUDGET_SLACK (R167). -/
def TILE.BUDGET_SLACK (u : Nat) : Fld := ⟨(0x100 + u) * 4096 + 0x04C, 0, 32⟩
/-- TILE.BUDGET_SLACK.CYC (R167). -/
def TILE.BUDGET_SLACK_CYC (u : Nat) : Fld := ⟨(0x100 + u) * 4096 + 0x04C, 0, 24⟩
/-- TILE.STAT (R167). -/
def TILE.STAT (u : Nat) : Fld := ⟨(0x100 + u) * 4096 + 0x050, 0, 32⟩
/-- TILE.STAT.STATE (R167). -/
def TILE.STAT_STATE (u : Nat) : Fld := ⟨(0x100 + u) * 4096 + 0x050, 0, 3⟩
/-- TILE.STAT.PART (R167). -/
def TILE.STAT_PART (u : Nat) : Fld := ⟨(0x100 + u) * 4096 + 0x050, 4, 2⟩
/-- TILE.STAT.GOLD (R167). -/
def TILE.STAT_GOLD (u : Nat) : Fld := ⟨(0x100 + u) * 4096 + 0x050, 8, 1⟩
/-- TILE.STAT.WEDGE (R167). -/
def TILE.STAT_WEDGE (u : Nat) : Fld := ⟨(0x100 + u) * 4096 + 0x050, 16, 6⟩
/-- TILE.ADMIT (R167). -/
def TILE.ADMIT (u : Nat) : Fld := ⟨(0x100 + u) * 4096 + 0x054, 0, 32⟩
/-- TILE.ADMIT.NUM (R167). -/
def TILE.ADMIT_NUM (u : Nat) : Fld := ⟨(0x100 + u) * 4096 + 0x054, 0, 16⟩
/-- TILE.PC (R167). -/
def TILE.PC (u : Nat) : Fld := ⟨(0x100 + u) * 4096 + 0x058, 0, 32⟩
/-- TILE.PC.IDX (R167). -/
def TILE.PC_IDX (u : Nat) : Fld := ⟨(0x100 + u) * 4096 + 0x058, 0, 13⟩
/-- TILE.EVT (R167). -/
def TILE.EVT (u : Nat) : Fld := ⟨(0x100 + u) * 4096 + 0x05C, 0, 32⟩
/-- TILE.EVT.OVERRUN (R167). -/
def TILE.EVT_OVERRUN (u : Nat) : Fld := ⟨(0x100 + u) * 4096 + 0x05C, 0, 1⟩
/-- TILE.EVT.LATE (R167). -/
def TILE.EVT_LATE (u : Nat) : Fld := ⟨(0x100 + u) * 4096 + 0x05C, 1, 1⟩
/-- TILE.EVT.HANG (R167). -/
def TILE.EVT_HANG (u : Nat) : Fld := ⟨(0x100 + u) * 4096 + 0x05C, 2, 1⟩
/-- TILE.EVT.SEQ_ERR (R167). -/
def TILE.EVT_SEQ_ERR (u : Nat) : Fld := ⟨(0x100 + u) * 4096 + 0x05C, 3, 1⟩
/-- TILE.EVT.HDL_BOUND (R167). -/
def TILE.EVT_HDL_BOUND (u : Nat) : Fld := ⟨(0x100 + u) * 4096 + 0x05C, 4, 1⟩
/-- TILE.EVT.BAD_DESC (R167). -/
def TILE.EVT_BAD_DESC (u : Nat) : Fld := ⟨(0x100 + u) * 4096 + 0x05C, 5, 1⟩
/-- TILE.ERR_DESC (R167). -/
def TILE.ERR_DESC (u : Nat) : Fld := ⟨(0x100 + u) * 4096 + 0x060, 0, 32⟩
/-- TILE.ERR_DESC.IDX (R167). -/
def TILE.ERR_DESC_IDX (u : Nat) : Fld := ⟨(0x100 + u) * 4096 + 0x060, 0, 13⟩
/-- TILE.ERR_DESC.KIND (R167). -/
def TILE.ERR_DESC_KIND (u : Nat) : Fld := ⟨(0x100 + u) * 4096 + 0x060, 28, 4⟩
/-- TILE.LAST_CYC (R167). -/
def TILE.LAST_CYC (u : Nat) : Fld := ⟨(0x100 + u) * 4096 + 0x064, 0, 32⟩
/-- TILE.LAST_CYC.CYC (R167). -/
def TILE.LAST_CYC_CYC (u : Nat) : Fld := ⟨(0x100 + u) * 4096 + 0x064, 0, 24⟩
/-- TILE.MAX_CYC (R167). -/
def TILE.MAX_CYC (u : Nat) : Fld := ⟨(0x100 + u) * 4096 + 0x068, 0, 32⟩
/-- TILE.MAX_CYC.CYC (R167). -/
def TILE.MAX_CYC_CYC (u : Nat) : Fld := ⟨(0x100 + u) * 4096 + 0x068, 0, 24⟩
/-- TILE.WEDGE_CNT (R167). -/
def TILE.WEDGE_CNT (u : Nat) : Fld := ⟨(0x100 + u) * 4096 + 0x06C, 0, 32⟩
/-- TILE.OVERRUN_CNT (R167). -/
def TILE.OVERRUN_CNT (u : Nat) : Fld := ⟨(0x100 + u) * 4096 + 0x070, 0, 32⟩
/-- TILE.LATE_CNT (R167). -/
def TILE.LATE_CNT (u : Nat) : Fld := ⟨(0x100 + u) * 4096 + 0x074, 0, 32⟩
/-- TILE.MXE_ISSUED (R167). -/
def TILE.MXE_ISSUED (u : Nat) : Fld := ⟨(0x100 + u) * 4096 + 0x078, 0, 32⟩
/-- TILE.MXE_USEFUL (R167). -/
def TILE.MXE_USEFUL (u : Nat) : Fld := ⟨(0x100 + u) * 4096 + 0x07C, 0, 32⟩
/-- TILE.CNT_CLR (R167). -/
def TILE.CNT_CLR (u : Nat) : Fld := ⟨(0x100 + u) * 4096 + 0x080, 0, 32⟩
/-- TILE.CNT_CLR.CLR (R167). -/
def TILE.CNT_CLR_CLR (u : Nat) : Fld := ⟨(0x100 + u) * 4096 + 0x080, 0, 1⟩
/-- TILE.SPD_SIZE (R215). -/
def TILE.SPD_SIZE (u : Nat) : Fld := ⟨(0x100 + u) * 4096 + 0x200, 0, 32⟩
/-- TILE.SPD_SIZE.KIB (R215). -/
def TILE.SPD_SIZE_KIB (u : Nat) : Fld := ⟨(0x100 + u) * 4096 + 0x200, 0, 13⟩
/-- TILE.SPD_SIZE.BANKS (R215). -/
def TILE.SPD_SIZE_BANKS (u : Nat) : Fld := ⟨(0x100 + u) * 4096 + 0x200, 16, 5⟩
/-- TILE.SPD_SIZE.GROUPS (R215). -/
def TILE.SPD_SIZE_GROUPS (u : Nat) : Fld := ⟨(0x100 + u) * 4096 + 0x200, 24, 2⟩
/-- TILE.SPD_CFG (R215). -/
def TILE.SPD_CFG (u : Nat) : Fld := ⟨(0x100 + u) * 4096 + 0x204, 0, 32⟩
/-- TILE.SPD_CFG.CONF_SEV (R215). -/
def TILE.SPD_CFG_CONF_SEV (u : Nat) : Fld := ⟨(0x100 + u) * 4096 + 0x204, 0, 1⟩
/-- TILE.TAG_TIMEOUT (R215). -/
def TILE.TAG_TIMEOUT (u : Nat) : Fld := ⟨(0x100 + u) * 4096 + 0x208, 0, 32⟩
/-- TILE.TAG_TIMEOUT.CYC (R215). -/
def TILE.TAG_TIMEOUT_CYC (u : Nat) : Fld := ⟨(0x100 + u) * 4096 + 0x208, 0, 24⟩
/-- TILE.SPD_STAT (R215). -/
def TILE.SPD_STAT (u : Nat) : Fld := ⟨(0x100 + u) * 4096 + 0x20C, 0, 32⟩
/-- TILE.SPD_STAT.LAT_MODE (R215). -/
def TILE.SPD_STAT_LAT_MODE (u : Nat) : Fld := ⟨(0x100 + u) * 4096 + 0x20C, 0, 1⟩
/-- TILE.SPD_STAT.SWEEP (R215). -/
def TILE.SPD_STAT_SWEEP (u : Nat) : Fld := ⟨(0x100 + u) * 4096 + 0x20C, 1, 1⟩
/-- TILE.SPD_STAT.CEQ_OCC (R215). -/
def TILE.SPD_STAT_CEQ_OCC (u : Nat) : Fld := ⟨(0x100 + u) * 4096 + 0x20C, 8, 6⟩
/-- TILE.SPD_EVT (R215). -/
def TILE.SPD_EVT (u : Nat) : Fld := ⟨(0x100 + u) * 4096 + 0x210, 0, 32⟩
/-- TILE.SPD_EVT.CONFLICT (R215). -/
def TILE.SPD_EVT_CONFLICT (u : Nat) : Fld := ⟨(0x100 + u) * 4096 + 0x210, 0, 1⟩
/-- TILE.SPD_EVT.CE (R215). -/
def TILE.SPD_EVT_CE (u : Nat) : Fld := ⟨(0x100 + u) * 4096 + 0x210, 1, 1⟩
/-- TILE.SPD_EVT.UE (R215). -/
def TILE.SPD_EVT_UE (u : Nat) : Fld := ⟨(0x100 + u) * 4096 + 0x210, 2, 1⟩
/-- TILE.SPD_EVT.CEQ_OVF (R215). -/
def TILE.SPD_EVT_CEQ_OVF (u : Nat) : Fld := ⟨(0x100 + u) * 4096 + 0x210, 3, 1⟩
/-- TILE.SPD_EVT.TAG_TO (R215). -/
def TILE.SPD_EVT_TAG_TO (u : Nat) : Fld := ⟨(0x100 + u) * 4096 + 0x210, 4, 1⟩
/-- TILE.SPD_EVT.BAR_TO (R215). -/
def TILE.SPD_EVT_BAR_TO (u : Nat) : Fld := ⟨(0x100 + u) * 4096 + 0x210, 5, 1⟩
/-- TILE.SPD_EVT.WIN_REJ (R215). -/
def TILE.SPD_EVT_WIN_REJ (u : Nat) : Fld := ⟨(0x100 + u) * 4096 + 0x210, 6, 1⟩
/-- TILE.SPD_EVT.PART_VIOL (R215). -/
def TILE.SPD_EVT_PART_VIOL (u : Nat) : Fld := ⟨(0x100 + u) * 4096 + 0x210, 7, 1⟩
/-- TILE.SPD_EVT.TAG_PAR (R215). -/
def TILE.SPD_EVT_TAG_PAR (u : Nat) : Fld := ⟨(0x100 + u) * 4096 + 0x210, 8, 1⟩
/-- TILE.SPD_CONF_INFO (R215). -/
def TILE.SPD_CONF_INFO (u : Nat) : Fld := ⟨(0x100 + u) * 4096 + 0x214, 0, 32⟩
/-- TILE.SPD_CONF_INFO.BANK (R215). -/
def TILE.SPD_CONF_INFO_BANK (u : Nat) : Fld := ⟨(0x100 + u) * 4096 + 0x214, 0, 5⟩
/-- TILE.SPD_CONF_INFO.WINNER (R215). -/
def TILE.SPD_CONF_INFO_WINNER (u : Nat) : Fld := ⟨(0x100 + u) * 4096 + 0x214, 8, 3⟩
/-- TILE.SPD_CONF_INFO.LOSER (R215). -/
def TILE.SPD_CONF_INFO_LOSER (u : Nat) : Fld := ⟨(0x100 + u) * 4096 + 0x214, 12, 3⟩
/-- TILE.SPD_CONF_INFO.VALID (R215). -/
def TILE.SPD_CONF_INFO_VALID (u : Nat) : Fld := ⟨(0x100 + u) * 4096 + 0x214, 31, 1⟩
/-- TILE.SPD_ECC_INFO (R215). -/
def TILE.SPD_ECC_INFO (u : Nat) : Fld := ⟨(0x100 + u) * 4096 + 0x218, 0, 32⟩
/-- TILE.SPD_ECC_INFO.ADDR (R215). -/
def TILE.SPD_ECC_INFO_ADDR (u : Nat) : Fld := ⟨(0x100 + u) * 4096 + 0x218, 0, 22⟩
/-- TILE.SPD_ECC_INFO.UE (R215). -/
def TILE.SPD_ECC_INFO_UE (u : Nat) : Fld := ⟨(0x100 + u) * 4096 + 0x218, 30, 1⟩
/-- TILE.SPD_ECC_INFO.VALID (R215). -/
def TILE.SPD_ECC_INFO_VALID (u : Nat) : Fld := ⟨(0x100 + u) * 4096 + 0x218, 31, 1⟩
/-- TILE.SPD_TAG_INFO (R215). -/
def TILE.SPD_TAG_INFO (u : Nat) : Fld := ⟨(0x100 + u) * 4096 + 0x21C, 0, 32⟩
/-- TILE.SPD_TAG_INFO.LINE (R215). -/
def TILE.SPD_TAG_INFO_LINE (u : Nat) : Fld := ⟨(0x100 + u) * 4096 + 0x21C, 0, 13⟩
/-- TILE.SPD_TAG_INFO.WAIT (R215). -/
def TILE.SPD_TAG_INFO_WAIT (u : Nat) : Fld := ⟨(0x100 + u) * 4096 + 0x21C, 16, 2⟩
/-- TILE.SPD_TAG_INFO.PORT (R215). -/
def TILE.SPD_TAG_INFO_PORT (u : Nat) : Fld := ⟨(0x100 + u) * 4096 + 0x21C, 24, 3⟩
/-- TILE.SPD_TAG_INFO.VALID (R215). -/
def TILE.SPD_TAG_INFO_VALID (u : Nat) : Fld := ⟨(0x100 + u) * 4096 + 0x21C, 31, 1⟩
/-- TILE.SPD_WIN_INFO (R215). -/
def TILE.SPD_WIN_INFO (u : Nat) : Fld := ⟨(0x100 + u) * 4096 + 0x220, 0, 32⟩
/-- TILE.SPD_WIN_INFO.SRC (R215). -/
def TILE.SPD_WIN_INFO_SRC (u : Nat) : Fld := ⟨(0x100 + u) * 4096 + 0x220, 0, 7⟩
/-- TILE.SPD_WIN_INFO.WIN (R215). -/
def TILE.SPD_WIN_INFO_WIN (u : Nat) : Fld := ⟨(0x100 + u) * 4096 + 0x220, 8, 3⟩
/-- TILE.SPD_WIN_INFO.REASON (R215). -/
def TILE.SPD_WIN_INFO_REASON (u : Nat) : Fld := ⟨(0x100 + u) * 4096 + 0x220, 12, 3⟩
/-- TILE.SPD_WIN_INFO.VALID (R215). -/
def TILE.SPD_WIN_INFO_VALID (u : Nat) : Fld := ⟨(0x100 + u) * 4096 + 0x220, 31, 1⟩
/-- TILE.SPD_WIN_OFS (R215). -/
def TILE.SPD_WIN_OFS (u : Nat) : Fld := ⟨(0x100 + u) * 4096 + 0x224, 0, 32⟩
/-- TILE.SPD_WIN_OFS.OFS (R215). -/
def TILE.SPD_WIN_OFS_OFS (u : Nat) : Fld := ⟨(0x100 + u) * 4096 + 0x224, 0, 23⟩
/-- TILE.SPD_CONFLICT_CNT (R215). -/
def TILE.SPD_CONFLICT_CNT (u : Nat) : Fld := ⟨(0x100 + u) * 4096 + 0x228, 0, 32⟩
/-- TILE.SPD_CE_CNT (R215). -/
def TILE.SPD_CE_CNT (u : Nat) : Fld := ⟨(0x100 + u) * 4096 + 0x22C, 0, 32⟩
/-- TILE.SPD_WIN_REJ_CNT (R215). -/
def TILE.SPD_WIN_REJ_CNT (u : Nat) : Fld := ⟨(0x100 + u) * 4096 + 0x230, 0, 32⟩
/-- TILE.SPD_SCRUB_FORCE_CNT (R215). -/
def TILE.SPD_SCRUB_FORCE_CNT (u : Nat) : Fld := ⟨(0x100 + u) * 4096 + 0x234, 0, 32⟩
/-- TILE.SPD_SCRUB_SWEEP_CNT (R215). -/
def TILE.SPD_SCRUB_SWEEP_CNT (u : Nat) : Fld := ⟨(0x100 + u) * 4096 + 0x238, 0, 32⟩
/-- RING[r].BASE (R216). -/
def RING.BASE (u r : Nat) : Fld := ⟨(0x100 + u) * 4096 + 0x300 + 32 * r, 0, 32⟩
/-- RING[r].BASE.ADDR (R216). -/
def RING.BASE_ADDR (u r : Nat) : Fld := ⟨(0x100 + u) * 4096 + 0x300 + 32 * r, 0, 22⟩
/-- RING[r].SIZE (R216). -/
def RING.SIZE (u r : Nat) : Fld := ⟨(0x100 + u) * 4096 + 0x304 + 32 * r, 0, 32⟩
/-- RING[r].SIZE.LINES (R216). -/
def RING.SIZE_LINES (u r : Nat) : Fld := ⟨(0x100 + u) * 4096 + 0x304 + 32 * r, 0, 13⟩
/-- RING[r].HEAD_PTR (R216). -/
def RING.HEAD_PTR (u r : Nat) : Fld := ⟨(0x100 + u) * 4096 + 0x308 + 32 * r, 0, 32⟩
/-- RING[r].HEAD_PTR.IDX (R216). -/
def RING.HEAD_PTR_IDX (u r : Nat) : Fld := ⟨(0x100 + u) * 4096 + 0x308 + 32 * r, 0, 13⟩
/-- RING[r].HEAD_PTR.WRAP (R216). -/
def RING.HEAD_PTR_WRAP (u r : Nat) : Fld := ⟨(0x100 + u) * 4096 + 0x308 + 32 * r, 15, 1⟩
/-- RING[r].TAIL_PTR (R216). -/
def RING.TAIL_PTR (u r : Nat) : Fld := ⟨(0x100 + u) * 4096 + 0x30C + 32 * r, 0, 32⟩
/-- RING[r].TAIL_PTR.PTR (R216). -/
def RING.TAIL_PTR_PTR (u r : Nat) : Fld := ⟨(0x100 + u) * 4096 + 0x30C + 32 * r, 0, 16⟩
/-- RING[r].CFG (R216). -/
def RING.CFG (u r : Nat) : Fld := ⟨(0x100 + u) * 4096 + 0x310 + 32 * r, 0, 32⟩
/-- RING[r].CFG.EN (R216). -/
def RING.CFG_EN (u r : Nat) : Fld := ⟨(0x100 + u) * 4096 + 0x310 + 32 * r, 0, 1⟩
/-- RING[r].CFG.PART (R216). -/
def RING.CFG_PART (u r : Nat) : Fld := ⟨(0x100 + u) * 4096 + 0x310 + 32 * r, 4, 2⟩
/-- RING[r].CFG.PER_COL (R216). -/
def RING.CFG_PER_COL (u r : Nat) : Fld := ⟨(0x100 + u) * 4096 + 0x310 + 32 * r, 16, 12⟩
/-- RING[r].MAX_OCC (R216). -/
def RING.MAX_OCC (u r : Nat) : Fld := ⟨(0x100 + u) * 4096 + 0x314 + 32 * r, 0, 32⟩
/-- RING[r].MAX_OCC.LINES (R216). -/
def RING.MAX_OCC_LINES (u r : Nat) : Fld := ⟨(0x100 + u) * 4096 + 0x314 + 32 * r, 0, 13⟩
/-- RING[r].EVT_CNT (R216). -/
def RING.EVT_CNT (u r : Nat) : Fld := ⟨(0x100 + u) * 4096 + 0x318 + 32 * r, 0, 32⟩
/-- WIN[w].BASE (R217). -/
def WIN.BASE (u w : Nat) : Fld := ⟨(0x100 + u) * 4096 + 0x380 + 16 * w, 0, 32⟩
/-- WIN[w].BASE.ADDR (R217). -/
def WIN.BASE_ADDR (u w : Nat) : Fld := ⟨(0x100 + u) * 4096 + 0x380 + 16 * w, 0, 22⟩
/-- WIN[w].LEN (R217). -/
def WIN.LEN (u w : Nat) : Fld := ⟨(0x100 + u) * 4096 + 0x384 + 16 * w, 0, 32⟩
/-- WIN[w].LEN.BYTES (R217). -/
def WIN.LEN_BYTES (u w : Nat) : Fld := ⟨(0x100 + u) * 4096 + 0x384 + 16 * w, 0, 23⟩
/-- WIN[w].SRC (R217). -/
def WIN.SRC (u w : Nat) : Fld := ⟨(0x100 + u) * 4096 + 0x388 + 16 * w, 0, 32⟩
/-- WIN[w].SRC.FIRST (R217). -/
def WIN.SRC_FIRST (u w : Nat) : Fld := ⟨(0x100 + u) * 4096 + 0x388 + 16 * w, 0, 7⟩
/-- WIN[w].SRC.LAST (R217). -/
def WIN.SRC_LAST (u w : Nat) : Fld := ⟨(0x100 + u) * 4096 + 0x388 + 16 * w, 8, 7⟩
/-- WIN[w].SRC.TILES (R217). -/
def WIN.SRC_TILES (u w : Nat) : Fld := ⟨(0x100 + u) * 4096 + 0x388 + 16 * w, 15, 1⟩
/-- WIN[w].SRC.PARTNER (R217). -/
def WIN.SRC_PARTNER (u w : Nat) : Fld := ⟨(0x100 + u) * 4096 + 0x388 + 16 * w, 16, 1⟩
/-- WIN[w].ATTR (R217). -/
def WIN.ATTR (u w : Nat) : Fld := ⟨(0x100 + u) * 4096 + 0x38C + 16 * w, 0, 32⟩
/-- WIN[w].ATTR.EN (R217). -/
def WIN.ATTR_EN (u w : Nat) : Fld := ⟨(0x100 + u) * 4096 + 0x38C + 16 * w, 0, 1⟩
/-- WIN[w].ATTR.PARTS (R217). -/
def WIN.ATTR_PARTS (u w : Nat) : Fld := ⟨(0x100 + u) * 4096 + 0x38C + 16 * w, 8, 4⟩
/-- WIN[w].ATTR.TAGM (R217). -/
def WIN.ATTR_TAGM (u w : Nat) : Fld := ⟨(0x100 + u) * 4096 + 0x38C + 16 * w, 12, 2⟩
/-- HDL[i].BASE (R218). -/
def HDL.BASE (u i : Nat) : Fld := ⟨(0x100 + u) * 4096 + 0x400 + 16 * i, 0, 32⟩
/-- HDL[i].BASE.ADDR (R218). -/
def HDL.BASE_ADDR (u i : Nat) : Fld := ⟨(0x100 + u) * 4096 + 0x400 + 16 * i, 0, 22⟩
/-- HDL[i].LEN (R218). -/
def HDL.LEN (u i : Nat) : Fld := ⟨(0x100 + u) * 4096 + 0x404 + 16 * i, 0, 32⟩
/-- HDL[i].LEN.BYTES (R218). -/
def HDL.LEN_BYTES (u i : Nat) : Fld := ⟨(0x100 + u) * 4096 + 0x404 + 16 * i, 0, 23⟩
/-- HDL[i].ATTR (R218). -/
def HDL.ATTR (u i : Nat) : Fld := ⟨(0x100 + u) * 4096 + 0x408 + 16 * i, 0, 32⟩
/-- HDL[i].ATTR.VALID (R218). -/
def HDL.ATTR_VALID (u i : Nat) : Fld := ⟨(0x100 + u) * 4096 + 0x408 + 16 * i, 0, 1⟩
/-- HDL[i].ATTR.VIEW (R218). -/
def HDL.ATTR_VIEW (u i : Nat) : Fld := ⟨(0x100 + u) * 4096 + 0x408 + 16 * i, 1, 1⟩
/-- HDL[i].ATTR.FMT (R218). -/
def HDL.ATTR_FMT (u i : Nat) : Fld := ⟨(0x100 + u) * 4096 + 0x408 + 16 * i, 4, 4⟩
/-- HDL[i].ATTR.PARTS (R218). -/
def HDL.ATTR_PARTS (u i : Nat) : Fld := ⟨(0x100 + u) * 4096 + 0x408 + 16 * i, 8, 4⟩
/-- HDL[i].ATTR.TAGM (R218). -/
def HDL.ATTR_TAGM (u i : Nat) : Fld := ⟨(0x100 + u) * 4096 + 0x408 + 16 * i, 12, 2⟩
/-- HDL[i].ATTR.RREL (R218). -/
def HDL.ATTR_RREL (u i : Nat) : Fld := ⟨(0x100 + u) * 4096 + 0x408 + 16 * i, 14, 2⟩
/-- HDL[i].ATTR.RNUM (R218). -/
def HDL.ATTR_RNUM (u i : Nat) : Fld := ⟨(0x100 + u) * 4096 + 0x408 + 16 * i, 16, 2⟩
/-- MAP.CTRL (R282). -/
def MAP.CTRL (u : Nat) : Fld := ⟨(0x02A + u) * 4096 + 0x040, 0, 32⟩
/-- MAP.CTRL.IDX_MODE (R282). -/
def MAP.CTRL_IDX_MODE (u : Nat) : Fld := ⟨(0x02A + u) * 4096 + 0x040, 0, 1⟩
/-- MAP.CTRL.UPD_EN (R282). -/
def MAP.CTRL_UPD_EN (u : Nat) : Fld := ⟨(0x02A + u) * 4096 + 0x040, 1, 1⟩
/-- MAP.CTRL.CACHE_PERIOD (R282). -/
def MAP.CTRL_CACHE_PERIOD (u : Nat) : Fld := ⟨(0x02A + u) * 4096 + 0x040, 8, 8⟩
/-- MAP.COMMIT (R282). -/
def MAP.COMMIT (u : Nat) : Fld := ⟨(0x02A + u) * 4096 + 0x044, 0, 32⟩
/-- MAP.COMMIT.LEVELS (R282). -/
def MAP.COMMIT_LEVELS (u : Nat) : Fld := ⟨(0x02A + u) * 4096 + 0x044, 0, 16⟩
/-- MAP.STAT (R282). -/
def MAP.STAT (u : Nat) : Fld := ⟨(0x02A + u) * 4096 + 0x048, 0, 32⟩
/-- MAP.STAT.ACTIVE (R282). -/
def MAP.STAT_ACTIVE (u : Nat) : Fld := ⟨(0x02A + u) * 4096 + 0x048, 0, 16⟩
/-- MAP.STAT.EMPTY (R282). -/
def MAP.STAT_EMPTY (u : Nat) : Fld := ⟨(0x02A + u) * 4096 + 0x048, 16, 16⟩
/-- MAP.BUSY (R282). -/
def MAP.BUSY (u : Nat) : Fld := ⟨(0x02A + u) * 4096 + 0x04C, 0, 32⟩
/-- MAP.BUSY.SLOT0 (R282). -/
def MAP.BUSY_SLOT0 (u : Nat) : Fld := ⟨(0x02A + u) * 4096 + 0x04C, 0, 16⟩
/-- MAP.BUSY.SLOT1 (R282). -/
def MAP.BUSY_SLOT1 (u : Nat) : Fld := ⟨(0x02A + u) * 4096 + 0x04C, 16, 16⟩
/-- MAP.EVT (R282). -/
def MAP.EVT (u : Nat) : Fld := ⟨(0x02A + u) * 4096 + 0x050, 0, 32⟩
/-- MAP.EVT.COMMIT_DONE (R282). -/
def MAP.EVT_COMMIT_DONE (u : Nat) : Fld := ⟨(0x02A + u) * 4096 + 0x050, 0, 1⟩
/-- MAP.EVT.COMMIT_WAIT (R282). -/
def MAP.EVT_COMMIT_WAIT (u : Nat) : Fld := ⟨(0x02A + u) * 4096 + 0x050, 1, 1⟩
/-- MAP.EVT.UPD_DISC (R282). -/
def MAP.EVT_UPD_DISC (u : Nat) : Fld := ⟨(0x02A + u) * 4096 + 0x050, 2, 1⟩
/-- MAP.EVT.MUB_FULL (R282). -/
def MAP.EVT_MUB_FULL (u : Nat) : Fld := ⟨(0x02A + u) * 4096 + 0x050, 3, 1⟩
/-- MAP.EVT.SLOT_REJ (R282). -/
def MAP.EVT_SLOT_REJ (u : Nat) : Fld := ⟨(0x02A + u) * 4096 + 0x050, 4, 1⟩
/-- MAP.EVT.BAD_ROW (R282). -/
def MAP.EVT_BAD_ROW (u : Nat) : Fld := ⟨(0x02A + u) * 4096 + 0x050, 5, 1⟩
/-- MAP.EVT.LEVEL_OFF (R282). -/
def MAP.EVT_LEVEL_OFF (u : Nat) : Fld := ⟨(0x02A + u) * 4096 + 0x050, 6, 1⟩
/-- MAP.EVT.CKS_MISMATCH (R282). -/
def MAP.EVT_CKS_MISMATCH (u : Nat) : Fld := ⟨(0x02A + u) * 4096 + 0x050, 7, 1⟩
/-- MAP.EVT.VER_MISMATCH (R282). -/
def MAP.EVT_VER_MISMATCH (u : Nat) : Fld := ⟨(0x02A + u) * 4096 + 0x050, 8, 1⟩
/-- MAP.EVT.OWNER_CONFLICT (R282). -/
def MAP.EVT_OWNER_CONFLICT (u : Nat) : Fld := ⟨(0x02A + u) * 4096 + 0x050, 9, 1⟩
/-- MAP.EVT.RESYNC (R282). -/
def MAP.EVT_RESYNC (u : Nat) : Fld := ⟨(0x02A + u) * 4096 + 0x050, 10, 1⟩
/-- MAP.EVT.REMAP_FULL (R282). -/
def MAP.EVT_REMAP_FULL (u : Nat) : Fld := ⟨(0x02A + u) * 4096 + 0x050, 11, 1⟩
/-- MAP.EVT.UPD_WAIT (R282). -/
def MAP.EVT_UPD_WAIT (u : Nat) : Fld := ⟨(0x02A + u) * 4096 + 0x050, 12, 1⟩
/-- MAP.EPOCH (R282). -/
def MAP.EPOCH (u : Nat) : Fld := ⟨(0x02A + u) * 4096 + 0x054, 0, 32⟩
/-- MAP.EPOCH.EPOCH (R282). -/
def MAP.EPOCH_EPOCH (u : Nat) : Fld := ⟨(0x02A + u) * 4096 + 0x054, 0, 32⟩
/-- MAP.STAGES (R282). -/
def MAP.STAGES (u : Nat) : Fld := ⟨(0x02A + u) * 4096 + 0x058, 0, 32⟩
/-- MAP.STAGES.LOOK_LAST (R282). -/
def MAP.STAGES_LOOK_LAST (u : Nat) : Fld := ⟨(0x02A + u) * 4096 + 0x058, 0, 5⟩
/-- MAP.STAGES.UPD (R282). -/
def MAP.STAGES_UPD (u : Nat) : Fld := ⟨(0x02A + u) * 4096 + 0x058, 8, 5⟩
/-- MAP.STAGES.UPD_VALID (R282). -/
def MAP.STAGES_UPD_VALID (u : Nat) : Fld := ⟨(0x02A + u) * 4096 + 0x058, 15, 1⟩
/-- MAP.PAIR (R282). -/
def MAP.PAIR (u : Nat) : Fld := ⟨(0x02A + u) * 4096 + 0x05C, 0, 32⟩
/-- MAP.PAIR.OWNER_SEL (R282). -/
def MAP.PAIR_OWNER_SEL (u : Nat) : Fld := ⟨(0x02A + u) * 4096 + 0x05C, 0, 1⟩
/-- MAP.PAIR.SCAN_BLOCKS (R282). -/
def MAP.PAIR_SCAN_BLOCKS (u : Nat) : Fld := ⟨(0x02A + u) * 4096 + 0x05C, 8, 8⟩
/-- MAP.SPARE (R282). -/
def MAP.SPARE (u : Nat) : Fld := ⟨(0x02A + u) * 4096 + 0x060, 0, 32⟩
/-- MAP.SPARE.UNIT (R282). -/
def MAP.SPARE_UNIT (u : Nat) : Fld := ⟨(0x02A + u) * 4096 + 0x060, 0, 18⟩
/-- MAP.SPARE_N (R282). -/
def MAP.SPARE_N (u : Nat) : Fld := ⟨(0x02A + u) * 4096 + 0x064, 0, 32⟩
/-- MAP.SPARE_N.UNITS (R282). -/
def MAP.SPARE_N_UNITS (u : Nat) : Fld := ⟨(0x02A + u) * 4096 + 0x064, 0, 18⟩
/-- MAP.MIG (R282). -/
def MAP.MIG (u : Nat) : Fld := ⟨(0x02A + u) * 4096 + 0x068, 0, 32⟩
/-- MAP.MIG.UNITS (R282). -/
def MAP.MIG_UNITS (u : Nat) : Fld := ⟨(0x02A + u) * 4096 + 0x068, 0, 16⟩
/-- MAP.ORIGIN[i].LO (R282). -/
def MAP.ORIGIN_LO (u i : Nat) : Fld := ⟨(0x02A + u) * 4096 + 0x070 + 8 * i, 0, 32⟩
/-- MAP.ORIGIN[i].LO.LO (R282). -/
def MAP.ORIGIN_LO_LO (u i : Nat) : Fld := ⟨(0x02A + u) * 4096 + 0x070 + 8 * i, 0, 32⟩
/-- MAP.ORIGIN[i].HI (R282). -/
def MAP.ORIGIN_HI (u i : Nat) : Fld := ⟨(0x02A + u) * 4096 + 0x074 + 8 * i, 0, 32⟩
/-- MAP.ORIGIN[i].HI.HI (R282). -/
def MAP.ORIGIN_HI_HI (u i : Nat) : Fld := ⟨(0x02A + u) * 4096 + 0x074 + 8 * i, 0, 16⟩
/-- MAP.RESYNC_CNT (R282). -/
def MAP.RESYNC_CNT (u : Nat) : Fld := ⟨(0x02A + u) * 4096 + 0x090, 0, 32⟩
/-- MAP.CKS_MISMATCH_CNT (R282). -/
def MAP.CKS_MISMATCH_CNT (u : Nat) : Fld := ⟨(0x02A + u) * 4096 + 0x094, 0, 32⟩
/-- MAP.CNT_CLR (R282). -/
def MAP.CNT_CLR (u : Nat) : Fld := ⟨(0x02A + u) * 4096 + 0x098, 0, 32⟩
/-- MAP.CNT_CLR.CLR (R282). -/
def MAP.CNT_CLR_CLR (u : Nat) : Fld := ⟨(0x02A + u) * 4096 + 0x098, 0, 1⟩
/-- MAP.LVL[l].CFG (R282). -/
def MAP.LVL_CFG (u l : Nat) : Fld := ⟨(0x02A + u) * 4096 + 0x100 + 32 * l, 0, 32⟩
/-- MAP.LVL[l].CFG.RLOG (R282). -/
def MAP.LVL_CFG_RLOG (u l : Nat) : Fld := ⟨(0x02A + u) * 4096 + 0x100 + 32 * l, 0, 5⟩
/-- MAP.LVL[l].CFG.MLOG (R282). -/
def MAP.LVL_CFG_MLOG (u l : Nat) : Fld := ⟨(0x02A + u) * 4096 + 0x100 + 32 * l, 8, 5⟩
/-- MAP.LVL[l].CFG.F8 (R282). -/
def MAP.LVL_CFG_F8 (u l : Nat) : Fld := ⟨(0x02A + u) * 4096 + 0x100 + 32 * l, 16, 4⟩
/-- MAP.LVL[l].CFG.FMT (R282). -/
def MAP.LVL_CFG_FMT (u l : Nat) : Fld := ⟨(0x02A + u) * 4096 + 0x100 + 32 * l, 20, 1⟩
/-- MAP.LVL[l].CFG.COMPOSE (R282). -/
def MAP.LVL_CFG_COMPOSE (u l : Nat) : Fld := ⟨(0x02A + u) * 4096 + 0x100 + 32 * l, 21, 1⟩
/-- MAP.LVL[l].CFG.EN (R282). -/
def MAP.LVL_CFG_EN (u l : Nat) : Fld := ⟨(0x02A + u) * 4096 + 0x100 + 32 * l, 31, 1⟩
/-- MAP.LVL[l].EXT (R282). -/
def MAP.LVL_EXT (u l : Nat) : Fld := ⟨(0x02A + u) * 4096 + 0x104 + 32 * l, 0, 32⟩
/-- MAP.LVL[l].EXT.CELLS (R282). -/
def MAP.LVL_EXT_CELLS (u l : Nat) : Fld := ⟨(0x02A + u) * 4096 + 0x104 + 32 * l, 0, 21⟩
/-- MAP.LVL[l].BASE0 (R282). -/
def MAP.LVL_BASE0 (u l : Nat) : Fld := ⟨(0x02A + u) * 4096 + 0x108 + 32 * l, 0, 32⟩
/-- MAP.LVL[l].BASE0.UNIT (R282). -/
def MAP.LVL_BASE0_UNIT (u l : Nat) : Fld := ⟨(0x02A + u) * 4096 + 0x108 + 32 * l, 0, 18⟩
/-- MAP.LVL[l].BASE1 (R282). -/
def MAP.LVL_BASE1 (u l : Nat) : Fld := ⟨(0x02A + u) * 4096 + 0x10C + 32 * l, 0, 32⟩
/-- MAP.LVL[l].BASE1.UNIT (R282). -/
def MAP.LVL_BASE1_UNIT (u l : Nat) : Fld := ⟨(0x02A + u) * 4096 + 0x10C + 32 * l, 0, 18⟩
/-- MAP.LVL[l].SERIAL (R282). -/
def MAP.LVL_SERIAL (u l : Nat) : Fld := ⟨(0x02A + u) * 4096 + 0x110 + 32 * l, 0, 32⟩
/-- MAP.LVL[l].SERIAL.SERIAL (R282). -/
def MAP.LVL_SERIAL_SERIAL (u l : Nat) : Fld := ⟨(0x02A + u) * 4096 + 0x110 + 32 * l, 0, 32⟩
/-- TGE.STAT (R283). -/
def TGE.STAT (u : Nat) : Fld := ⟨(0x028 + u) * 4096 + 0x040, 0, 32⟩
/-- TGE.STAT.OUTST (R283). -/
def TGE.STAT_OUTST (u : Nat) : Fld := ⟨(0x028 + u) * 4096 + 0x040, 0, 10⟩
/-- TGE.STAT.APPLY (R283). -/
def TGE.STAT_APPLY (u : Nat) : Fld := ⟨(0x028 + u) * 4096 + 0x040, 16, 1⟩
/-- TGE.STAT.SHADOW (R283). -/
def TGE.STAT_SHADOW (u : Nat) : Fld := ⟨(0x028 + u) * 4096 + 0x040, 17, 1⟩
/-- TGE.STAT.REFRESH (R283). -/
def TGE.STAT_REFRESH (u : Nat) : Fld := ⟨(0x028 + u) * 4096 + 0x040, 18, 1⟩
/-- TGE.STAT.MIGRATE (R283). -/
def TGE.STAT_MIGRATE (u : Nat) : Fld := ⟨(0x028 + u) * 4096 + 0x040, 19, 1⟩
/-- TGE.EVT (R283). -/
def TGE.EVT (u : Nat) : Fld := ⟨(0x028 + u) * 4096 + 0x044, 0, 32⟩
/-- TGE.EVT.MAP_UE (R283). -/
def TGE.EVT_MAP_UE (u : Nat) : Fld := ⟨(0x028 + u) * 4096 + 0x044, 0, 1⟩
/-- TGE.EVT.CACHE_CE (R283). -/
def TGE.EVT_CACHE_CE (u : Nat) : Fld := ⟨(0x028 + u) * 4096 + 0x044, 1, 1⟩
/-- TGE.EVT.CACHE_UE (R283). -/
def TGE.EVT_CACHE_UE (u : Nat) : Fld := ⟨(0x028 + u) * 4096 + 0x044, 2, 1⟩
/-- TGE.EVT.MUB_CE (R283). -/
def TGE.EVT_MUB_CE (u : Nat) : Fld := ⟨(0x028 + u) * 4096 + 0x044, 3, 1⟩
/-- TGE.EVT.MUB_UE (R283). -/
def TGE.EVT_MUB_UE (u : Nat) : Fld := ⟨(0x028 + u) * 4096 + 0x044, 4, 1⟩
/-- TGE.EVT.REMAP_CE (R283). -/
def TGE.EVT_REMAP_CE (u : Nat) : Fld := ⟨(0x028 + u) * 4096 + 0x044, 5, 1⟩
/-- TGE.EVT.BADROW_HIT (R283). -/
def TGE.EVT_BADROW_HIT (u : Nat) : Fld := ⟨(0x028 + u) * 4096 + 0x044, 6, 1⟩
/-- TGE.EVT.IDX_DROP (R283). -/
def TGE.EVT_IDX_DROP (u : Nat) : Fld := ⟨(0x028 + u) * 4096 + 0x044, 7, 1⟩
/-- TGE.CACHE_OCC (R283). -/
def TGE.CACHE_OCC (u : Nat) : Fld := ⟨(0x028 + u) * 4096 + 0x048, 0, 32⟩
/-- TGE.CACHE_OCC.ENTRIES (R283). -/
def TGE.CACHE_OCC_ENTRIES (u : Nat) : Fld := ⟨(0x028 + u) * 4096 + 0x048, 0, 17⟩
/-- TGE.REMAP_OCC (R283). -/
def TGE.REMAP_OCC (u : Nat) : Fld := ⟨(0x028 + u) * 4096 + 0x04C, 0, 32⟩
/-- TGE.REMAP_OCC.ENTRIES (R283). -/
def TGE.REMAP_OCC_ENTRIES (u : Nat) : Fld := ⟨(0x028 + u) * 4096 + 0x04C, 0, 17⟩
/-- TGE.LOOKUP_CNT (R283). -/
def TGE.LOOKUP_CNT (u : Nat) : Fld := ⟨(0x028 + u) * 4096 + 0x050, 0, 32⟩
/-- TGE.COALESCE_CNT (R283). -/
def TGE.COALESCE_CNT (u : Nat) : Fld := ⟨(0x028 + u) * 4096 + 0x054, 0, 32⟩
/-- TGE.CACHE_HIT_CNT (R283). -/
def TGE.CACHE_HIT_CNT (u : Nat) : Fld := ⟨(0x028 + u) * 4096 + 0x058, 0, 32⟩
/-- TGE.DRAM_READ_CNT (R283). -/
def TGE.DRAM_READ_CNT (u : Nat) : Fld := ⟨(0x028 + u) * 4096 + 0x05C, 0, 32⟩
/-- TGE.INVALID_CNT (R283). -/
def TGE.INVALID_CNT (u : Nat) : Fld := ⟨(0x028 + u) * 4096 + 0x060, 0, 32⟩
/-- TGE.IDX_DROP_CNT (R283). -/
def TGE.IDX_DROP_CNT (u : Nat) : Fld := ⟨(0x028 + u) * 4096 + 0x064, 0, 32⟩
/-- TGE.EMPTY_CNT (R283). -/
def TGE.EMPTY_CNT (u : Nat) : Fld := ⟨(0x028 + u) * 4096 + 0x068, 0, 32⟩
/-- TGE.MUB_DROP_CNT (R283). -/
def TGE.MUB_DROP_CNT (u : Nat) : Fld := ⟨(0x028 + u) * 4096 + 0x06C, 0, 32⟩
/-- TGE.UPD_INV_CNT (R283). -/
def TGE.UPD_INV_CNT (u : Nat) : Fld := ⟨(0x028 + u) * 4096 + 0x070, 0, 32⟩
/-- TGE.UPD_DISC_CNT (R283). -/
def TGE.UPD_DISC_CNT (u : Nat) : Fld := ⟨(0x028 + u) * 4096 + 0x074, 0, 32⟩
/-- TGE.BADROW_HIT_CNT (R283). -/
def TGE.BADROW_HIT_CNT (u : Nat) : Fld := ⟨(0x028 + u) * 4096 + 0x078, 0, 32⟩
/-- TGE.MIGRATE_CNT (R283). -/
def TGE.MIGRATE_CNT (u : Nat) : Fld := ⟨(0x028 + u) * 4096 + 0x07C, 0, 32⟩
/-- TGE.ECC_CE_CNT (R283). -/
def TGE.ECC_CE_CNT (u : Nat) : Fld := ⟨(0x028 + u) * 4096 + 0x080, 0, 32⟩
/-- TGE.CNT_CLR (R283). -/
def TGE.CNT_CLR (u : Nat) : Fld := ⟨(0x028 + u) * 4096 + 0x084, 0, 32⟩
/-- TGE.CNT_CLR.CLR (R283). -/
def TGE.CNT_CLR_CLR (u : Nat) : Fld := ⟨(0x028 + u) * 4096 + 0x084, 0, 1⟩
/-- TGE.HOT_IDX (R283). -/
def TGE.HOT_IDX (u : Nat) : Fld := ⟨(0x028 + u) * 4096 + 0x0A0, 0, 32⟩
/-- TGE.HOT_IDX.IDX (R283). -/
def TGE.HOT_IDX_IDX (u : Nat) : Fld := ⟨(0x028 + u) * 4096 + 0x0A0, 0, 10⟩
/-- TGE.HOT_KEY (R283). -/
def TGE.HOT_KEY (u : Nat) : Fld := ⟨(0x028 + u) * 4096 + 0x0A4, 0, 32⟩
/-- TGE.HOT_KEY.ROW (R283). -/
def TGE.HOT_KEY_ROW (u : Nat) : Fld := ⟨(0x028 + u) * 4096 + 0x0A4, 0, 22⟩
/-- TGE.HOT_KEY.LEVEL (R283). -/
def TGE.HOT_KEY_LEVEL (u : Nat) : Fld := ⟨(0x028 + u) * 4096 + 0x0A4, 22, 4⟩
/-- TGE.HOT_KEY.SLOT (R283). -/
def TGE.HOT_KEY_SLOT (u : Nat) : Fld := ⟨(0x028 + u) * 4096 + 0x0A4, 26, 1⟩
/-- TGE.HOT_KEY.TABLE (R283). -/
def TGE.HOT_KEY_TABLE (u : Nat) : Fld := ⟨(0x028 + u) * 4096 + 0x0A4, 27, 1⟩
/-- TGE.HOT_KEY.VALID (R283). -/
def TGE.HOT_KEY_VALID (u : Nat) : Fld := ⟨(0x028 + u) * 4096 + 0x0A4, 31, 1⟩
/-- TGE.HOT_CNT (R283). -/
def TGE.HOT_CNT (u : Nat) : Fld := ⟨(0x028 + u) * 4096 + 0x0A8, 0, 32⟩
/-- TGE.BADROW[i].ROW (R283). -/
def TGE.BADROW_ROW (u i : Nat) : Fld := ⟨(0x028 + u) * 4096 + 0x100 + 8 * i, 0, 32⟩
/-- TGE.BADROW[i].ROW.ROW (R283). -/
def TGE.BADROW_ROW_ROW (u i : Nat) : Fld := ⟨(0x028 + u) * 4096 + 0x100 + 8 * i, 0, 22⟩
/-- TGE.BADROW[i].KEY (R283). -/
def TGE.BADROW_KEY (u i : Nat) : Fld := ⟨(0x028 + u) * 4096 + 0x104 + 8 * i, 0, 32⟩
/-- TGE.BADROW[i].KEY.LEVEL (R283). -/
def TGE.BADROW_KEY_LEVEL (u i : Nat) : Fld := ⟨(0x028 + u) * 4096 + 0x104 + 8 * i, 0, 4⟩
/-- TGE.BADROW[i].KEY.SLOT (R283). -/
def TGE.BADROW_KEY_SLOT (u i : Nat) : Fld := ⟨(0x028 + u) * 4096 + 0x104 + 8 * i, 4, 1⟩
/-- TGE.BADROW[i].KEY.TABLE (R283). -/
def TGE.BADROW_KEY_TABLE (u i : Nat) : Fld := ⟨(0x028 + u) * 4096 + 0x104 + 8 * i, 5, 1⟩
/-- TGE.BADROW[i].KEY.VALID (R283). -/
def TGE.BADROW_KEY_VALID (u i : Nat) : Fld := ⟨(0x028 + u) * 4096 + 0x104 + 8 * i, 31, 1⟩
/-- TGE.SHARD_LOAD[s] (R283). -/
def TGE.SHARD_LOAD (u s : Nat) : Fld := ⟨(0x028 + u) * 4096 + 0x200 + 4 * s, 0, 32⟩
/-- OUT.CTRL (R304). -/
def OUT.CTRL : Fld := ⟨0x040040, 0, 32⟩
/-- OUT.CTRL.EN (R304). -/
def OUT.CTRL_EN : Fld := ⟨0x040040, 0, 1⟩
/-- OUT.CTRL.PORT (R304). -/
def OUT.CTRL_PORT : Fld := ⟨0x040040, 1, 2⟩
/-- OUT.CTRL.COL_EN (R304). -/
def OUT.CTRL_COL_EN : Fld := ⟨0x040040, 3, 1⟩
/-- OUT.CTRL.WEDGE_EN (R304). -/
def OUT.CTRL_WEDGE_EN : Fld := ⟨0x040040, 4, 1⟩
/-- OUT.COL_PACK (R304). -/
def OUT.COL_PACK : Fld := ⟨0x040044, 0, 32⟩
/-- OUT.COL_PACK.MAX (R304). -/
def OUT.COL_PACK_MAX : Fld := ⟨0x040044, 0, 4⟩
/-- OUT.COL_PACK.HOLD_US (R304). -/
def OUT.COL_PACK_HOLD_US : Fld := ⟨0x040044, 8, 8⟩
/-- OUT.MTU (R304). -/
def OUT.MTU : Fld := ⟨0x040048, 0, 32⟩
/-- OUT.MTU.BYTES (R304). -/
def OUT.MTU_BYTES : Fld := ⟨0x040048, 0, 14⟩
/-- OUT.DST[p].ADDR (R304). -/
def OUT.DST_ADDR (p : Nat) : Fld := ⟨0x040 * 4096 + 0x050 + 8 * p, 0, 32⟩
/-- OUT.DST[p].PORTS (R304). -/
def OUT.DST_PORTS (p : Nat) : Fld := ⟨0x040 * 4096 + 0x054 + 8 * p, 0, 32⟩
/-- OUT.DST[p].PORTS.COL_UDP (R304). -/
def OUT.DST_PORTS_COL_UDP (p : Nat) : Fld := ⟨0x040 * 4096 + 0x054 + 8 * p, 0, 16⟩
/-- OUT.DST[p].PORTS.WEDGE_UDP (R304). -/
def OUT.DST_PORTS_WEDGE_UDP (p : Nat) : Fld := ⟨0x040 * 4096 + 0x054 + 8 * p, 16, 16⟩
/-- OUT.STAT (R304). -/
def OUT.STAT : Fld := ⟨0x040060, 0, 32⟩
/-- OUT.STAT.COL_Q (R304). -/
def OUT.STAT_COL_Q : Fld := ⟨0x040060, 0, 11⟩
/-- OUT.STAT.WEDGE_Q (R304). -/
def OUT.STAT_WEDGE_Q : Fld := ⟨0x040060, 16, 8⟩
/-- OUT.STAT.ARP_OK (R304). -/
def OUT.STAT_ARP_OK : Fld := ⟨0x040060, 24, 2⟩
/-- OUT.EVT (R304). -/
def OUT.EVT : Fld := ⟨0x040064, 0, 32⟩
/-- OUT.EVT.COL_QDROP (R304). -/
def OUT.EVT_COL_QDROP : Fld := ⟨0x040064, 0, 1⟩
/-- OUT.EVT.LINK_DROP (R304). -/
def OUT.EVT_LINK_DROP : Fld := ⟨0x040064, 1, 1⟩
/-- OUT.EVT.OBJ_TRUNC (R304). -/
def OUT.EVT_OBJ_TRUNC : Fld := ⟨0x040064, 2, 1⟩
/-- OUT.EVT.BLOCK_ERR (R304). -/
def OUT.EVT_BLOCK_ERR : Fld := ⟨0x040064, 3, 1⟩
/-- OUT.EVT.ARP_DROP (R304). -/
def OUT.EVT_ARP_DROP : Fld := ⟨0x040064, 4, 1⟩
/-- OUT.RESTARTS (R304). -/
def OUT.RESTARTS : Fld := ⟨0x040068, 0, 32⟩
/-- OUT.RESTARTS.COUNT (R304). -/
def OUT.RESTARTS_COUNT : Fld := ⟨0x040068, 0, 8⟩
/-- OUT.COL_SENT_CNT (R304). -/
def OUT.COL_SENT_CNT : Fld := ⟨0x040080, 0, 32⟩
/-- OUT.WEDGE_SENT_CNT (R304). -/
def OUT.WEDGE_SENT_CNT : Fld := ⟨0x040084, 0, 32⟩
/-- OUT.DGRAM_CNT[p] (R304). -/
def OUT.DGRAM_CNT (p : Nat) : Fld := ⟨0x040 * 4096 + 0x088 + 4 * p, 0, 32⟩
/-- OUT.COL_QDROP_CNT (R304). -/
def OUT.COL_QDROP_CNT : Fld := ⟨0x040090, 0, 32⟩
/-- OUT.LINK_DROP_CNT (R304). -/
def OUT.LINK_DROP_CNT : Fld := ⟨0x040094, 0, 32⟩
/-- OUT.OBJ_TRUNC_CNT (R304). -/
def OUT.OBJ_TRUNC_CNT : Fld := ⟨0x040098, 0, 32⟩
/-- OUT.BLOCK_ERR_CNT (R304). -/
def OUT.BLOCK_ERR_CNT : Fld := ⟨0x04009C, 0, 32⟩
/-- OUT.FLUSH_CNT (R304). -/
def OUT.FLUSH_CNT : Fld := ⟨0x0400A0, 0, 32⟩
/-- OUT.ARP_DROP_CNT (R304). -/
def OUT.ARP_DROP_CNT : Fld := ⟨0x0400A8, 0, 32⟩
/-- OUT.CNT_CLR (R304). -/
def OUT.CNT_CLR : Fld := ⟨0x0400A4, 0, 32⟩
/-- OUT.CNT_CLR.CLR (R304). -/
def OUT.CNT_CLR_CLR : Fld := ⟨0x0400A4, 0, 1⟩
/-- AM.CTRL (R305). -/
def AM.CTRL : Fld := ⟨0x038040, 0, 32⟩
/-- AM.CTRL.COL_SUPP (R305). -/
def AM.CTRL_COL_SUPP : Fld := ⟨0x038040, 0, 1⟩
/-- AM.CTRL.WEDGE_SUPP (R305). -/
def AM.CTRL_WEDGE_SUPP : Fld := ⟨0x038040, 1, 1⟩
/-- AM.COL_LIM (R305). -/
def AM.COL_LIM : Fld := ⟨0x038044, 0, 32⟩
/-- AM.COL_LIM.US (R305). -/
def AM.COL_LIM_US : Fld := ⟨0x038044, 0, 16⟩
/-- AM.WEDGE_LIM (R305). -/
def AM.WEDGE_LIM : Fld := ⟨0x038048, 0, 32⟩
/-- AM.WEDGE_LIM.US (R305). -/
def AM.WEDGE_LIM_US : Fld := ⟨0x038048, 0, 16⟩
/-- AM.COL_MISS (R305). -/
def AM.COL_MISS : Fld := ⟨0x03804C, 0, 32⟩
/-- AM.COL_MISS.US (R305). -/
def AM.COL_MISS_US : Fld := ⟨0x03804C, 0, 16⟩
/-- AM.WEDGE_MISS (R305). -/
def AM.WEDGE_MISS : Fld := ⟨0x038050, 0, 32⟩
/-- AM.WEDGE_MISS.US (R305). -/
def AM.WEDGE_MISS_US : Fld := ⟨0x038050, 0, 16⟩
/-- AM.EVT (R305). -/
def AM.EVT : Fld := ⟨0x038054, 0, 32⟩
/-- AM.EVT.COL_STALE (R305). -/
def AM.EVT_COL_STALE : Fld := ⟨0x038054, 0, 1⟩
/-- AM.EVT.COL_MISSED (R305). -/
def AM.EVT_COL_MISSED : Fld := ⟨0x038054, 1, 1⟩
/-- AM.EVT.WEDGE_STALE (R305). -/
def AM.EVT_WEDGE_STALE : Fld := ⟨0x038054, 2, 1⟩
/-- AM.EVT.WEDGE_MISSED (R305). -/
def AM.EVT_WEDGE_MISSED : Fld := ⟨0x038054, 3, 1⟩
/-- AM.LAST_MISS (R305). -/
def AM.LAST_MISS : Fld := ⟨0x038058, 0, 32⟩
/-- AM.LAST_MISS.COLUMN (R305). -/
def AM.LAST_MISS_COLUMN : Fld := ⟨0x038058, 0, 13⟩
/-- AM.LAST_MISS.SLOT (R305). -/
def AM.LAST_MISS_SLOT : Fld := ⟨0x038058, 13, 3⟩
/-- AM.LAST_MISS.WEDGE (R305). -/
def AM.LAST_MISS_WEDGE : Fld := ⟨0x038058, 16, 6⟩
/-- AM.LAST_MISS.KIND (R305). -/
def AM.LAST_MISS_KIND : Fld := ⟨0x038058, 30, 1⟩
/-- AM.LAST_MISS.VALID (R305). -/
def AM.LAST_MISS_VALID : Fld := ⟨0x038058, 31, 1⟩
/-- AM.MAX_COL_AGE (R305). -/
def AM.MAX_COL_AGE : Fld := ⟨0x03805C, 0, 32⟩
/-- AM.MAX_COL_AGE.AGE (R305). -/
def AM.MAX_COL_AGE_AGE : Fld := ⟨0x03805C, 0, 20⟩
/-- AM.MAX_WEDGE_AGE (R305). -/
def AM.MAX_WEDGE_AGE : Fld := ⟨0x038060, 0, 32⟩
/-- AM.COL_STALE_CNT[k] (R305). -/
def AM.COL_STALE_CNT (k : Nat) : Fld := ⟨0x038 * 4096 + 0x080 + 4 * k, 0, 32⟩
/-- AM.COL_MISS_CNT[k] (R305). -/
def AM.COL_MISS_CNT (k : Nat) : Fld := ⟨0x038 * 4096 + 0x0A0 + 4 * k, 0, 32⟩
/-- AM.WEDGE_STALE_CNT (R305). -/
def AM.WEDGE_STALE_CNT : Fld := ⟨0x0380C0, 0, 32⟩
/-- AM.WEDGE_MISS_CNT (R305). -/
def AM.WEDGE_MISS_CNT : Fld := ⟨0x0380C4, 0, 32⟩
/-- AM.SUPP_CNT (R305). -/
def AM.SUPP_CNT : Fld := ⟨0x0380C8, 0, 32⟩
/-- AM.CNT_CLR (R305). -/
def AM.CNT_CLR : Fld := ⟨0x0380CC, 0, 32⟩
/-- AM.CNT_CLR.CLR (R305). -/
def AM.CNT_CLR_CLR : Fld := ⟨0x0380CC, 0, 1⟩
/-- PG_ID (R331). -/
def PG.ID (p : Nat) : Fld := ⟨p * 4096 + 0x000, 0, 32⟩
/-- PG_ID.PAGE (R331). -/
def PG.ID_PAGE (p : Nat) : Fld := ⟨p * 4096 + 0x000, 0, 12⟩
/-- PG_ID.BLOCK (R331). -/
def PG.ID_BLOCK (p : Nat) : Fld := ⟨p * 4096 + 0x000, 16, 8⟩
/-- PG_VER (R331). -/
def PG.VER (p : Nat) : Fld := ⟨p * 4096 + 0x004, 0, 32⟩
/-- PG_VER.MINOR (R331). -/
def PG.VER_MINOR (p : Nat) : Fld := ⟨p * 4096 + 0x004, 0, 8⟩
/-- PG_VER.MAJOR (R331). -/
def PG.VER_MAJOR (p : Nat) : Fld := ⟨p * 4096 + 0x004, 8, 8⟩
/-- PG_CTRL (R331). -/
def PG.CTRL (p : Nat) : Fld := ⟨p * 4096 + 0x008, 0, 32⟩
/-- PG_CTRL.NOTIFY_EN (R331). -/
def PG.CTRL_NOTIFY_EN (p : Nat) : Fld := ⟨p * 4096 + 0x008, 0, 1⟩
/-- PG_STAT (R331). -/
def PG.STAT (p : Nat) : Fld := ⟨p * 4096 + 0x00C, 0, 32⟩
/-- PG_STAT.WREJ (R331). -/
def PG.STAT_WREJ (p : Nat) : Fld := ⟨p * 4096 + 0x00C, 0, 1⟩
/-- PG_STAT.PENDING (R331). -/
def PG.STAT_PENDING (p : Nat) : Fld := ⟨p * 4096 + 0x00C, 1, 1⟩
/-- PG_STAT.RUNNING (R331). -/
def PG.STAT_RUNNING (p : Nat) : Fld := ⟨p * 4096 + 0x00C, 2, 1⟩
/-- PG_STAT.FAULT (R331). -/
def PG.STAT_FAULT (p : Nat) : Fld := ⟨p * 4096 + 0x00C, 3, 1⟩
/-- PG_IRQ_RAW (R331). -/
def PG.IRQ_RAW (p : Nat) : Fld := ⟨p * 4096 + 0x010, 0, 32⟩
/-- PG_IRQ_RAW.RAW (R331). -/
def PG.IRQ_RAW_RAW (p : Nat) : Fld := ⟨p * 4096 + 0x010, 0, 32⟩
/-- PG_IRQ_EN (R331). -/
def PG.IRQ_EN (p : Nat) : Fld := ⟨p * 4096 + 0x014, 0, 32⟩
/-- PG_IRQ_EN.EN (R331). -/
def PG.IRQ_EN_EN (p : Nat) : Fld := ⟨p * 4096 + 0x014, 0, 32⟩
/-- PG_IRQ_OUT (R331). -/
def PG.IRQ_OUT (p : Nat) : Fld := ⟨p * 4096 + 0x018, 0, 32⟩
/-- PG_IRQ_OUT.OUT (R331). -/
def PG.IRQ_OUT_OUT (p : Nat) : Fld := ⟨p * 4096 + 0x018, 0, 32⟩
/-- PG_FAULT (R331). -/
def PG.FAULT (p : Nat) : Fld := ⟨p * 4096 + 0x01C, 0, 32⟩
/-- PG_FAULT.MAXSEV (R331). -/
def PG.FAULT_MAXSEV (p : Nat) : Fld := ⟨p * 4096 + 0x01C, 0, 2⟩
/-- PG_FAULT.VALID (R331). -/
def PG.FAULT_VALID (p : Nat) : Fld := ⟨p * 4096 + 0x01C, 2, 1⟩
/-- PG_FAULT.COUNT (R331). -/
def PG.FAULT_COUNT (p : Nat) : Fld := ⟨p * 4096 + 0x01C, 8, 8⟩
/-- PG_FAULT_INJ (R331). -/
def PG.FAULT_INJ (p : Nat) : Fld := ⟨p * 4096 + 0x020, 0, 32⟩
/-- PG_FAULT_INJ.CODE (R331). -/
def PG.FAULT_INJ_CODE (p : Nat) : Fld := ⟨p * 4096 + 0x020, 0, 8⟩
/-- PG_FAULT_INJ.FIRE (R331). -/
def PG.FAULT_INJ_FIRE (p : Nat) : Fld := ⟨p * 4096 + 0x020, 8, 1⟩
/-- PG_COMMIT (R331). -/
def PG.COMMIT (p : Nat) : Fld := ⟨p * 4096 + 0x024, 0, 32⟩
/-- PG_COMMIT.COMMIT (R331). -/
def PG.COMMIT_COMMIT (p : Nat) : Fld := ⟨p * 4096 + 0x024, 0, 1⟩
/-- PG_PART (R331). -/
def PG.PART (p : Nat) : Fld := ⟨p * 4096 + 0x028, 0, 32⟩
/-- PG_PART.PARTS (R331). -/
def PG.PART_PARTS (p : Nat) : Fld := ⟨p * 4096 + 0x028, 0, 4⟩
/-- HS.CTRL (R333). -/
def HS.CTRL (u : Nat) : Fld := ⟨(0x018 + u) * 4096 + 0x040, 0, 32⟩
/-- HS.CTRL.EN (R333). -/
def HS.CTRL_EN (u : Nat) : Fld := ⟨(0x018 + u) * 4096 + 0x040, 0, 1⟩
/-- HS.CTRL.PHY_SLAVE (R333). -/
def HS.CTRL_PHY_SLAVE (u : Nat) : Fld := ⟨(0x018 + u) * 4096 + 0x040, 1, 1⟩
/-- HS.CTRL.VLAN_EN (R333). -/
def HS.CTRL_VLAN_EN (u : Nat) : Fld := ⟨(0x018 + u) * 4096 + 0x040, 2, 1⟩
/-- HS.STAT (R333). -/
def HS.STAT (u : Nat) : Fld := ⟨(0x018 + u) * 4096 + 0x044, 0, 32⟩
/-- HS.STAT.LINK (R333). -/
def HS.STAT_LINK (u : Nat) : Fld := ⟨(0x018 + u) * 4096 + 0x044, 0, 1⟩
/-- HS.STAT.PROTECT (R333). -/
def HS.STAT_PROTECT (u : Nat) : Fld := ⟨(0x018 + u) * 4096 + 0x044, 1, 1⟩
/-- HS.STAT.TX_AN (R333). -/
def HS.STAT_TX_AN (u : Nat) : Fld := ⟨(0x018 + u) * 4096 + 0x044, 2, 1⟩
/-- HS.EVT (R333). -/
def HS.EVT (u : Nat) : Fld := ⟨(0x018 + u) * 4096 + 0x048, 0, 32⟩
/-- HS.EVT.LINK_DOWN (R333). -/
def HS.EVT_LINK_DOWN (u : Nat) : Fld := ⟨(0x018 + u) * 4096 + 0x048, 0, 1⟩
/-- HS.EVT.UNPROT_DROP (R333). -/
def HS.EVT_UNPROT_DROP (u : Nat) : Fld := ⟨(0x018 + u) * 4096 + 0x048, 1, 1⟩
/-- HS.EVT.ICV_FAIL (R333). -/
def HS.EVT_ICV_FAIL (u : Nat) : Fld := ⟨(0x018 + u) * 4096 + 0x048, 2, 1⟩
/-- HS.EVT.REPLAY (R333). -/
def HS.EVT_REPLAY (u : Nat) : Fld := ⟨(0x018 + u) * 4096 + 0x048, 3, 1⟩
/-- HS.EVT.PN_NEAR (R333). -/
def HS.EVT_PN_NEAR (u : Nat) : Fld := ⟨(0x018 + u) * 4096 + 0x048, 4, 1⟩
/-- HS.EVT.PN_EXHAUST (R333). -/
def HS.EVT_PN_EXHAUST (u : Nat) : Fld := ⟨(0x018 + u) * 4096 + 0x048, 5, 1⟩
/-- HS.EVT.ERAP_BAD (R333). -/
def HS.EVT_ERAP_BAD (u : Nat) : Fld := ⟨(0x018 + u) * 4096 + 0x048, 6, 1⟩
/-- HS.IPV4 (R333). -/
def HS.IPV4 (u : Nat) : Fld := ⟨(0x018 + u) * 4096 + 0x04C, 0, 32⟩
/-- HS.IPV4.ADDR (R333). -/
def HS.IPV4_ADDR (u : Nat) : Fld := ⟨(0x018 + u) * 4096 + 0x04C, 0, 32⟩
/-- HS.MAC_LO (R333). -/
def HS.MAC_LO (u : Nat) : Fld := ⟨(0x018 + u) * 4096 + 0x050, 0, 32⟩
/-- HS.MAC_HI (R333). -/
def HS.MAC_HI (u : Nat) : Fld := ⟨(0x018 + u) * 4096 + 0x054, 0, 32⟩
/-- HS.MAC_HI.MAC (R333). -/
def HS.MAC_HI_MAC (u : Nat) : Fld := ⟨(0x018 + u) * 4096 + 0x054, 0, 16⟩
/-- HS.VLAN (R333). -/
def HS.VLAN (u : Nat) : Fld := ⟨(0x018 + u) * 4096 + 0x058, 0, 32⟩
/-- HS.VLAN.VID (R333). -/
def HS.VLAN_VID (u : Nat) : Fld := ⟨(0x018 + u) * 4096 + 0x058, 0, 12⟩
/-- HS.VLAN.PCP (R333). -/
def HS.VLAN_PCP (u : Nat) : Fld := ⟨(0x018 + u) * 4096 + 0x058, 12, 3⟩
/-- HS.ERAP_UDP (R333). -/
def HS.ERAP_UDP (u : Nat) : Fld := ⟨(0x018 + u) * 4096 + 0x05C, 0, 32⟩
/-- HS.ERAP_UDP.PORT (R333). -/
def HS.ERAP_UDP_PORT (u : Nat) : Fld := ⟨(0x018 + u) * 4096 + 0x05C, 0, 16⟩
/-- HS.MACSEC (R333). -/
def HS.MACSEC (u : Nat) : Fld := ⟨(0x018 + u) * 4096 + 0x060, 0, 32⟩
/-- HS.MACSEC.EN (R333). -/
def HS.MACSEC_EN (u : Nat) : Fld := ⟨(0x018 + u) * 4096 + 0x060, 0, 1⟩
/-- HS.MACSEC.CONF (R333). -/
def HS.MACSEC_CONF (u : Nat) : Fld := ⟨(0x018 + u) * 4096 + 0x060, 1, 1⟩
/-- HS.MACSEC.LOCK (R333). -/
def HS.MACSEC_LOCK (u : Nat) : Fld := ⟨(0x018 + u) * 4096 + 0x060, 2, 1⟩
/-- HS.MACSEC.TX_AN (R333). -/
def HS.MACSEC_TX_AN (u : Nat) : Fld := ⟨(0x018 + u) * 4096 + 0x060, 3, 1⟩
/-- HS.MACSEC.REPLAY_WIN (R333). -/
def HS.MACSEC_REPLAY_WIN (u : Nat) : Fld := ⟨(0x018 + u) * 4096 + 0x060, 16, 16⟩
/-- HS.RXSCI[c].LO (R333). -/
def HS.RXSCI_LO (u c : Nat) : Fld := ⟨(0x018 + u) * 4096 + 0x064 + 8 * c, 0, 32⟩
/-- HS.RXSCI[c].HI (R333). -/
def HS.RXSCI_HI (u c : Nat) : Fld := ⟨(0x018 + u) * 4096 + 0x068 + 8 * c, 0, 32⟩
/-- HS.KEY_SEL (R333). -/
def HS.KEY_SEL (u : Nat) : Fld := ⟨(0x018 + u) * 4096 + 0x074, 0, 32⟩
/-- HS.KEY_SEL.SA (R333). -/
def HS.KEY_SEL_SA (u : Nat) : Fld := ⟨(0x018 + u) * 4096 + 0x074, 0, 3⟩
/-- HS.KEY_CTRL (R333). -/
def HS.KEY_CTRL (u : Nat) : Fld := ⟨(0x018 + u) * 4096 + 0x078, 0, 32⟩
/-- HS.KEY_CTRL.LOAD (R333). -/
def HS.KEY_CTRL_LOAD (u : Nat) : Fld := ⟨(0x018 + u) * 4096 + 0x078, 0, 1⟩
/-- HS.KEY[j] (R333). -/
def HS.KEY (u j : Nat) : Fld := ⟨(0x018 + u) * 4096 + 0x080 + 4 * j, 0, 32⟩
/-- HS.TX_PN (R333). -/
def HS.TX_PN (u : Nat) : Fld := ⟨(0x018 + u) * 4096 + 0x0A0, 0, 32⟩
/-- HS.RX_CNT (R333). -/
def HS.RX_CNT (u : Nat) : Fld := ⟨(0x018 + u) * 4096 + 0x0A4, 0, 32⟩
/-- HS.UNPROT_DROP_CNT (R333). -/
def HS.UNPROT_DROP_CNT (u : Nat) : Fld := ⟨(0x018 + u) * 4096 + 0x0A8, 0, 32⟩
/-- HS.ICV_FAIL_CNT (R333). -/
def HS.ICV_FAIL_CNT (u : Nat) : Fld := ⟨(0x018 + u) * 4096 + 0x0AC, 0, 32⟩
/-- HS.REPLAY_CNT (R333). -/
def HS.REPLAY_CNT (u : Nat) : Fld := ⟨(0x018 + u) * 4096 + 0x0B0, 0, 32⟩
/-- HS.CNT_CLR (R333). -/
def HS.CNT_CLR (u : Nat) : Fld := ⟨(0x018 + u) * 4096 + 0x0B4, 0, 32⟩
/-- HS.CNT_CLR.CLR (R333). -/
def HS.CNT_CLR_CLR (u : Nat) : Fld := ⟨(0x018 + u) * 4096 + 0x0B4, 0, 1⟩
/-- SYS.ID (R335). -/
def SYS.ID : Fld := ⟨0x000040, 0, 32⟩
/-- SYS.ID.PART (R335). -/
def SYS.ID_PART : Fld := ⟨0x000040, 0, 16⟩
/-- SYS.ID.VARIANT (R335). -/
def SYS.ID_VARIANT : Fld := ⟨0x000040, 16, 4⟩
/-- SYS.ID.GRADE (R335). -/
def SYS.ID_GRADE : Fld := ⟨0x000040, 20, 4⟩
/-- SYS.REV (R335). -/
def SYS.REV : Fld := ⟨0x000044, 0, 32⟩
/-- SYS.REV.STEPPING (R335). -/
def SYS.REV_STEPPING : Fld := ⟨0x000044, 0, 8⟩
/-- SYS.REV.FW (R335). -/
def SYS.REV_FW : Fld := ⟨0x000044, 16, 16⟩
/-- SYS.STATE (R335). -/
def SYS.STATE : Fld := ⟨0x000048, 0, 32⟩
/-- SYS.STATE.STATE (R335). -/
def SYS.STATE_STATE : Fld := ⟨0x000048, 0, 3⟩
/-- SYS.STATE.PREV (R335). -/
def SYS.STATE_PREV : Fld := ⟨0x000048, 4, 3⟩
/-- SYS.STATE.PAIR_ROLE (R335). -/
def SYS.STATE_PAIR_ROLE : Fld := ⟨0x000048, 8, 1⟩
/-- SYS.STATE.LIFECYCLE (R335). -/
def SYS.STATE_LIFECYCLE : Fld := ⟨0x000048, 10, 2⟩
/-- SYS.CMD (R335). -/
def SYS.CMD : Fld := ⟨0x00004C, 0, 32⟩
/-- SYS.CMD.CMD (R335). -/
def SYS.CMD_CMD : Fld := ⟨0x00004C, 0, 3⟩
/-- SYS.OWN (R335). -/
def SYS.OWN : Fld := ⟨0x000050, 0, 32⟩
/-- SYS.OWN.STATE (R335). -/
def SYS.OWN_STATE : Fld := ⟨0x000050, 0, 2⟩
/-- SYS.OWN.MASTER (R335). -/
def SYS.OWN_MASTER : Fld := ⟨0x000050, 2, 2⟩
/-- SYS.OWN.PRIO (R335). -/
def SYS.OWN_PRIO : Fld := ⟨0x000050, 4, 4⟩
/-- SYS.OWN.OFFER_TO (R335). -/
def SYS.OWN_OFFER_TO : Fld := ⟨0x000050, 8, 2⟩
/-- SYS.OWN.LEASE_MS (R335). -/
def SYS.OWN_LEASE_MS : Fld := ⟨0x000050, 16, 16⟩
/-- SYS.EVT (R335). -/
def SYS.EVT : Fld := ⟨0x000054, 0, 32⟩
/-- SYS.EVT.OWNER_GRANTED (R335). -/
def SYS.EVT_OWNER_GRANTED : Fld := ⟨0x000054, 0, 1⟩
/-- SYS.EVT.OWNER_LOST (R335). -/
def SYS.EVT_OWNER_LOST : Fld := ⟨0x000054, 1, 1⟩
/-- SYS.EVT.HANDOVER (R335). -/
def SYS.EVT_HANDOVER : Fld := ⟨0x000054, 2, 1⟩
/-- SYS.EVT.RELEASED (R335). -/
def SYS.EVT_RELEASED : Fld := ⟨0x000054, 3, 1⟩
/-- SYS.EVT.CLAIM_REFUSED (R335). -/
def SYS.EVT_CLAIM_REFUSED : Fld := ⟨0x000054, 4, 1⟩
/-- SYS.EVT.IMG_DONE (R335). -/
def SYS.EVT_IMG_DONE : Fld := ⟨0x000054, 5, 1⟩
/-- SYS.EVT.IMG_FAIL (R335). -/
def SYS.EVT_IMG_FAIL : Fld := ⟨0x000054, 6, 1⟩
/-- SYS.EVT.STATE_CHANGE (R335). -/
def SYS.EVT_STATE_CHANGE : Fld := ⟨0x000054, 7, 1⟩
/-- SYS.IMG_CTRL (R335). -/
def SYS.IMG_CTRL : Fld := ⟨0x000058, 0, 32⟩
/-- SYS.IMG_CTRL.VERIFY (R335). -/
def SYS.IMG_CTRL_VERIFY : Fld := ⟨0x000058, 0, 1⟩
/-- SYS.IMG_STAT (R335). -/
def SYS.IMG_STAT : Fld := ⟨0x00005C, 0, 32⟩
/-- SYS.IMG_STAT.CODE (R335). -/
def SYS.IMG_STAT_CODE : Fld := ⟨0x00005C, 0, 4⟩
/-- SYS.IMG_STAT.BUSY (R335). -/
def SYS.IMG_STAT_BUSY : Fld := ⟨0x00005C, 4, 1⟩
/-- SYS.IMG_STAT.HELD (R335). -/
def SYS.IMG_STAT_HELD : Fld := ⟨0x00005C, 5, 1⟩
/-- SYS.IMG_STAT.SRC (R335). -/
def SYS.IMG_STAT_SRC : Fld := ⟨0x00005C, 6, 2⟩
/-- SYS.IMG_STAT.SVN (R335). -/
def SYS.IMG_STAT_SVN : Fld := ⟨0x00005C, 8, 8⟩
/-- SYS.IMG_LEN (R335). -/
def SYS.IMG_LEN : Fld := ⟨0x000060, 0, 32⟩
/-- SYS.NOTIFY (R335). -/
def SYS.NOTIFY : Fld := ⟨0x000064, 0, 32⟩
/-- SYS.NOTIFY.MASK (R335). -/
def SYS.NOTIFY_MASK : Fld := ⟨0x000064, 0, 2⟩
/-- SYS.NOTIFY.HOLDOFF_US (R335). -/
def SYS.NOTIFY_HOLDOFF_US : Fld := ⟨0x000064, 16, 16⟩
/-- SYS.CLIENT[c].ADDR (R335). -/
def SYS.CLIENT_ADDR (c : Nat) : Fld := ⟨0x068 + 4 * c, 0, 32⟩
/-- SYS.ERAP_RX_CNT (R335). -/
def SYS.ERAP_RX_CNT : Fld := ⟨0x000070, 0, 32⟩
/-- SYS.ERAP_BAD_CNT (R335). -/
def SYS.ERAP_BAD_CNT : Fld := ⟨0x000074, 0, 32⟩
/-- SYS.NOT_OWNER_CNT (R335). -/
def SYS.NOT_OWNER_CNT : Fld := ⟨0x000078, 0, 32⟩
/-- SYS.TOKEN_CNT (R335). -/
def SYS.TOKEN_CNT : Fld := ⟨0x00007C, 0, 32⟩
/-- SYS.REPLAY_CNT (R335). -/
def SYS.REPLAY_CNT : Fld := ⟨0x000080, 0, 32⟩
/-- SYS.ERAP_DROP_CNT (R335). -/
def SYS.ERAP_DROP_CNT : Fld := ⟨0x000084, 0, 32⟩
/-- SYS.CNT_CLR (R335). -/
def SYS.CNT_CLR : Fld := ⟨0x000088, 0, 32⟩
/-- SYS.CNT_CLR.CLR (R335). -/
def SYS.CNT_CLR_CLR : Fld := ⟨0x000088, 0, 1⟩
/-- SI.CTRL (R361). -/
def SI.CTRL : Fld := ⟨0x039040, 0, 32⟩
/-- SI.CTRL.FAULTN_MID (R361). -/
def SI.CTRL_FAULTN_MID : Fld := ⟨0x039040, 0, 1⟩
/-- SI.STAT (R361). -/
def SI.STAT : Fld := ⟨0x039044, 0, 32⟩
/-- SI.STAT.MAXSEV (R361). -/
def SI.STAT_MAXSEV : Fld := ⟨0x039044, 0, 2⟩
/-- SI.STAT.FLOG_OCC (R361). -/
def SI.STAT_FLOG_OCC : Fld := ⟨0x039044, 8, 5⟩
/-- SI.STAT.RST_WIN (R361). -/
def SI.STAT_RST_WIN : Fld := ⟨0x039044, 16, 2⟩
/-- SI.STAT.HANDLING (R361). -/
def SI.STAT_HANDLING : Fld := ⟨0x039044, 24, 1⟩
/-- SI.EVT (R361). -/
def SI.EVT : Fld := ⟨0x039048, 0, 32⟩
/-- SI.EVT.FAULT_LOST (R361). -/
def SI.EVT_FAULT_LOST : Fld := ⟨0x039048, 0, 1⟩
/-- SI.EVT.RESTART (R361). -/
def SI.EVT_RESTART : Fld := ⟨0x039048, 1, 1⟩
/-- SI.EVT.HOLD (R361). -/
def SI.EVT_HOLD : Fld := ⟨0x039048, 2, 1⟩
/-- SI.EVT.DRAM_VIOL (R361). -/
def SI.EVT_DRAM_VIOL : Fld := ⟨0x039048, 3, 1⟩
/-- SI.FLOG_POP (R361). -/
def SI.FLOG_POP : Fld := ⟨0x03904C, 0, 32⟩
/-- SI.FLOG_POP.POP (R361). -/
def SI.FLOG_POP_POP : Fld := ⟨0x03904C, 0, 1⟩
/-- SI.FLOG[j] (R361). -/
def SI.FLOG (j : Nat) : Fld := ⟨0x039 * 4096 + 0x050 + 4 * j, 0, 32⟩
/-- SI.INJ (R361). -/
def SI.INJ : Fld := ⟨0x039060, 0, 32⟩
/-- SI.INJ.EN (R361). -/
def SI.INJ_EN : Fld := ⟨0x039060, 0, 1⟩
/-- SI.INJ.NOON (R361). -/
def SI.INJ_NOON : Fld := ⟨0x039060, 1, 1⟩
/-- SI.RST_CNT (R361). -/
def SI.RST_CNT : Fld := ⟨0x039064, 0, 32⟩
/-- SI.HOLD_CAUSE (R361). -/
def SI.HOLD_CAUSE : Fld := ⟨0x039068, 0, 32⟩
/-- SI.HOLD_CAUSE.CAUSE (R361). -/
def SI.HOLD_CAUSE_CAUSE : Fld := ⟨0x039068, 0, 2⟩
/-- SI.FSQ (R361). -/
def SI.FSQ : Fld := ⟨0x03906C, 0, 32⟩
/-- SI.FSQ.ACTED (R361). -/
def SI.FSQ_ACTED : Fld := ⟨0x03906C, 0, 1⟩
/-- SI.FSQ.LOCKSTEP (R361). -/
def SI.FSQ_LOCKSTEP : Fld := ⟨0x03906C, 1, 1⟩
/-- SI.FSQ.WDT (R361). -/
def SI.FSQ_WDT : Fld := ⟨0x03906C, 2, 1⟩
/-- SI.FSQ.HOLD_TO (R361). -/
def SI.FSQ_HOLD_TO : Fld := ⟨0x03906C, 3, 1⟩
/-- SI.VIOL_ADDR (R361). -/
def SI.VIOL_ADDR : Fld := ⟨0x039070, 0, 32⟩
/-- SI.VIOL_ADDR.ADDR (R361). -/
def SI.VIOL_ADDR_ADDR : Fld := ⟨0x039070, 0, 31⟩
/-- SI.VIOL_ADDR.DIE (R361). -/
def SI.VIOL_ADDR_DIE : Fld := ⟨0x039070, 31, 1⟩
/-- SI.VIOL_INFO (R361). -/
def SI.VIOL_INFO : Fld := ⟨0x039074, 0, 32⟩
/-- SI.VIOL_INFO.PART (R361). -/
def SI.VIOL_INFO_PART : Fld := ⟨0x039074, 0, 2⟩
/-- SI.VIOL_INFO.WRITE (R361). -/
def SI.VIOL_INFO_WRITE : Fld := ⟨0x039074, 2, 1⟩
/-- SI.VIOL_INFO.VALID (R361). -/
def SI.VIOL_INFO_VALID : Fld := ⟨0x039074, 31, 1⟩
/-- SI.VIOL_CNT (R361). -/
def SI.VIOL_CNT : Fld := ⟨0x039078, 0, 32⟩
/-- SI.FLOG_SEL (R361). -/
def SI.FLOG_SEL : Fld := ⟨0x03907C, 0, 32⟩
/-- SI.FLOG_SEL.IDX (R361). -/
def SI.FLOG_SEL_IDX : Fld := ⟨0x03907C, 0, 4⟩
/-- SI.AV_EXP_LO (R361). -/
def SI.AV_EXP_LO : Fld := ⟨0x039080, 0, 32⟩
/-- SI.AV_EXP_HI (R361). -/
def SI.AV_EXP_HI : Fld := ⟨0x039084, 0, 32⟩
/-- SI.AV_FAIL_LO (R361). -/
def SI.AV_FAIL_LO : Fld := ⟨0x039088, 0, 32⟩
/-- SI.AV_FAIL_HI (R361). -/
def SI.AV_FAIL_HI : Fld := ⟨0x03908C, 0, 32⟩
/-- SI.CNT_CLR (R361). -/
def SI.CNT_CLR : Fld := ⟨0x039090, 0, 32⟩
/-- SI.CNT_CLR.CLR (R361). -/
def SI.CNT_CLR_CLR : Fld := ⟨0x039090, 0, 1⟩
/-- SI.REGION[i].BASE (R361). -/
def SI.REGION_BASE (i : Nat) : Fld := ⟨0x039 * 4096 + 0x100 + 16 * i, 0, 32⟩
/-- SI.REGION[i].BASE.MIB (R361). -/
def SI.REGION_BASE_MIB (i : Nat) : Fld := ⟨0x039 * 4096 + 0x100 + 16 * i, 0, 11⟩
/-- SI.REGION[i].SIZE (R361). -/
def SI.REGION_SIZE (i : Nat) : Fld := ⟨0x039 * 4096 + 0x104 + 16 * i, 0, 32⟩
/-- SI.REGION[i].SIZE.MIB (R361). -/
def SI.REGION_SIZE_MIB (i : Nat) : Fld := ⟨0x039 * 4096 + 0x104 + 16 * i, 0, 12⟩
/-- SI.REGION[i].ATTR (R361). -/
def SI.REGION_ATTR (i : Nat) : Fld := ⟨0x039 * 4096 + 0x108 + 16 * i, 0, 32⟩
/-- SI.REGION[i].ATTR.WPARTS (R361). -/
def SI.REGION_ATTR_WPARTS (i : Nat) : Fld := ⟨0x039 * 4096 + 0x108 + 16 * i, 0, 4⟩
/-- SI.REGION[i].ATTR.RPARTS (R361). -/
def SI.REGION_ATTR_RPARTS (i : Nat) : Fld := ⟨0x039 * 4096 + 0x108 + 16 * i, 4, 4⟩
/-- SI.REGION[i].ATTR.VIA_TGE (R361). -/
def SI.REGION_ATTR_VIA_TGE (i : Nat) : Fld := ⟨0x039 * 4096 + 0x108 + 16 * i, 8, 1⟩
/-- SI.REGION[i].ATTR.LOADONLY (R361). -/
def SI.REGION_ATTR_LOADONLY (i : Nat) : Fld := ⟨0x039 * 4096 + 0x108 + 16 * i, 9, 1⟩
/-- SI.REGION[i].ATTR.EN (R361). -/
def SI.REGION_ATTR_EN (i : Nat) : Fld := ⟨0x039 * 4096 + 0x108 + 16 * i, 31, 1⟩
/-- SI.BW[l][p] (R361). -/
def SI.BW (l p : Nat) : Fld := ⟨0x039 * 4096 + 0x300 + 4 * (4 * l + p), 0, 32⟩
/-- SI.BW[l][p].MIN (R361). -/
def SI.BW_MIN (l p : Nat) : Fld := ⟨0x039 * 4096 + 0x300 + 4 * (4 * l + p), 0, 13⟩
/-- SI.BW[l][p].MAX (R361). -/
def SI.BW_MAX (l p : Nat) : Fld := ⟨0x039 * 4096 + 0x300 + 4 * (4 * l + p), 16, 13⟩
/-- MS.SCRUB (R387). -/
def MS.SCRUB : Fld := ⟨0x03A040, 0, 32⟩
/-- MS.SCRUB.SPD_INT (R387). -/
def MS.SCRUB_SPD_INT : Fld := ⟨0x03A040, 0, 16⟩
/-- MS.GOLD_CFG (R387). -/
def MS.GOLD_CFG : Fld := ⟨0x03A044, 0, 32⟩
/-- MS.GOLD_CFG.HEAD (R387). -/
def MS.GOLD_CFG_HEAD : Fld := ⟨0x03A044, 0, 3⟩
/-- MS.GOLD_CFG.DEFER_MAX (R387). -/
def MS.GOLD_CFG_DEFER_MAX : Fld := ⟨0x03A044, 8, 4⟩
/-- MS.GOLD_CFG.DEFER_THRESH (R387). -/
def MS.GOLD_CFG_DEFER_THRESH : Fld := ⟨0x03A044, 16, 8⟩
/-- MS.STAT (R387). -/
def MS.STAT : Fld := ⟨0x03A048, 0, 32⟩
/-- MS.STAT.RUN (R387). -/
def MS.STAT_RUN : Fld := ⟨0x03A048, 0, 12⟩
/-- MS.STAT.PEND (R387). -/
def MS.STAT_PEND : Fld := ⟨0x03A048, 16, 12⟩
/-- MS.EVT (R387). -/
def MS.EVT : Fld := ⟨0x03A04C, 0, 32⟩
/-- MS.EVT.MISSED (R387). -/
def MS.EVT_MISSED : Fld := ⟨0x03A04C, 0, 1⟩
/-- MS.EVT.PREEMPT (R387). -/
def MS.EVT_PREEMPT : Fld := ⟨0x03A04C, 1, 1⟩
/-- MS.LAST_MISSED (R387). -/
def MS.LAST_MISSED : Fld := ⟨0x03A050, 0, 32⟩
/-- MS.LAST_MISSED.CODE (R387). -/
def MS.LAST_MISSED_CODE : Fld := ⟨0x03A050, 0, 4⟩
/-- MS.LAST_MISSED.INST (R387). -/
def MS.LAST_MISSED_INST : Fld := ⟨0x03A050, 8, 3⟩
/-- MS.LAST_MISSED.VALID (R387). -/
def MS.LAST_MISSED_VALID : Fld := ⟨0x03A050, 31, 1⟩
/-- MS.MISSED_CNT[c] (R387). -/
def MS.MISSED_CNT (c : Nat) : Fld := ⟨0x03A * 4096 + 0x080 + 4 * c, 0, 32⟩
/-- MS.CNT_CLR (R387). -/
def MS.CNT_CLR : Fld := ⟨0x03A0B0, 0, 32⟩
/-- MS.CNT_CLR.CLR (R387). -/
def MS.CNT_CLR_CLR : Fld := ⟨0x03A0B0, 0, 1⟩
/-- BIST.SLICE_EN (R388). -/
def BIST.SLICE_EN : Fld := ⟨0x03B040, 0, 32⟩
/-- BIST.SLICE_EN.EN (R388). -/
def BIST.SLICE_EN_EN : Fld := ⟨0x03B040, 0, 13⟩
/-- BIST.ROUND (R388). -/
def BIST.ROUND : Fld := ⟨0x03B044, 0, 32⟩
/-- BIST.ROUND.S (R388). -/
def BIST.ROUND_S : Fld := ⟨0x03B044, 0, 16⟩
/-- BIST.READY_GAP (R388). -/
def BIST.READY_GAP : Fld := ⟨0x03B048, 0, 32⟩
/-- BIST.READY_GAP.MS (R388). -/
def BIST.READY_GAP_MS : Fld := ⟨0x03B048, 0, 16⟩
/-- BIST.STAT (R388). -/
def BIST.STAT : Fld := ⟨0x03B04C, 0, 32⟩
/-- BIST.STAT.RUNNING (R388). -/
def BIST.STAT_RUNNING : Fld := ⟨0x03B04C, 0, 1⟩
/-- BIST.STAT.CUR (R388). -/
def BIST.STAT_CUR : Fld := ⟨0x03B04C, 8, 4⟩
/-- BIST.STAT.GOLD_DEF (R388). -/
def BIST.STAT_GOLD_DEF : Fld := ⟨0x03B04C, 16, 4⟩
/-- BIST.STAT.GOLD_STARVED (R388). -/
def BIST.STAT_GOLD_STARVED : Fld := ⟨0x03B04C, 20, 1⟩
/-- BIST.STAT.GOLD_INFLIGHT (R388). -/
def BIST.STAT_GOLD_INFLIGHT : Fld := ⟨0x03B04C, 21, 1⟩
/-- BIST.EVT (R388). -/
def BIST.EVT : Fld := ⟨0x03B050, 0, 32⟩
/-- BIST.EVT.SLICE_FAIL (R388). -/
def BIST.EVT_SLICE_FAIL : Fld := ⟨0x03B050, 0, 1⟩
/-- BIST.EVT.ABORT (R388). -/
def BIST.EVT_ABORT : Fld := ⟨0x03B050, 1, 1⟩
/-- BIST.EVT.LANE_REPAIR (R388). -/
def BIST.EVT_LANE_REPAIR : Fld := ⟨0x03B050, 2, 1⟩
/-- BIST.EVT.GOLD_FAIL (R388). -/
def BIST.EVT_GOLD_FAIL : Fld := ⟨0x03B050, 3, 1⟩
/-- BIST.EVT.GOLD_DEFER (R388). -/
def BIST.EVT_GOLD_DEFER : Fld := ⟨0x03B050, 4, 1⟩
/-- BIST.EVT.GOLD_FORCED (R388). -/
def BIST.EVT_GOLD_FORCED : Fld := ⟨0x03B050, 5, 1⟩
/-- BIST.EVT.GOLD_NOWIN (R388). -/
def BIST.EVT_GOLD_NOWIN : Fld := ⟨0x03B050, 6, 1⟩
/-- BIST.EVT.GOLD_STARVED (R388). -/
def BIST.EVT_GOLD_STARVED : Fld := ⟨0x03B050, 7, 1⟩
/-- BIST.LAST_FAIL (R388). -/
def BIST.LAST_FAIL : Fld := ⟨0x03B054, 0, 32⟩
/-- BIST.LAST_FAIL.SLICE (R388). -/
def BIST.LAST_FAIL_SLICE : Fld := ⟨0x03B054, 0, 4⟩
/-- BIST.LAST_FAIL.GROUP (R388). -/
def BIST.LAST_FAIL_GROUP : Fld := ⟨0x03B054, 8, 6⟩
/-- BIST.LAST_FAIL.ABORT (R388). -/
def BIST.LAST_FAIL_ABORT : Fld := ⟨0x03B054, 16, 1⟩
/-- BIST.LAST_FAIL.VALID (R388). -/
def BIST.LAST_FAIL_VALID : Fld := ⟨0x03B054, 31, 1⟩
/-- BIST.LAST_SIG (R388). -/
def BIST.LAST_SIG : Fld := ⟨0x03B058, 0, 32⟩
/-- BIST.LAST_EXP (R388). -/
def BIST.LAST_EXP : Fld := ⟨0x03B05C, 0, 32⟩
/-- BIST.REPAIR (R388). -/
def BIST.REPAIR : Fld := ⟨0x03B060, 0, 32⟩
/-- BIST.REPAIR.GRP_A (R388). -/
def BIST.REPAIR_GRP_A : Fld := ⟨0x03B060, 0, 6⟩
/-- BIST.REPAIR.USED_A (R388). -/
def BIST.REPAIR_USED_A : Fld := ⟨0x03B060, 6, 1⟩
/-- BIST.REPAIR.GRP_B (R388). -/
def BIST.REPAIR_GRP_B : Fld := ⟨0x03B060, 8, 6⟩
/-- BIST.REPAIR.USED_B (R388). -/
def BIST.REPAIR_USED_B : Fld := ⟨0x03B060, 14, 1⟩
/-- BIST.REPAIR.PLK_LANE (R388). -/
def BIST.REPAIR_PLK_LANE : Fld := ⟨0x03B060, 16, 2⟩
/-- BIST.REPAIR.USED_PLK (R388). -/
def BIST.REPAIR_USED_PLK : Fld := ⟨0x03B060, 18, 1⟩
/-- BIST.GOLD_SIG_LO (R388). -/
def BIST.GOLD_SIG_LO : Fld := ⟨0x03B068, 0, 32⟩
/-- BIST.GOLD_SIG_HI (R388). -/
def BIST.GOLD_SIG_HI : Fld := ⟨0x03B06C, 0, 32⟩
/-- BIST.GOLD_EXP[i].LO (R388). -/
def BIST.GOLD_EXP_LO (i : Nat) : Fld := ⟨0x03B * 4096 + 0x070 + 8 * i, 0, 32⟩
/-- BIST.GOLD_EXP[i].HI (R388). -/
def BIST.GOLD_EXP_HI (i : Nat) : Fld := ⟨0x03B * 4096 + 0x074 + 8 * i, 0, 32⟩
/-- BIST.GOLD_RUN_CNT (R388). -/
def BIST.GOLD_RUN_CNT : Fld := ⟨0x03B080, 0, 32⟩
/-- BIST.GOLD_DEFER_CNT (R388). -/
def BIST.GOLD_DEFER_CNT : Fld := ⟨0x03B084, 0, 32⟩
/-- BIST.GOLD_FORCED_CNT (R388). -/
def BIST.GOLD_FORCED_CNT : Fld := ⟨0x03B088, 0, 32⟩
/-- BIST.GOLD_FAIL_CNT (R388). -/
def BIST.GOLD_FAIL_CNT : Fld := ⟨0x03B08C, 0, 32⟩
/-- BIST.SLICE_RUN_CNT (R388). -/
def BIST.SLICE_RUN_CNT : Fld := ⟨0x03B090, 0, 32⟩
/-- BIST.SLICE_FAIL_CNT (R388). -/
def BIST.SLICE_FAIL_CNT : Fld := ⟨0x03B094, 0, 32⟩
/-- BIST.ABORT_CNT (R388). -/
def BIST.ABORT_CNT : Fld := ⟨0x03B098, 0, 32⟩
/-- BIST.CNT_CLR (R388). -/
def BIST.CNT_CLR : Fld := ⟨0x03B09C, 0, 32⟩
/-- BIST.CNT_CLR.CLR (R388). -/
def BIST.CNT_CLR_CLR : Fld := ⟨0x03B09C, 0, 1⟩
/-- AGE.CFG (R389). -/
def AGE.CFG : Fld := ⟨0x03C040, 0, 32⟩
/-- AGE.CFG.PERIOD_S (R389). -/
def AGE.CFG_PERIOD_S : Fld := ⟨0x03C040, 0, 16⟩
/-- AGE.SLACK (R389). -/
def AGE.SLACK : Fld := ⟨0x03C044, 0, 32⟩
/-- AGE.SLACK.MIN_PS (R389). -/
def AGE.SLACK_MIN_PS : Fld := ⟨0x03C044, 0, 8⟩
/-- AGE.SLACK.MAX_PS (R389). -/
def AGE.SLACK_MAX_PS : Fld := ⟨0x03C044, 8, 8⟩
/-- AGE.SLACK.CANARY_PS (R389). -/
def AGE.SLACK_CANARY_PS : Fld := ⟨0x03C044, 16, 8⟩
/-- AGE.EVT (R389). -/
def AGE.EVT : Fld := ⟨0x03C048, 0, 32⟩
/-- AGE.EVT.MARGIN_LOW (R389). -/
def AGE.EVT_MARGIN_LOW : Fld := ⟨0x03C048, 0, 1⟩
/-- AGE.EVT.CANARY (R389). -/
def AGE.EVT_CANARY : Fld := ⟨0x03C048, 1, 1⟩
/-- AGE.EVT.AVS_STEP (R389). -/
def AGE.EVT_AVS_STEP : Fld := ⟨0x03C048, 2, 1⟩
/-- AGE.EVT.REF_CHANGE (R389). -/
def AGE.EVT_REF_CHANGE : Fld := ⟨0x03C048, 3, 1⟩
/-- AGE.EVT.EYE_LOW (R389). -/
def AGE.EVT_EYE_LOW : Fld := ⟨0x03C048, 5, 1⟩
/-- AGE.EVT.LOG_FAIL (R389). -/
def AGE.EVT_LOG_FAIL : Fld := ⟨0x03C048, 6, 1⟩
/-- AGE.EVT.LIFE_LIMIT (R389). -/
def AGE.EVT_LIFE_LIMIT : Fld := ⟨0x03C048, 7, 1⟩
/-- AGE.AVS[d] (R389). -/
def AGE.AVS (d : Nat) : Fld := ⟨0x03C * 4096 + 0x050 + 4 * d, 0, 32⟩
/-- AGE.AVS[d].OFS (R389). -/
def AGE.AVS_OFS (d : Nat) : Fld := ⟨0x03C * 4096 + 0x050 + 4 * d, 0, 8⟩
/-- AGE.AVS[d].FUSE_MIN (R389). -/
def AGE.AVS_FUSE_MIN (d : Nat) : Fld := ⟨0x03C * 4096 + 0x050 + 4 * d, 8, 8⟩
/-- AGE.AVS[d].FUSE_MAX (R389). -/
def AGE.AVS_FUSE_MAX (d : Nat) : Fld := ⟨0x03C * 4096 + 0x050 + 4 * d, 16, 8⟩
/-- AGE.SLACK_PS[d] (R389). -/
def AGE.SLACK_PS (d : Nat) : Fld := ⟨0x03C * 4096 + 0x060 + 4 * d, 0, 32⟩
/-- AGE.SLACK_PS[d].WORST (R389). -/
def AGE.SLACK_PS_WORST (d : Nat) : Fld := ⟨0x03C * 4096 + 0x060 + 4 * d, 0, 8⟩
/-- AGE.SLACK_PS[d].QUAD (R389). -/
def AGE.SLACK_PS_QUAD (d : Nat) : Fld := ⟨0x03C * 4096 + 0x060 + 4 * d, 16, 2⟩
/-- AGE.HOURS (R389). -/
def AGE.HOURS : Fld := ⟨0x03C070, 0, 32⟩
/-- AGE.LOG (R389). -/
def AGE.LOG : Fld := ⟨0x03C074, 0, 32⟩
/-- AGE.LOG.BASE (R389). -/
def AGE.LOG_BASE : Fld := ⟨0x03C074, 0, 24⟩
/-- AGE.LOG.SECTORS (R389). -/
def AGE.LOG_SECTORS : Fld := ⟨0x03C074, 24, 8⟩
/-- AGE.LOG_SEQ (R389). -/
def AGE.LOG_SEQ : Fld := ⟨0x03C078, 0, 32⟩
/-- AGE.TELEM (R389). -/
def AGE.TELEM : Fld := ⟨0x03C080, 0, 32⟩
/-- AGE.TELEM.SEND (R389). -/
def AGE.TELEM_SEND : Fld := ⟨0x03C080, 0, 1⟩
/-- AGE.TELEM.PERIOD_MS (R389). -/
def AGE.TELEM_PERIOD_MS : Fld := ⟨0x03C080, 16, 16⟩
/-- AGE.TEL_UDP (R389). -/
def AGE.TEL_UDP : Fld := ⟨0x03C084, 0, 32⟩
/-- AGE.TEL_UDP.PORT (R389). -/
def AGE.TEL_UDP_PORT : Fld := ⟨0x03C084, 0, 16⟩
/-- AGE.TEL_SEQ (R389). -/
def AGE.TEL_SEQ : Fld := ⟨0x03C088, 0, 32⟩
/-- AGE.TEL_DROP_CNT (R389). -/
def AGE.TEL_DROP_CNT : Fld := ⟨0x03C08C, 0, 32⟩
/-- AGE.RO_KHZ[i] (R389). -/
def AGE.RO_KHZ (i : Nat) : Fld := ⟨0x03C * 4096 + 0x090 + 4 * i, 0, 32⟩
/-- AGE.CNT_CLR (R389). -/
def AGE.CNT_CLR : Fld := ⟨0x03C0B0, 0, 32⟩
/-- AGE.CNT_CLR.CLR (R389). -/
def AGE.CNT_CLR_CLR : Fld := ⟨0x03C0B0, 0, 1⟩
/-- DRAM.STAT (R390). -/
def DRAM.STAT (u : Nat) : Fld := ⟨(0x030 + u) * 4096 + 0x040, 0, 32⟩
/-- DRAM.STAT.TRAINED (R390). -/
def DRAM.STAT_TRAINED (u : Nat) : Fld := ⟨(0x030 + u) * 4096 + 0x040, 0, 1⟩
/-- DRAM.STAT.REF_DIV (R390). -/
def DRAM.STAT_REF_DIV (u : Nat) : Fld := ⟨(0x030 + u) * 4096 + 0x040, 1, 2⟩
/-- DRAM.STAT.HOT (R390). -/
def DRAM.STAT_HOT (u : Nat) : Fld := ⟨(0x030 + u) * 4096 + 0x040, 3, 1⟩
/-- DRAM.EVT (R390). -/
def DRAM.EVT (u : Nat) : Fld := ⟨(0x030 + u) * 4096 + 0x044, 0, 32⟩
/-- DRAM.EVT.CE (R390). -/
def DRAM.EVT_CE (u : Nat) : Fld := ⟨(0x030 + u) * 4096 + 0x044, 0, 1⟩
/-- DRAM.EVT.UE (R390). -/
def DRAM.EVT_UE (u : Nat) : Fld := ⟨(0x030 + u) * 4096 + 0x044, 1, 1⟩
/-- DRAM.EVT.RET_LOW (R390). -/
def DRAM.EVT_RET_LOW (u : Nat) : Fld := ⟨(0x030 + u) * 4096 + 0x044, 2, 1⟩
/-- DRAM.EVT.REF_CHANGE (R390). -/
def DRAM.EVT_REF_CHANGE (u : Nat) : Fld := ⟨(0x030 + u) * 4096 + 0x044, 3, 1⟩
/-- DRAM.EVT.EYE_LOW (R390). -/
def DRAM.EVT_EYE_LOW (u : Nat) : Fld := ⟨(0x030 + u) * 4096 + 0x044, 4, 1⟩
/-- DRAM.EVT.SCRUB_PASS (R390). -/
def DRAM.EVT_SCRUB_PASS (u : Nat) : Fld := ⟨(0x030 + u) * 4096 + 0x044, 5, 1⟩
/-- DRAM.SCRUB (R390). -/
def DRAM.SCRUB (u : Nat) : Fld := ⟨(0x030 + u) * 4096 + 0x048, 0, 32⟩
/-- DRAM.SCRUB.INT_NS (R390). -/
def DRAM.SCRUB_INT_NS (u : Nat) : Fld := ⟨(0x030 + u) * 4096 + 0x048, 0, 16⟩
/-- DRAM.RET_MS (R390). -/
def DRAM.RET_MS (u : Nat) : Fld := ⟨(0x030 + u) * 4096 + 0x04C, 0, 32⟩
/-- DRAM.RET_MS.MS (R390). -/
def DRAM.RET_MS_MS (u : Nat) : Fld := ⟨(0x030 + u) * 4096 + 0x04C, 0, 16⟩
/-- DRAM.EYE (R390). -/
def DRAM.EYE (u : Nat) : Fld := ⟨(0x030 + u) * 4096 + 0x050, 0, 32⟩
/-- DRAM.EYE.HEIGHT (R390). -/
def DRAM.EYE_HEIGHT (u : Nat) : Fld := ⟨(0x030 + u) * 4096 + 0x050, 0, 8⟩
/-- DRAM.EYE.WIDTH (R390). -/
def DRAM.EYE_WIDTH (u : Nat) : Fld := ⟨(0x030 + u) * 4096 + 0x050, 8, 8⟩
/-- DRAM.ECC_ADDR (R390). -/
def DRAM.ECC_ADDR (u : Nat) : Fld := ⟨(0x030 + u) * 4096 + 0x054, 0, 32⟩
/-- DRAM.ECC_ADDR.ADDR (R390). -/
def DRAM.ECC_ADDR_ADDR (u : Nat) : Fld := ⟨(0x030 + u) * 4096 + 0x054, 0, 31⟩
/-- DRAM.ECC_INFO (R390). -/
def DRAM.ECC_INFO (u : Nat) : Fld := ⟨(0x030 + u) * 4096 + 0x058, 0, 32⟩
/-- DRAM.ECC_INFO.UE (R390). -/
def DRAM.ECC_INFO_UE (u : Nat) : Fld := ⟨(0x030 + u) * 4096 + 0x058, 0, 1⟩
/-- DRAM.ECC_INFO.SCRUB (R390). -/
def DRAM.ECC_INFO_SCRUB (u : Nat) : Fld := ⟨(0x030 + u) * 4096 + 0x058, 1, 1⟩
/-- DRAM.ECC_INFO.VALID (R390). -/
def DRAM.ECC_INFO_VALID (u : Nat) : Fld := ⟨(0x030 + u) * 4096 + 0x058, 31, 1⟩
/-- DRAM.CE_CNT (R390). -/
def DRAM.CE_CNT (u : Nat) : Fld := ⟨(0x030 + u) * 4096 + 0x05C, 0, 32⟩
/-- DRAM.UE_CNT (R390). -/
def DRAM.UE_CNT (u : Nat) : Fld := ⟨(0x030 + u) * 4096 + 0x060, 0, 32⟩
/-- DRAM.SCRUB_PASS_CNT (R390). -/
def DRAM.SCRUB_PASS_CNT (u : Nat) : Fld := ⟨(0x030 + u) * 4096 + 0x064, 0, 32⟩
/-- DRAM.CNT_CLR (R390). -/
def DRAM.CNT_CLR (u : Nat) : Fld := ⟨(0x030 + u) * 4096 + 0x068, 0, 32⟩
/-- DRAM.CNT_CLR.CLR (R390). -/
def DRAM.CNT_CLR_CLR (u : Nat) : Fld := ⟨(0x030 + u) * 4096 + 0x068, 0, 1⟩
/-- PLK.CTRL (R411). -/
def PLK.CTRL : Fld := ⟨0x01A040, 0, 32⟩
/-- PLK.CTRL.EN (R411). -/
def PLK.CTRL_EN : Fld := ⟨0x01A040, 0, 1⟩
/-- PLK.CTRL.AUTO_RST (R411). -/
def PLK.CTRL_AUTO_RST : Fld := ⟨0x01A040, 1, 1⟩
/-- PLK.CTRL.XC_EN (R411). -/
def PLK.CTRL_XC_EN : Fld := ⟨0x01A040, 2, 1⟩
/-- PLK.CTRL.FWD_EN (R411). -/
def PLK.CTRL_FWD_EN : Fld := ⟨0x01A040, 3, 1⟩
/-- PLK.STAT (R411). -/
def PLK.STAT : Fld := ⟨0x01A044, 0, 32⟩
/-- PLK.STAT.STATE (R411). -/
def PLK.STAT_STATE : Fld := ⟨0x01A044, 0, 3⟩
/-- PLK.STAT.LANES (R411). -/
def PLK.STAT_LANES : Fld := ⟨0x01A044, 4, 3⟩
/-- PLK.STAT.HB (R411). -/
def PLK.STAT_HB : Fld := ⟨0x01A044, 8, 1⟩
/-- PLK.STAT.IMG_MATCH (R411). -/
def PLK.STAT_IMG_MATCH : Fld := ⟨0x01A044, 9, 1⟩
/-- PLK.STAT.RST_BLOCKED (R411). -/
def PLK.STAT_RST_BLOCKED : Fld := ⟨0x01A044, 10, 1⟩
/-- PLK.STAT.FWD_SLOTS (R411). -/
def PLK.STAT_FWD_SLOTS : Fld := ⟨0x01A044, 16, 8⟩
/-- PLK.EVT (R411). -/
def PLK.EVT : Fld := ⟨0x01A048, 0, 32⟩
/-- PLK.EVT.LINK_UP (R411). -/
def PLK.EVT_LINK_UP : Fld := ⟨0x01A048, 0, 1⟩
/-- PLK.EVT.LINK_DOWN (R411). -/
def PLK.EVT_LINK_DOWN : Fld := ⟨0x01A048, 1, 1⟩
/-- PLK.EVT.HB_LOST (R411). -/
def PLK.EVT_HB_LOST : Fld := ⟨0x01A048, 2, 1⟩
/-- PLK.EVT.PARTNER_LOST (R411). -/
def PLK.EVT_PARTNER_LOST : Fld := ⟨0x01A048, 3, 1⟩
/-- PLK.EVT.ROLE_CONFLICT (R411). -/
def PLK.EVT_ROLE_CONFLICT : Fld := ⟨0x01A048, 4, 1⟩
/-- PLK.EVT.IMG_MISMATCH (R411). -/
def PLK.EVT_IMG_MISMATCH : Fld := ⟨0x01A048, 5, 1⟩
/-- PLK.EVT.XC_MISMATCH (R411). -/
def PLK.EVT_XC_MISMATCH : Fld := ⟨0x01A048, 6, 1⟩
/-- PLK.EVT.FWD_DROP (R411). -/
def PLK.EVT_FWD_DROP : Fld := ⟨0x01A048, 7, 1⟩
/-- PLK.EVT.MIR_REJ (R411). -/
def PLK.EVT_MIR_REJ : Fld := ⟨0x01A048, 8, 1⟩
/-- PLK.EVT.RST_SENT (R411). -/
def PLK.EVT_RST_SENT : Fld := ⟨0x01A048, 9, 1⟩
/-- PLK.EVT.LANE_OUT (R411). -/
def PLK.EVT_LANE_OUT : Fld := ⟨0x01A048, 10, 1⟩
/-- PLK.EVT.SLOT_CONFLICT (R411). -/
def PLK.EVT_SLOT_CONFLICT : Fld := ⟨0x01A048, 11, 1⟩
/-- PLK.TIMEOUT (R411). -/
def PLK.TIMEOUT : Fld := ⟨0x01A04C, 0, 32⟩
/-- PLK.TIMEOUT.LINK_US (R411). -/
def PLK.TIMEOUT_LINK_US : Fld := ⟨0x01A04C, 0, 16⟩
/-- PLK.TIMEOUT.HB_US (R411). -/
def PLK.TIMEOUT_HB_US : Fld := ⟨0x01A04C, 16, 16⟩
/-- PLK.RST (R411). -/
def PLK.RST : Fld := ⟨0x01A050, 0, 32⟩
/-- PLK.RST.DELAY_MS (R411). -/
def PLK.RST_DELAY_MS : Fld := ⟨0x01A050, 0, 16⟩
/-- PLK.RST.MAX (R411). -/
def PLK.RST_MAX : Fld := ⟨0x01A050, 16, 4⟩
/-- PLK.RST.PULSE (R411). -/
def PLK.RST_PULSE : Fld := ⟨0x01A050, 24, 1⟩
/-- PLK.XC (R411). -/
def PLK.XC : Fld := ⟨0x01A054, 0, 32⟩
/-- PLK.XC.WAIT_MS (R411). -/
def PLK.XC_WAIT_MS : Fld := ⟨0x01A054, 0, 8⟩
/-- PLK.XC.TOL_US (R411). -/
def PLK.XC_TOL_US : Fld := ⟨0x01A054, 16, 16⟩
/-- PLK.PTN_STATE (R411). -/
def PLK.PTN_STATE : Fld := ⟨0x01A058, 0, 32⟩
/-- PLK.PTN_STATE.STATE (R411). -/
def PLK.PTN_STATE_STATE : Fld := ⟨0x01A058, 0, 3⟩
/-- PLK.PTN_STATE.VEH_STATE (R411). -/
def PLK.PTN_STATE_VEH_STATE : Fld := ⟨0x01A058, 4, 3⟩
/-- PLK.PTN_EPOCH (R411). -/
def PLK.PTN_EPOCH : Fld := ⟨0x01A05C, 0, 32⟩
/-- PLK.CRC_ERR_CNT (R411). -/
def PLK.CRC_ERR_CNT : Fld := ⟨0x01A080, 0, 32⟩
/-- PLK.REPLAY_CNT (R411). -/
def PLK.REPLAY_CNT : Fld := ⟨0x01A084, 0, 32⟩
/-- PLK.FWD_TX_CNT (R411). -/
def PLK.FWD_TX_CNT : Fld := ⟨0x01A088, 0, 32⟩
/-- PLK.FWD_RX_CNT (R411). -/
def PLK.FWD_RX_CNT : Fld := ⟨0x01A08C, 0, 32⟩
/-- PLK.FWD_DROP_CNT (R411). -/
def PLK.FWD_DROP_CNT : Fld := ⟨0x01A090, 0, 32⟩
/-- PLK.RX_GAP_CNT (R411). -/
def PLK.RX_GAP_CNT : Fld := ⟨0x01A094, 0, 32⟩
/-- PLK.XC_MATCH_CNT (R411). -/
def PLK.XC_MATCH_CNT : Fld := ⟨0x01A098, 0, 32⟩
/-- PLK.XC_MISMATCH_CNT (R411). -/
def PLK.XC_MISMATCH_CNT : Fld := ⟨0x01A09C, 0, 32⟩
/-- PLK.XC_UNMATCHED_CNT (R411). -/
def PLK.XC_UNMATCHED_CNT : Fld := ⟨0x01A0A0, 0, 32⟩
/-- PLK.MIR_REJ_CNT (R411). -/
def PLK.MIR_REJ_CNT : Fld := ⟨0x01A0A4, 0, 32⟩
/-- PLK.LOST_CNT (R411). -/
def PLK.LOST_CNT : Fld := ⟨0x01A0A8, 0, 32⟩
/-- PLK.RST_CNT (R411). -/
def PLK.RST_CNT : Fld := ⟨0x01A0AC, 0, 32⟩
/-- PLK.CNT_CLR (R411). -/
def PLK.CNT_CLR : Fld := ⟨0x01A0B0, 0, 32⟩
/-- PLK.CNT_CLR.CLR (R411). -/
def PLK.CNT_CLR_CLR : Fld := ⟨0x01A0B0, 0, 1⟩
/-- SEC.BOOT_STAT (R431). -/
def SEC.BOOT_STAT : Fld := ⟨0x03F040, 0, 32⟩
/-- SEC.BOOT_STAT.CODE (R431). -/
def SEC.BOOT_STAT_CODE : Fld := ⟨0x03F040, 0, 3⟩
/-- SEC.BOOT_STAT.SRC (R431). -/
def SEC.BOOT_STAT_SRC : Fld := ⟨0x03F040, 4, 1⟩
/-- SEC.BOOT_STAT.ROM_KEY (R431). -/
def SEC.BOOT_STAT_ROM_KEY : Fld := ⟨0x03F040, 5, 1⟩
/-- SEC.BOOT_STAT.ROM_REV (R431). -/
def SEC.BOOT_STAT_ROM_REV : Fld := ⟨0x03F040, 6, 2⟩
/-- SEC.BOOT_STAT.FW_SVN (R431). -/
def SEC.BOOT_STAT_FW_SVN : Fld := ⟨0x03F040, 8, 8⟩
/-- SEC.BOOT_CTRL (R431). -/
def SEC.BOOT_CTRL : Fld := ⟨0x03F044, 0, 32⟩
/-- SEC.BOOT_CTRL.RECOVER (R431). -/
def SEC.BOOT_CTRL_RECOVER : Fld := ⟨0x03F044, 0, 1⟩
/-- SEC.BOOT_CTRL.FLASH_WR (R431). -/
def SEC.BOOT_CTRL_FLASH_WR : Fld := ⟨0x03F044, 1, 1⟩
/-- SEC.STAT (R431). -/
def SEC.STAT : Fld := ⟨0x03F048, 0, 32⟩
/-- SEC.STAT.ENGINE_BUSY (R431). -/
def SEC.STAT_ENGINE_BUSY : Fld := ⟨0x03F048, 0, 1⟩
/-- SEC.STAT.LC_PEND (R431). -/
def SEC.STAT_LC_PEND : Fld := ⟨0x03F048, 2, 2⟩
/-- SEC.STAT.LC_PEND_V (R431). -/
def SEC.STAT_LC_PEND_V : Fld := ⟨0x03F048, 4, 1⟩
/-- SEC.EVT (R431). -/
def SEC.EVT : Fld := ⟨0x03F04C, 0, 32⟩
/-- SEC.EVT.BOOT_FAIL (R431). -/
def SEC.EVT_BOOT_FAIL : Fld := ⟨0x03F04C, 0, 1⟩
/-- SEC.EVT.FLASH_DONE (R431). -/
def SEC.EVT_FLASH_DONE : Fld := ⟨0x03F04C, 1, 1⟩
/-- SEC.EVT.OTP_DONE (R431). -/
def SEC.EVT_OTP_DONE : Fld := ⟨0x03F04C, 2, 1⟩
/-- SEC.EVT.OTP_FAIL (R431). -/
def SEC.EVT_OTP_FAIL : Fld := ⟨0x03F04C, 3, 1⟩
/-- SEC.EVT.ATT_DONE (R431). -/
def SEC.EVT_ATT_DONE : Fld := ⟨0x03F04C, 4, 1⟩
/-- SEC.EVT.UNLOCK (R431). -/
def SEC.EVT_UNLOCK : Fld := ⟨0x03F04C, 5, 1⟩
/-- SEC.EVT.UNLOCK_FAIL (R431). -/
def SEC.EVT_UNLOCK_FAIL : Fld := ⟨0x03F04C, 6, 1⟩
/-- SEC.EVT.JTAG_BLOCK (R431). -/
def SEC.EVT_JTAG_BLOCK : Fld := ⟨0x03F04C, 7, 1⟩
/-- SEC.EVT.RNG_FAIL (R431). -/
def SEC.EVT_RNG_FAIL : Fld := ⟨0x03F04C, 8, 1⟩
/-- SEC.ARB (R431). -/
def SEC.ARB : Fld := ⟨0x03F050, 0, 32⟩
/-- SEC.ARB.VALUE (R431). -/
def SEC.ARB_VALUE : Fld := ⟨0x03F050, 0, 7⟩
/-- SEC.ARB.TARGET (R431). -/
def SEC.ARB_TARGET : Fld := ⟨0x03F050, 16, 7⟩
/-- SEC.LC_ADV (R431). -/
def SEC.LC_ADV : Fld := ⟨0x03F054, 0, 32⟩
/-- SEC.LC_ADV.TARGET (R431). -/
def SEC.LC_ADV_TARGET : Fld := ⟨0x03F054, 0, 2⟩
/-- SEC.LC_ADV.CONFIRM (R431). -/
def SEC.LC_ADV_CONFIRM : Fld := ⟨0x03F054, 16, 16⟩
/-- SEC.OTP_CMD (R431). -/
def SEC.OTP_CMD : Fld := ⟨0x03F058, 0, 32⟩
/-- SEC.OTP_CMD.CMD (R431). -/
def SEC.OTP_CMD_CMD : Fld := ⟨0x03F058, 0, 3⟩
/-- SEC.OTP_CMD.SLOT (R431). -/
def SEC.OTP_CMD_SLOT : Fld := ⟨0x03F058, 4, 2⟩
/-- SEC.OTP_CMD.DBG (R431). -/
def SEC.OTP_CMD_DBG : Fld := ⟨0x03F058, 8, 1⟩
/-- SEC.OTP_STAT (R431). -/
def SEC.OTP_STAT : Fld := ⟨0x03F05C, 0, 32⟩
/-- SEC.OTP_STAT.BUSY (R431). -/
def SEC.OTP_STAT_BUSY : Fld := ⟨0x03F05C, 0, 1⟩
/-- SEC.KEYSLOT[k] (R431). -/
def SEC.KEYSLOT (k : Nat) : Fld := ⟨0x03F * 4096 + 0x060 + 4 * k, 0, 32⟩
/-- SEC.KEYSLOT[k].ATTR (R431). -/
def SEC.KEYSLOT_ATTR (k : Nat) : Fld := ⟨0x03F * 4096 + 0x060 + 4 * k, 0, 3⟩
/-- SEC.KEY_RD (R431). -/
def SEC.KEY_RD : Fld := ⟨0x03F070, 0, 32⟩
/-- SEC.KEY_RD.SLOT (R431). -/
def SEC.KEY_RD_SLOT : Fld := ⟨0x03F070, 0, 2⟩
/-- SEC.KEY_VAL[j] (R431). -/
def SEC.KEY_VAL (j : Nat) : Fld := ⟨0x03F * 4096 + 0x080 + 4 * j, 0, 32⟩
/-- SEC.KEY_WR[j] (R431). -/
def SEC.KEY_WR (j : Nat) : Fld := ⟨0x03F * 4096 + 0x0A0 + 4 * j, 0, 32⟩
/-- SEC.DEV_PK[j] (R431). -/
def SEC.DEV_PK (j : Nat) : Fld := ⟨0x03F * 4096 + 0x0C0 + 4 * j, 0, 32⟩
/-- SEC.SERIAL[j] (R431). -/
def SEC.SERIAL (j : Nat) : Fld := ⟨0x03F * 4096 + 0x0E0 + 4 * j, 0, 32⟩
/-- SEC.ATT_NONCE[j] (R431). -/
def SEC.ATT_NONCE (j : Nat) : Fld := ⟨0x03F * 4096 + 0x100 + 4 * j, 0, 32⟩
/-- SEC.ATT_CTRL (R431). -/
def SEC.ATT_CTRL : Fld := ⟨0x03F120, 0, 32⟩
/-- SEC.ATT_CTRL.GO (R431). -/
def SEC.ATT_CTRL_GO : Fld := ⟨0x03F120, 0, 1⟩
/-- SEC.ATT_CTRL.BUSY (R431). -/
def SEC.ATT_CTRL_BUSY : Fld := ⟨0x03F120, 1, 1⟩
/-- SEC.ATT_CTRL.DONE (R431). -/
def SEC.ATT_CTRL_DONE : Fld := ⟨0x03F120, 2, 1⟩
/-- SEC.ATT_SEG (R431). -/
def SEC.ATT_SEG : Fld := ⟨0x03F124, 0, 32⟩
/-- SEC.ATT_SEG.SEG (R431). -/
def SEC.ATT_SEG_SEG : Fld := ⟨0x03F124, 0, 4⟩
/-- SEC.DBG (R431). -/
def SEC.DBG : Fld := ⟨0x03F128, 0, 32⟩
/-- SEC.DBG.SCOPE (R431). -/
def SEC.DBG_SCOPE : Fld := ⟨0x03F128, 0, 3⟩
/-- SEC.DBG.LEFT_S (R431). -/
def SEC.DBG_LEFT_S : Fld := ⟨0x03F128, 8, 24⟩
/-- SEC.MON_CFG (R431). -/
def SEC.MON_CFG : Fld := ⟨0x03F12C, 0, 32⟩
/-- SEC.MON_CFG.IDLE_S (R431). -/
def SEC.MON_CFG_IDLE_S : Fld := ⟨0x03F12C, 0, 16⟩
/-- SEC.UNLOCK_FAIL_CNT (R431). -/
def SEC.UNLOCK_FAIL_CNT : Fld := ⟨0x03F130, 0, 32⟩
/-- SEC.ATT_CNT (R431). -/
def SEC.ATT_CNT : Fld := ⟨0x03F134, 0, 32⟩
/-- SEC.CNT_CLR (R431). -/
def SEC.CNT_CLR : Fld := ⟨0x03F138, 0, 32⟩
/-- SEC.CNT_CLR.CLR (R431). -/
def SEC.CNT_CLR_CLR : Fld := ⟨0x03F138, 0, 1⟩
/-- SEC.ATT_WIN (R431). -/
def SEC.ATT_WIN (j : Nat) : Fld := ⟨0x03F * 4096 + 0x800 + 4 * j, 0, 32⟩
/-- PM.DOM_ON (R451). -/
def PM.DOM_ON : Fld := ⟨0x03D040, 0, 32⟩
/-- PM.DOM_ON.ON (R451). -/
def PM.DOM_ON_ON : Fld := ⟨0x03D040, 0, 30⟩
/-- PM.DUSK (R451). -/
def PM.DUSK : Fld := ⟨0x03D044, 0, 32⟩
/-- PM.DUSK.MS (R451). -/
def PM.DUSK_MS : Fld := ⟨0x03D044, 0, 16⟩
/-- PM.THERM (R451). -/
def PM.THERM : Fld := ⟨0x03D048, 0, 32⟩
/-- PM.THERM.HI_C (R451). -/
def PM.THERM_HI_C : Fld := ⟨0x03D048, 0, 8⟩
/-- PM.EVT (R451). -/
def PM.EVT : Fld := ⟨0x03D04C, 0, 32⟩
/-- PM.EVT.THERM_HI (R451). -/
def PM.EVT_THERM_HI : Fld := ⟨0x03D04C, 0, 1⟩
/-- PM.EVT.THERM_TRIP (R451). -/
def PM.EVT_THERM_TRIP : Fld := ⟨0x03D04C, 1, 1⟩
/-- PM.EVT.PMBUS_ERR (R451). -/
def PM.EVT_PMBUS_ERR : Fld := ⟨0x03D04C, 2, 1⟩
/-- PM.EVT.RAIL_UV (R451). -/
def PM.EVT_RAIL_UV : Fld := ⟨0x03D04C, 3, 1⟩
/-- PM.EVT.RAIL_OV (R451). -/
def PM.EVT_RAIL_OV : Fld := ⟨0x03D04C, 4, 1⟩
/-- PM.EVT.DUSK_TO (R451). -/
def PM.EVT_DUSK_TO : Fld := ⟨0x03D04C, 5, 1⟩
/-- PM.TEMP[i] (R451). -/
def PM.TEMP (i : Nat) : Fld := ⟨0x03D * 4096 + 0x050 + 4 * i, 0, 32⟩
/-- PM.TEMP[i].C16 (R451). -/
def PM.TEMP_C16 (i : Nat) : Fld := ⟨0x03D * 4096 + 0x050 + 4 * i, 0, 16⟩
/-- PM.VCMP[d] (R451). -/
def PM.VCMP (d : Nat) : Fld := ⟨0x03D * 4096 + 0x068 + 4 * d, 0, 32⟩
/-- PM.VCMP[d].MV (R451). -/
def PM.VCMP_MV (d : Nat) : Fld := ⟨0x03D * 4096 + 0x068 + 4 * d, 0, 10⟩
/-- PM.VCMP[d].EN (R451). -/
def PM.VCMP_EN (d : Nat) : Fld := ⟨0x03D * 4096 + 0x068 + 4 * d, 16, 1⟩
/-- PM.PMBUS_ERR_CNT (R451). -/
def PM.PMBUS_ERR_CNT : Fld := ⟨0x03D078, 0, 32⟩
/-- PM.DUSK_TO_CNT (R451). -/
def PM.DUSK_TO_CNT : Fld := ⟨0x03D07C, 0, 32⟩
/-- PM.CNT_CLR (R451). -/
def PM.CNT_CLR : Fld := ⟨0x03D080, 0, 32⟩
/-- PM.CNT_CLR.CLR (R451). -/
def PM.CNT_CLR_CLR : Fld := ⟨0x03D080, 0, 1⟩
/-- CM.STAT (R452). -/
def CM.STAT : Fld := ⟨0x03E040, 0, 32⟩
/-- CM.STAT.REFCLK_OK (R452). -/
def CM.STAT_REFCLK_OK : Fld := ⟨0x03E040, 0, 1⟩
/-- CM.STAT.AON_TRIM (R452). -/
def CM.STAT_AON_TRIM : Fld := ⟨0x03E040, 1, 1⟩
/-- CM.STAT.PLL_LOCK (R452). -/
def CM.STAT_PLL_LOCK : Fld := ⟨0x03E040, 2, 8⟩
/-- CM.STAT.SPARE_USE (R452). -/
def CM.STAT_SPARE_USE : Fld := ⟨0x03E040, 10, 2⟩
/-- CM.EVT (R452). -/
def CM.EVT : Fld := ⟨0x03E044, 0, 32⟩
/-- CM.EVT.REFCLK_LOST (R452). -/
def CM.EVT_REFCLK_LOST : Fld := ⟨0x03E044, 0, 1⟩
/-- CM.EVT.PLL_UNLOCK (R452). -/
def CM.EVT_PLL_UNLOCK : Fld := ⟨0x03E044, 1, 1⟩
/-- CM.EVT.CLK_WINDOW (R452). -/
def CM.EVT_CLK_WINDOW : Fld := ⟨0x03E044, 2, 1⟩
/-- CM.EVT.SPARE_SWITCH (R452). -/
def CM.EVT_SPARE_SWITCH : Fld := ⟨0x03E044, 3, 1⟩
/-- CM.AON_KHZ (R452). -/
def CM.AON_KHZ : Fld := ⟨0x03E048, 0, 32⟩
/-- CM.AON_KHZ.KHZ (R452). -/
def CM.AON_KHZ_KHZ : Fld := ⟨0x03E048, 0, 16⟩
/-- CM.LAST (R452). -/
def CM.LAST : Fld := ⟨0x03E04C, 0, 32⟩
/-- CM.LAST.DOMAIN (R452). -/
def CM.LAST_DOMAIN : Fld := ⟨0x03E04C, 0, 5⟩
/-- CM.LAST.VALID (R452). -/
def CM.LAST_VALID : Fld := ⟨0x03E04C, 31, 1⟩
/-- CM.UNLOCK_CNT (R452). -/
def CM.UNLOCK_CNT : Fld := ⟨0x03E050, 0, 32⟩
/-- CM.CNT_CLR (R452). -/
def CM.CNT_CLR : Fld := ⟨0x03E054, 0, 32⟩
/-- CM.CNT_CLR.CLR (R452). -/
def CM.CNT_CLR_CLR : Fld := ⟨0x03E054, 0, 1⟩

end Sys2Proof.Machine
end

