-- ==== Sys2Proof/Machine/Sparse.lean ====
section
/-! DEFINITION. Sparse maps from a number to a value, as lists in one canonical form: keys strictly rising, and no
entry equal to what an unlisted key reads as. The register file, the pending SH words and every memory are such maps. -/

namespace Sys2Proof.Machine

variable {α : Type}

/-- The value listed for a key. -/
def find (k : Nat) : List (Nat × α) → Option α
  | [] => none
  | (j, v) :: m => if j = k then some v else find k m

/-- `m` with `v` listed for `k`. -/
def ins (k : Nat) (v : α) : List (Nat × α) → List (Nat × α)
  | [] => [(k, v)]
  | (j, u) :: m =>
    if k < j then (k, v) :: (j, u) :: m
    else if j = k then (k, v) :: m
    else (j, u) :: ins k v m

/-- `m` without an entry for `k`. -/
def del (k : Nat) (m : List (Nat × α)) : List (Nat × α) := m.filter (fun e => e.1 != k)

/-- What `m` reads at `k` where an unlisted key reads as `dflt`. -/
def rd (dflt : α) (m : List (Nat × α)) (k : Nat) : α := (find k m).getD dflt

/-- `m` with `k` made to read `v`; an unlisted key reads as `dflt`, so writing that removes the entry. -/
def wr [DecidableEq α] (dflt : α) (m : List (Nat × α)) (k : Nat) (v : α) : List (Nat × α) :=
  if v = dflt then del k m else ins k v m

/-- Keys strictly rising and above `lo`. -/
def rising (lo : Nat) : List (Nat × α) → Bool
  | [] => true
  | (k, _) :: m => decide (lo ≤ k) && rising (k + 1) m

/-- The canonical form of a map whose unlisted keys read as `dflt` gives. -/
def canon [DecidableEq α] (dflt : Nat → α) (m : List (Nat × α)) : Bool :=
  rising 0 m && m.all (fun e => e.2 != dflt e.1)

/-- A memory: byte cells, unlisted bytes reading 0 (assumption 9). -/
abbrev Mem := List (Nat × Byte)

/-- The byte at an address. -/
def Mem.byte (m : Mem) (a : Nat) : Byte := rd 0 m a

/-- `n` bytes from an address on. -/
def Mem.bytes (m : Mem) (a : Nat) : Nat → Bytes
  | 0 => []
  | n + 1 => Mem.byte m a :: Mem.bytes m (a + 1) n

/-- `m` with bytes stored from an address on. -/
def Mem.store (m : Mem) (a : Nat) : Bytes → Mem
  | [] => m
  | b :: bs => Mem.store (wr 0 m a b) (a + 1) bs

/-- `m` with `n` bytes from an address on made 0. -/
def Mem.clear (m : Mem) (a n : Nat) : Mem := m.filter (fun e => e.1 < a || a + n ≤ e.1)

/-- The little-endian number of `n` bytes at an address. -/
def Mem.num (m : Mem) (a n : Nat) : Nat := leNat (Mem.bytes m a n)

/-- The canonical form of a memory. -/
def Mem.wf (m : Mem) : Bool := canon (fun _ => 0) m

/-- A set of numbers in canonical form, with `k` added. -/
def insSet (k : Nat) : List Nat → List Nat
  | [] => [k]
  | j :: m => if k < j then k :: j :: m else if j = k then j :: m else j :: insSet k m

end Sys2Proof.Machine
end

