-- ==== Sys2Proof/Machine/Types.lean ====
section
/-! DEFINITION. The parts of the AT-48's state that are no registers, as plain data: time bases, trackers, wedge
scheduler, ERAP, ownership, fault log and the other blocks, each with the rule of the manual that gives it. -/

namespace Sys2Proof.Machine

/-- A slewed time base (R42, R44, R46): at TB_MONO instant `monoAt` (1/16 ns) it read `valAt` (1/16 ns), and it runs
at TB_MONO's rate plus `rate` sixteenths of a ppb. -/
structure Base where
  monoAt : Nat := 0
  valAt : Int := 0
  rate : Int := 0
deriving DecidableEq, Repr

/-- Time-base state besides the registers (R44 to R54). -/
structure TimeSt where
  sns : Base := {}
  snsSession : Bool := false            -- the first head-port gPTP session after reset has started (R44)
  veh : Base := {}
  vehInit : Bool := false               -- TB_VEH has been initialised (R46, R47)
  src : Option (Nat × Nat) := none      -- source last followed: clockIdentity and 0 HS0, 1 HS1, 2 PPS_IN (R48, R57)
  srcIntv : Nat := 0                    -- its announced sync interval, 1/16 ns (R48)
  lastSync : Nat := 0                   -- instant of its last usable Sync
  usable : List Nat := [0, 0]           -- per host port: instant until which its master is usable (R57)
  stepOfs : Option Int := none          -- within-limit offset waiting for its boundary, 1/16 ns (R49)
  refused : Option Int := none          -- latest refused offset, 1/16 ns (R49)
  lastPps : Option Nat := none          -- instant of the last PPS_IN edge (R53)
  ppsLast : Option Int := none          -- second of the selected base of the last PPS_OUT edge (R52)
  ppsHigh : Option Nat := none          -- instant of the rising edge of the running pulse
  ptnOfs : Option Int := none           -- TB_PTN - TB_SNS (R54), 1/16 ns; none: invalid
  ptnAt : Nat := 0                      -- instant of the last partner measurement
  ptnStart : Nat := 0                   -- start of the link session
  ptnRun : Nat := 0                     -- consecutive offsets beyond PTN_TOL
  snap : Option (List (Option (Int × Bool))) := none -- captured bases of a running snapshot, each with its VALID (R55)
deriving DecidableEq, Repr

/-- gPTP state of one port (R56, R57): heads 0 to 7, host ports 8, 9. -/
structure Gptp where
  syncAt : Option Int := none           -- TB_SNS of the last Sync sent
  syncSeq : Nat := 0                    -- its sequence number
  annAt : Option Nat := none            -- instant of the last Announce sent
  annSeq : Nat := 0
  pdAt : Option Nat := none             -- instant of the last peer-delay request
  pdSeq : Nat := 0
  pdT1 : Option (Nat × Int) := none     -- outstanding request: its sequence number and egress time at the MDI
deriving DecidableEq, Repr

/-- Acquisition state of a tracker (R64, R65). -/
structure Acq where
  seed : Option (Nat × Nat) := none     -- first sample: time ns, angle
  run : Option (Nat × Int × Nat) := none -- t0 (ns), unwrapped angle (24.16) and rate once seeded
  good : Nat := 0                       -- consecutive good samples
deriving DecidableEq, Repr

/-- One Angle Tracker (R63 to R68). Angles are unwrapped: `pos` modulo 2^40 is a0. -/
structure Tracker where
  t0 : Nat := 0                         -- TB_SNS, ns
  pos : Int := 0                        -- 24.16 fixed point, unwrapped
  r : Nat := 0                          -- 0.32 fixed point
  bad : Nat := 0                        -- consecutive samples beyond LOSS_TOL
  acq : Acq := {}                       -- acquisition, also in the background of FALLBACK
  lastTs : Option Nat := none           -- time stamp of the last sample not discarded, ns
  passTs : Option Nat := none           -- time stamp of the last sample the Ingest Engine passed, ns
  lastArr : Nat := 0                    -- TB_MONO arrival of the last sample not discarded, ticks
  fbAt : Nat := 0                       -- TB_MONO ns of the FALLBACK anchor
  fbPos : Int := 0                      -- angle at the anchor
  runStart : Int := 0                   -- position at the start of the continuous run (R68)
  fired : List (Nat × Int) := []        -- event key to the position of its last firing, keys rising
deriving DecidableEq, Repr

/-- Revolution marks (R74, R119). -/
structure RevSt where
  count : Nat := 0                      -- marks since reset
  lastMark : Option Nat := none         -- instant of the last mark
  lastHead : Nat := 0                   -- instant of the last mark the head fired, 0: release of PORST_N
  lastTimer : Option Nat := none        -- instant of the last timer mark since the head left LOCKED and FALLBACK
  lastRate : Option Nat := none         -- rate at which the reference head was last LOCKED (0.32 fixed point)
  sweep : Nat := 0                      -- current sweep number (R119)
  starts : List Int := [0]              -- kept marks: TB_SNS ns of the current sweep and up to seven earlier, newest first (R119)
deriving DecidableEq, Repr

/-- A pose sample as kept (R95, R99): TB_SNS ns, position in 1/128 mm, rotation matrix Q2.30 row-major. -/
structure Pose where
  t : Int
  pos : List Int
  rot : List Int
deriving DecidableEq, Repr

/-- One anchor (R100): generation, first return time it applies to, COORD24 units per axis. -/
structure Anchor where
  gen : Nat
  start : Option Int                    -- none: from the beginning
  at_ : List Int
deriving DecidableEq, Repr

/-- Pose input, the same in both Ingest Engines (R97 to R100). -/
structure PoseSt where
  poses : List Pose := []               -- the last 64 samples, oldest first
  anchors : List Anchor := []           -- newest first, one per generation
  imuHealthy : Bool := false
  imuBad : Nat := 0                     -- consecutive records failing the CRC
  drdyAt : Nat := 0                     -- instant of the last IMU_DRDY
  capture : Option Int := none          -- TB_SNS ns of the DRDY whose read is running
  next : Option Int := none             -- TB_SNS ns of the latest DRDY during that read (R465)
deriving DecidableEq, Repr

/-- A return on the wedge path (R101, R102): slot, range, head angle, channel, TB_SNS ns, ingress instant. -/
structure WRet where
  slot : Nat
  rng : Nat
  az : Nat
  ch : Nat
  t : Int
  ing : Nat
  inten : Nat
deriving DecidableEq, Repr

/-- A de-skewed point (R101): COORD24 in local odometry coordinates, anchor generation, head slot, time, and the wedge
of its head angle (R106). -/
structure Pt where
  q : List Int
  gen : Nat
  slot : Nat
  t : Int
  mark : Nat
  inten : Nat
deriving DecidableEq, Repr

/-- A point with its key and offset, on its way to the owning unit (R111). -/
structure VIns where
  key : List Nat
  grid : Nat
  off : List Nat
  inten : Nat
  slot : Nat
  t : Int
  mark : Nat
deriving DecidableEq, Repr

/-- A live voxel slot (R114). -/
structure VSlot where
  key : List Nat
  grid : Nat
  cnt : Nat
  sum : List Nat
  imax : Nat
  sat : Bool
  sweep : Nat                           -- tag, modulo 256
  pres : Nat                            -- four bits
  tnew : Nat
  fptr : Nat
deriving DecidableEq, Repr

/-- One Voxel Hash Unit (R113 to R122, R132). `slots` is keyed by 8·bucket + way, and by 2^20 + index in the stash;
`gold` by 4·bucket + way. -/
structure VhuSt where
  inq : List VIns := []
  slots : List (Nat × VSlot) := []
  gold : List (Nat × VSlot) := []
  aged : Nat := 0                       -- sweeps below this have been cleared by ageing (R121)
  inj : Nat := 0                        -- injected slot error: 0 none, 1 single-bit, 2 double-bit (R356)
  recGo : Bool := false                 -- the recentring instance that runs has had its commit point (R122)
  recGrids : List Nat := []             -- grids whose recentring pass is still to run (R122)
  recAt : Nat := 0                      -- its commit point
deriving DecidableEq, Repr

/-- The state the two units share: absolute voxel indices of the grid centres (R122, R255), the grids of the recentring instances that
wait for their start and of those that have started on both units. -/
structure GridSt where
  centre : List (List Int) := [[0, 0, 0], [0, 0, 0], [0, 0, 0]]
  recPend : List Nat := []
  recRun : List Nat := []
deriving DecidableEq, Repr

/-- An activity instance of the Maintenance Scheduler (R373). -/
structure Act where
  code : Nat
  inst : Nat
  at_ : Nat                             -- instant of the request
  mark : Nat := 0                       -- revolution marks counted at the request
deriving DecidableEq, Repr

/-- The Maintenance Scheduler (R373 to R376). -/
structure MsSt where
  pend : List Act := []                 -- in order of request
  run : List Act := []
  logged : List Nat := []               -- codes whose miss has been logged in this revolution (R375)
deriving DecidableEq, Repr

/-- One Ingest Engine (R102, R105). -/
structure IngSt where
  deskQ : List WRet := []               -- de-skew input queue, oldest first
  pwb : List WRet := []                 -- pose-wait buffer, oldest first
  shedAt : Option Nat := none           -- instant of the last update of the shed level (R105)
deriving DecidableEq, Repr

/-- A head port and its head (R88 to R94, R104 to R106). -/
structure HeadSt where
  learned : Option Nat := none          -- source address of the first point packet (R88)
  mac : Nat := 0                        -- source MAC of the last frame of the head
  seq : Nat := 0                        -- sequence number of the last challenge
  nonce : Bytes := []
  sentAt : Option Nat := none           -- transmission of the outstanding attempt
  tries : Nat := 0                      -- further attempts already made
  retryAt : Option Nat := none          -- instant of the next attempt after a failed one
  segs : List (Nat × Bytes) := []       -- answer segments received of the outstanding attempt
  segCnt : Nat := 0
  checking : Bool := false              -- the answer is with the Security Island
  lastChal : Option Nat := none         -- instant of the last challenge
  linkAt : Nat := 0                     -- instant of link-up
  chalDue : Bool := false               -- a challenge is due (R88, R92)
  idDue : Option Nat := none            -- outcome of a re-challenge, due at the next commit point (R92)
  quarDue : Option Bool := none         -- change of quarantine due at the next commit point (R91)
  intSum : Nat := 0                     -- twilight intensities of the running revolution (R94)
  intN : Nat := 0
  intFilt : Option Nat := none          -- filtered ratio, u8.24
  level : Nat := 0                      -- shed level applied to the head (R105)
  shedArmed : Bool := true              -- the next shed return sets HP.EVT.SHED (R105)
  ids : Nat := 0                        -- forwarded slot: status byte of the latest TIME frame (R402)
deriving DecidableEq, Repr

/-- Scheduler state of one wedge (R72, R73) and the marks its next frame will carry (R291, R292). -/
structure WedgeSt where
  mask : Nat := 0                       -- heads whose bit is set
  timer : Option Nat := none            -- instant at which the timer started
  timerSns : Int := 0                   -- TB_SNS ns of that instant
  after : Option Nat := none            -- instant of the commit point that completed it: closes in the next step (R72)
  due : Option Nat := none              -- instant from which it closes when the present 64 ns step ends (R71)
  opened : Option Int := none           -- TB_SNS ns of the first entry into the span since the previous close (R291)
  prev : Option Int := none             -- TB_SNS ns of the previous close since reset
  overflow : Bool := false              -- OVERFLOW marked on the wedge (R106, R115)
  ovfCnt : Nat := 0                     -- returns and inserts marked against it since its previous frame (R291)
  pose : Bool := false                  -- pose mark (R102)
  map : Bool := false                   -- map mark (R272, R279)
deriving DecidableEq, Repr

/-- A closed wedge on its way through the device: what it latched at its close (R12, R159) and what its frame needs
(R291, R292). -/
structure WJob where
  w : Nat
  seq : Nat                             -- place in the order of closes
  golden : Bool := false
  at_ : Nat := 0                        -- TB_MONO of the close
  tClose : Int := 0                     -- TB_SNS ns of the close
  tOpen : Int := 0
  cover : Nat := 0
  missing : Nat := 0
  timeout : Bool := false
  degraded : Bool := false
  partial_ : Bool := false
  sweep : Nat := 0                      -- sweep at the close
  sweepAt : Int := 0                    -- golden: largest time offset of its returns
  rev : Nat := 0                        -- revolution in which it closed (R273)
  regs : List (Nat × BitVec 32) := []   -- the registers in effect
  centre : List (List Int) := []
  pose : Option Pose := none
  off : List (Nat × Nat) := []          -- level slots turned off (R279)
  admNo : Nat := 0
  built : Bool := false
  ovf : Bool := false                   -- OVERFLOW marks tied to the admission
  late : Option Nat := none             -- first stage that marked it LATE
  nRows : Nat := 0
  staged : List Nat := []               -- stages for which an OVERRUN or LATE entry has been logged (R161)
deriving DecidableEq, Repr

/-- The wedge pipeline from the close to the last stage (R30, R31, R123, R157). -/
structure PipeSt where
  closes : Nat := 0
  backlog : List WJob := []             -- in order of close
  flight : List WJob := []              -- admitted, in order of admission
  nextAdmit : Nat := 0
  building : Bool := false
  buildAt : Nat := 0
  restartSweep : Option Nat := none     -- sweep of the last Midnight restart (R133, R292)
  lateRev : Nat := 0                    -- LATE wedges in this revolution (R161)
  lateNow : Nat × Nat := (0, 0)         -- 64 ns step of the last LATE, and those marked in it (R161)
  dueAt : Option Nat := none            -- instant in the 64 ns step in which wedges are due to close (R71)
deriving DecidableEq, Repr

/-- The service of one column (R158, R288, R289): what the device knows when its deadline fires. -/
structure ColSvc where
  n : Nat                               -- its place in the order of deadlines
  slot : Nat
  col : Nat
  flags : Nat                           -- bits 0 to 8 of R289 except STALE and SAT
  az : Nat                              -- vehicle-frame azimuth of the column centre
  first : Int                           -- TB_SNS ns
  last : Int
deriving DecidableEq, Repr

/-- A column of a slot that is being collected into RING[0] (R107, R210). -/
structure ColBuf where
  slot : Nat
  col : Nat
  cnt : Nat := 0
  first : Int := 0
  last : Int := 0
  marks : Nat := 0                      -- bit 0 quarantine, bit 1 FALLBACK seen in its returns
  excess : Bool := false
  part : Bytes := []                    -- entries of the line not yet written
deriving DecidableEq, Repr

/-- A wait of a tile's stream (R205): what for (0 line full, 1 line empty, 2 barrier, 3 free Map Update Buffer bank,
4 room in RING[1] of `tile`, 5 a block on RING[1], 6 empty line at `tile`, 8 and 9 landings of builders and forwarded blocks, 10 a free
DRAM row read of the Table Gather Engine, R260), the line, the port, its first instant, and whether it is a SYNC. -/
structure TWait where
  kind : Nat
  line : Nat
  port : Nat
  at_ : Nat
  sync : Bool
  lines : List Nat := []                -- a SYNC's lines
  tile : Nat := 0                       -- tile whose line or ring is waited for, where it is another
deriving DecidableEq, Repr

/-- An operand found through a handle: the byte at which the handle's region begins, its length, the position at which
the operand starts, whether positions wrap in the region (a ring), its view, format code and tag mode, its ring. -/
structure Opnd where
  base : Nat
  len : Nat
  ofs : Nat
  wrap : Bool
  wide : Bool
  fmt : Nat
  tagm : Nat
  ring : Option Nat
deriving DecidableEq, Repr

/-- A loop in progress (R152). -/
structure LoopCtx where
  start : Nat                           -- index of the LOOP descriptor
  body : Nat
  count : Nat
  j : Nat
  adv : List (Nat × Int)                -- handle and step
deriving DecidableEq, Repr

/-- A descriptor issued to a queue of its tile and not completed (R154): its index, its 64 bytes, the loops it stands in,
the queue (0 MXE, 1 VXE, 2 TDM), the tag wait it is in, and how far it has come: 1 once the first pass of a HOLD chain is done (R235). -/
structure QEnt where
  n : Nat                               -- order of issue
  idx : Nat
  desc : Bytes
  loops : List LoopCtx
  q : Nat
  wait : Option TWait := none
  phase : Nat := 0
  ops : List Opnd := []                 -- operands as found when the descriptor started (R208)
  acc : List (List (BitVec 32)) := []   -- pooled rows of a map lookup that waits for reads (R260), FP32
deriving DecidableEq, Repr

/-- A piece of a remote write on its way to a window (R211, R212): source tile (0x7F the partner), transfer, window,
offset, presented partition, data. -/
structure Piece where
  src : Nat
  xfer : Nat
  win : Nat
  ofs : Nat
  part : Nat
  data : Bytes
deriving DecidableEq, Repr

/-- What goes over RING[1] (R164, R165): a partial sum of a reduce-scatter, whole, with its BS8 elements and scale bytes; or the piece
of an all-gather's slice that lies in one line of DST or SCALE, whose handle and offset are `ref`, at byte `ofs` from there. With it
its slice, the hops it has made, its partition. -/
structure RingBlk where
  sum : Bool
  slice : Nat
  hop : Nat
  part : Nat
  ref : Nat × Nat := (0, 0)
  ofs : Nat := 0
  el : Bytes
  sc : Bytes := []
deriving DecidableEq, Repr

/-- A partial sum that has landed in RING[1] and is not yet taken: its slice and hops, the byte of the ring's region from which its
lines run, its elements and scale bytes. -/
structure RingGot where
  slice : Nat
  hop : Nat
  pos : Nat
  nEl : Nat
  nSc : Nat
deriving DecidableEq, Repr

/-- One tile besides its registers and its scratchpad (R154 to R167, R188 to R218). -/
structure TileSt where
  loops : List LoopCtx := []            -- innermost first
  busy : Bool := false                  -- between ACCEPT and DONE
  doneN : Nat := 0                      -- admissions completed
  accAt : Nat := 0                      -- instant its ACCEPT completed
  lateM : Bool := false                 -- marked LATE in the running wedge or column
  hangM : Bool := false
  next : Nat := 0                       -- index of the next descriptor to issue (R154)
  issues : Nat := 0                     -- descriptors issued in the program
  queue : List QEnt := []               -- issued and not completed, in order
  wait : Option TWait := none           -- wait of a SYNC, which stops issue
  bar : Option Nat := none              -- BAR_ID reached
  cols : List ColSvc := []              -- deadlines fired and not served (R158)
  cur : Option ColSvc := none           -- column in service
  outSvc : List (Option ColSvc) := []   -- for each full line of RING[3], the column in service when it turned full (R286)
  blocks : List Nat := []               -- last stage: admissions completed, block not yet drained
  bufs : List ColBuf := []              -- open columns of RING[0]
  issued : Nat := 0                     -- MXE rows of the running wedge
  useful : Nat := 0
  ceq : List Nat := []                  -- write-back queue: addresses of words, oldest first (R197)
  scrubLine : Nat := 0                  -- next line of the background sweep (R198)
  sweepAt : Nat := 0                    -- instant of the last background sweep line
  ovfLine : Nat := 0                    -- overflow sweep: next line of each group
  inj : Nat := 0                        -- injected error of the next wide read: 1 single, 2 double (R356)
  soft : Option (Nat × Bool) := none    -- error that the present command meets: address of the word, whether double-bit
  softTag : Bool := false               -- the present command meets a tag parity error
  injTag : Bool := false
  injSeq : Bool := false
  conflictLog : Bool := false           -- a CONFLICT entry has been logged in this revolution (R194)
  win : List Piece := []                -- pieces arriving at its windows, oldest first
  rej : List (Nat × Nat) := []          -- transfers being discarded: source, transfer (R212)
  xin : List RingBlk := []              -- what arrives on RING[1], oldest first
  xgot : List RingGot := []             -- partial sums landed and not yet taken (R165)
  xwaits : List TWait := []             -- waits of what it has sent, forwards or receives from the builders (R205)
deriving DecidableEq, Repr

/-- An entry of a Map Update Buffer part (R272, R277): the sums, or bytes that replace the stored part. -/
structure MubEntry where
  die : Nat
  key : RowKey
  sums : List (BitVec 32)
  put : Option Bytes := none
  old : Bytes := []                     -- shadow: the stored value before the apply (R274)
deriving DecidableEq, Repr

/-- A bank of the Map Update Buffers of both TGEs (R272 to R274). -/
structure MubBank where
  rev : Nat
  phase : Nat                           -- 0 collecting, 1 being applied, 2 shadow
  before : Nat := 0                     -- wedges closed before this place read the shadow
  entries : List MubEntry := []         -- in order of allocation
deriving DecidableEq, Repr

/-- One Table Gather Engine besides its registers (R259 to R267). -/
structure TgeSt where
  pins : List RowKey := []
  remap : List (Nat × Nat) := []        -- unit to spare unit, keys rising
  hot : List (RowKey × Nat) := []       -- rows sampled since the last refresh, counts falling (R264)
  reads : Nat := 0                      -- DRAM reads since reset, for the samples of R264
  shard : List Nat := List.replicate 32 0
  inj : Nat := 0                        -- injected cache error (R356)
  mig : Nat := 0                        -- units moved in the running migration (R266)
  outst : List (RowKey × Nat) := []     -- outstanding DRAM row reads and the corner reads each serves, oldest first (R260)
deriving DecidableEq, Repr

/-- The map store besides its registers (R251 to R280). -/
structure MapSt where
  mem : List (Nat × Byte) := []         -- die·2^30 + byte of the map region (R253)
  tge : List TgeSt := List.replicate 2 {}
  banks : List MubBank := []            -- oldest first
  batchRev : Nat := 0                   -- next revolution to be applied (R273)
  busy : List (Nat × Nat × Nat) := []   -- level, slot, place of the switch in the order of closes (R268)
  off : List (Nat × Nat) := []          -- level slots turned off (R279)
  resync : List MubEntry := []          -- rows waiting for the next apply (R277)
  own : List MapRec := []               -- own CRC records of the last apply (R277)
  ptn : List MapRec := []               -- the partner's, not yet compared
  touched : List (Nat × Nat × Nat) := [] -- level, table, block touched by the batch being applied
  scan : Nat := 0                       -- next block of the rotating check (R277)
deriving DecidableEq, Repr

/-- A column record waiting for transmission (R288, R297). -/
structure ColRec where
  svc : ColSvc
  band : List Nat
  ground : Nat
  free : Nat
  conf : Nat
  prog : Nat
  todo : List Nat                       -- ports it is still to be sent on
  at_ : Nat                             -- instant it was queued
  seen : Bool := false                  -- has reached the Age Monitor
  stale : Bool := false                 -- has been counted as an availability failure (R360)
deriving DecidableEq, Repr

/-- A wedge frame waiting for transmission on one port (R291, R295). -/
structure WFrame where
  port : Nat
  job : WJob
  flags : Nat
  lateStage : Nat
  nCand : Nat
  ovfCnt : Nat
  epoch : Nat
  objs : List Bytes
  frag : Nat := 0                       -- next fragment
  ageClose : Nat := 0                   -- as stamped on fragment 0
deriving DecidableEq, Repr

/-- An expectation of the Age Monitor (R300). -/
structure Expect where
  wedge : Bool
  slot : Nat
  id : Nat                              -- column, or wedge number
  tClose : Int
  ends : Nat
deriving DecidableEq, Repr

/-- Output block and Age Monitor besides their registers (R284 to R305). -/
structure OutSt where
  colQ : List ColRec := []              -- oldest first
  frames : List WFrame := []
  blocks : List (Nat × Nat × Bytes) := [] -- wedge queue: admission, tile, block
  reports : List (Nat × Bytes) := []    -- mismatch reports waiting: port and body (R406)
  held : List Nat := []                 -- ports whose waiting records have been held long enough (R295)
  portSel : Nat := 0
  svcN : Nat := 0                       -- column deadlines fired, which number the services
  expects : List Expect := []           -- oldest first
  staleLog : List Nat := []             -- kinds and slots logged in this revolution (R302)
  injBad : Bool := false                -- next column entry discarded (R356)
  injAge : Bool := false                -- next column record's age raised (R356)
deriving DecidableEq, Repr

/-- An ageing-log record (R383) as the model keeps it, field by field (DEDUCED, assumption 117). -/
structure AgeRec where
  seq : Nat
  hours : Nat
  ofs : List Int                        -- AVS offsets, mV
  ref : List Nat                        -- REF_DIV of both dies
  slack : List Nat := []                -- worst slack of each compute die, ps
  ro : List Nat := []                   -- ring oscillators, kHz
  ret : List Nat := []                  -- shortest retention of both dies, ms
  eye : Nat × Nat := (0, 0)             -- lowest eye height and width, %
  temp : Int := 0                       -- highest junction temperature since the last record, 1/16 degC
deriving DecidableEq, Repr

/-- Ageing, telemetry, DRAM maintenance and self-test besides the registers (R362 to R386). -/
structure AgeSt where
  log : List AgeRec := []               -- the valid records of the ageing log, oldest first (R383)
  logDue : Bool := false                -- a failed record is to be written again (R383)
  eyeMin : Nat × Nat := (0, 0)          -- lowest eye height and width of the last ageing run (R380)
  hotMax : Int := 0                     -- highest junction temperature since the last record (R383)
  hours0 : Nat := 0                     -- hours in the log at reset (R384)
  limit : Bool := false                 -- LIFE_LIMIT has been reported
  runAt : Option Nat := none            -- instant from which the next ageing run is reckoned; none before Noon (R380)
  retHigh : List Nat := [0, 0]          -- consecutive runs with retention above 32 windows
  telAt : Nat := 0                      -- instant of the last snapshot
  telPrev : List Nat := []              -- counter values at the last snapshot
  telMax : List Int := [0, 0, 0, 0, 0, 0] -- highest temperatures in the period
  backMax : Nat := 0                    -- largest backlog in the period
  colMax : Nat := 0
  wedgeMax : Nat := 0
  sliceBad : Bool := false              -- a slice failed in the period
  lateN : Nat := 0                      -- wedges marked LATE in the period
  telRing : List Bytes := []            -- the DRAM ring of 64 records, oldest first
  telWait : List (Nat × Bytes) := []    -- port and record still unsent
  scrubAt : List Nat := [0, 0]          -- instant of the last DRAM scrub read
  scrubNext : List Nat := [0, 0]        -- next block
  zqAt : List Nat := [0, 0]
  trainAt : List Nat := [0, 0]
  phyAt : List Nat := List.replicate 13 0
  dramInj : List Nat := [0, 0]          -- injected error of the next DRAM read: 1 single, 2 double
  slice : Option (Nat × Nat × Nat) := none -- running slice, its lane group, lane or port, its start (R369)
  sliceNext : Nat := 0                  -- next slice in the order of the round
  sliceRot : List Nat := [0, 0, 0, 0]   -- next group of DRAM PHY A, B, next lane, next host port
  sliceRan : List Nat := []             -- slices run since the last round completed (R372)
  sliceFails : List (Nat × Nat) := []   -- slices, with group or lane, whose last run failed (R371)
  roundAt : Nat := 0                    -- instant the last round completed, or slices became allowed since (R372, R375)
  roundMiss : Bool := false             -- the overrun of the running round has been reported
  sliceEnd : Nat := 0                   -- end of the last slice
  thermAt : Option Nat := none          -- instant of the last THERM_HI entry
  defer : Nat := 0                      -- count of the mark that ends the revolution after a forced injection fell due, plus 1; 0: none due
  goldOpen : Bool := false              -- an opportunity since the last revolution mark, or no mark since Noon began
  goldOk : Bool := false                -- the golden head gave opportunities at the last revolution mark (R363)
  forced : Bool := false                -- a forced golden wedge pre-empts P2 (R365)
  goldT0 : Option Nat := none           -- a golden injection is running: the sweep current at its start (R132)
deriving DecidableEq, Repr

/-- A partner-link frame before its sequence number (R394): TYPE, FLAGS, SLOT, payload. -/
structure LinkBody where
  type : Nat
  flags : Nat := 0
  slot : Nat := 0
  payload : Bytes := []
deriving DecidableEq, Repr

/-- A sequenced frame of the partner link in the replay buffer (R396). -/
structure LinkFrame where
  lseq : Nat
  at_ : Nat                             -- instant it was last sent
  body : LinkBody
deriving DecidableEq, Repr

/-- An own or partner cross-check record that waits for its match (R405). -/
structure XcWait where
  xr : XcRec
  at_ : Nat
deriving DecidableEq, Repr

/-- The partner link besides its registers (R392 to R409). -/
structure PlkSt where
  txSeq : Nat := 0                      -- LSEQ of the last sequenced frame
  rxSeq : Nat := 0                      -- highest LSEQ received in order
  replay : List LinkFrame := []         -- oldest first
  txWait : List LinkBody := []          -- sequenced frames that wait for room in it
  lastTx : Nat := 0                     -- instant the last frame left
  lastRx : Nat := 0                     -- instant the last frame arrived
  hbAt : Nat := 0                       -- instant of the last heartbeat edge
  hbLost : Bool := false                -- judged lost by heartbeat (R407)
  hbLostAt : Nat := 0
  remote : Nat := 0                     -- bit k: slot k local on the partner
  txPrev : List (List Nat) := List.replicate 8 [] -- words of the last packet forwarded, per slot
  txKey : List Bool := List.replicate 8 true      -- the next packet sets KEY
  txFwd : List Nat := List.replicate 8 0          -- next forward sequence number
  rxPrev : List (List Nat) := List.replicate 8 []
  rxFwd : List (Option Nat) := List.replicate 8 none -- forward sequence number expected next
  fwdEnd : Nat := 0                     -- instant at which the queued FWD frames will have left the one lane in service
  xcOwn : List XcWait := []
  xcPtn : List XcWait := []
  autoAt : List Nat := []               -- instants of automatic pulses, newest first
  lanesOut : Nat := 0                   -- lanes removed for good (R368, R393)
  pulseAt : Option Nat := none          -- start of the running pulse
  lastPulse : Option Nat := none
  timeAt : Option Nat := none           -- instant of the last TIME frame sent
  timeRx : Int := 0                     -- TB_SNS, ns, at the partner's latest TIME frame (R54)
deriving DecidableEq, Repr

/-- The Security Island besides its registers (R412 to R430). -/
structure SecSt where
  rngBad : Bool := false                -- the random source is stopped (R414)
  otp : List (Nat × Byte) := []         -- the OTP, 4 KiB (R415)
  flash : List (Nat × Byte) := []       -- the SPI flash (R419, R420)
  recBuf : List (Nat × Byte) := []      -- the recovery buffer, 1 MiB (R422)
  fwHead : Bytes := []                  -- header of the running firmware (R419); empty: none runs
  waits : Option BootInput := none      -- the boot ROM waits for a recovery image (R422), with what Dawn will meet
  recovered : Bool := false             -- the running firmware came by recovery
  flashAt : Option Nat := none          -- FLASH_WR runs since then
  otpOp : Option Nat := none            -- OTP command that runs: 1 PROG_KEY, 2 REVOKE, 3 ADV_ARB, 4 ADV_LC (R416)
  otpSlot : Nat := 0                    -- its operands as taken: slot, DEBUG_OK, target
  otpDbg : Bool := false
  otpTarget : Nat := 0
  otpKey : List Nat := []               -- the key words to program
  attBody : Bytes := []                 -- body of the report being signed
  att : Bytes := []                     -- the attestation report (R425)
  unlockEnd : List Nat := [0, 0, 0]     -- end of the validity of each unlocked scope (R427)
  nonce : Option (Bytes × Nat) := none  -- unlock nonce not yet used, and when it was issued
  failAt : Option Nat := none           -- instant of the last rejected token
  monWait : List (Option Nat) := []     -- monitor commands that wait for the random source: a claim with its PRIO, else `unlock` (R414)
  tok : Bytes := []                     -- token bytes collected by `tok`
  baud : Nat := 115200                  -- rate of the monitor's port (R428)
  lineAt : Nat := 0                     -- instant of the last line received
  jtag : Nat := 1                       -- TAP instruction: 0 BYPASS, 1 IDCODE, 2 SAMPLE/PRELOAD, 3 EXTEST, 4 CLAMP, 5 HIGHZ,
                                        -- 6 debug access
deriving DecidableEq, Repr

/-- A frame of ERAP received on a host port (R313), as queued (R319). -/
structure ErapFrame where
  port : Nat
  srcMac : Nat
  srcIp : Nat
  srcUdp : Nat
  payload : Bytes
  arrived : Nat
  chan : Option Nat                     -- receive channel that carried it; none without MACsec (R313)
  own : Bool                            -- accepted as the owner's (R323)
deriving DecidableEq, Repr

/-- A claim waiting in an election window (R322). -/
structure Claim where
  m : Nat
  prio : Nat
  nonce : Nat
  req : Option ErapFrame                -- none: the monitor's
deriving DecidableEq, Repr

/-- The last executed frame of a master and its response (R317). -/
structure LastFrame where
  seq : Nat
  at_ : Nat
  resp : Option Bytes                   -- none while an election holds the response
deriving DecidableEq, Repr

/-- Ownership (R320 to R325). -/
structure OwnSt where
  owner : Option Nat := none
  token : Nat := 0
  prio : Nat := 0
  leaseEnd : Nat := 0
  window : Option Nat := none           -- end of the open election window
  claims : List Claim := []
  offer : Option (Nat × Nat) := none    -- target and end of a handover offer
  last : List (Option LastFrame) := [none, none]
  acc : List (Option ErapFrame) := [none, none] -- last accepted frame of each host client: where its NOTIFY frames go (R329)
  notifySeq : List Nat := [0, 0]
  notifyAt : List (Option Nat) := [none, none] -- last NOTIFY per host client
  notifyDue : List Bool := [false, false]      -- a page has raised notification since
  wasOut : List Nat := []               -- pages whose PG_IRQ_OUT is non-zero and which have raised notification
deriving DecidableEq, Repr

/-- One MACsec security association (R310, R312). -/
structure Sa where
  key : Option (List Nat) := none       -- eight words
  pn : Nat := 1                         -- next packet number
deriving DecidableEq, Repr

/-- A control datagram that waits for its port (R307): destination MAC, IP and UDP port, source port, and whether it leaves unprotected
although MACsec is in force from then on (R309). -/
structure TxWait where
  mac : Nat
  ip : Nat
  dst : Nat
  src : Nat
  plain : Bool
  body : Bytes
deriving DecidableEq, Repr

/-- A host port's state besides the registers (R296, R297, R306 to R312). -/
structure HostPort where
  sas : List Sa := List.replicate 6 {}
  enAfter : Bool := false               -- MACSEC.EN has been written and takes effect after the response (R309)
  key : List Nat := List.replicate 8 0  -- HS.KEY words as written (R310)
  off : Bool := false                   -- left powered off after slice 0xC (R368)
  busyUntil : Nat := 0
  arp : Option Nat := none              -- MAC of the resolved destination (R296)
  arpSince : Nat := 0                   -- instant at which the running resolution began
  arpAt : Nat := 0                      -- instant of the last request or answer
  arpRun : Bool := false                -- a resolution is running
  seq : List Nat := [0, 0, 0]           -- SEQ of the next datagram of TYPE 1, 2, 3 (R295)
  txQ : List TxWait := []               -- ERAP responses and notifications that wait for the port, oldest first (R307)
deriving DecidableEq, Repr

/-- A fault-log entry (R345). -/
structure FaultEntry where
  w0 : Nat
  w1 : Nat
  tNs : Nat
deriving DecidableEq, Repr

/-- The faults of one cycle (R344): its instant, the log and HANDLING before its first fault, and its entries in the order in which
they are logged. -/
structure CycleFaults where
  at_ : Option Nat := none
  log : List FaultEntry := []
  handling : Bool := false
  entries : List FaultEntry := []
deriving DecidableEq, Repr

/-- Safety Island state besides the registers (R345 to R355). -/
structure SafetySt where
  flog : List FaultEntry := []          -- oldest first
  restarts : List Nat := []             -- instants of restarts begun, newest first
  handling : Bool := false
  refilled : Bool := false              -- the refill of the running restart or Noon entry is complete
  noonEntry : Bool := false             -- Noon entry is running (R434)
  holdAt : Option Nat := none           -- instant at which entry to Hold began
  duskAt : Nat := 0
  wdtStop : Option Nat := none          -- instant from which an injection has stopped watchdog service (R356)
  released : Bool := false              -- PORST_N is high
  act : Nat := 0                        -- highest class C2, C3 raised in the running command, its action still due (R344)
  holdCause : Nat := 1                  -- cause to record with that action
  now : CycleFaults := {}               -- the faults detected in the present cycle (R344)
  wedgeSeen : Bool := false             -- a wedge has closed since the last entry to Noon (R13)
  survive : Bool := false               -- what survived a restart waits for the first wedge boundary in Noon (R15)
deriving DecidableEq, Repr

/-- What hardware and software have done at the present instant, for writes of the same cycle (R17, R18): register addresses and
words. -/
structure CycleSt where
  sets : List (Nat × BitVec 32) := []   -- bits that the hardware has set
  loads : List (Nat × BitVec 32) := []  -- RW words that the hardware has loaded
  again : List (Nat × BitVec 32) := []  -- W1S bits that software has set although they were set
deriving DecidableEq, Repr

/-- The output pins and open inputs (R459, R460). -/
structure Pins where
  faultN : Bool := false                -- false: low
  cmpPwrEn : Bool := false
  hbOut : Bool := false                 -- true: the heartbeat toggles (R407)
  rstOut : Bool := false                -- true: PARTNER_RST_OUT drives a pulse (R409)
  ppsOut : Bool := false
deriving DecidableEq, Repr

/-- How a frame leaves a host port (R307, R308): the PCP and VID of its 802.1Q tag; its SecTAG: SCI, association number, packet number,
and whether its data is encrypted. -/
structure Wrap where
  vlan : Option (Nat × Nat) := none
  sec : Option (Nat × Nat × Nat × Bool) := none
deriving DecidableEq, Repr

/-- What the device has sent, in order (assumption 3). -/
inductive Emit where
  /-- A UDP datagram: port, destination MAC, IP and UDP port, source UDP port, how its frame is wrapped. -/
  | udp (q : Port) (mac ip udpDst udpSrc : Nat) (w : Wrap) (payload : Bytes)
  /-- An ARP request for an address. -/
  | arpReq (q : Port) (ip : Nat) (w : Wrap)
  /-- An ARP reply. -/
  | arpRep (q : Port) (mac ip : Nat) (w : Wrap)
  /-- An ICMP echo reply. -/
  | icmp (q : Port) (mac ip : Nat) (w : Wrap) (payload : Bytes)
  /-- A gPTP message: message type of IEEE 802.1AS, domain, and its fields in the order and byte order of that standard (R7):
  correction in 2^-16 ns, sequence number, the 80-bit time value where it carries one (R42). -/
  | gptp (q : Port) (kind domain : Nat) (fields : Bytes)
  /-- A partner-link frame, header to CRC-32 (R394). -/
  | link (frame : Bytes)
  /-- A line of the Miride monitor (R429). -/
  | uart (line : Bytes)
  /-- An SPI read of the inertial sensor (R465). -/
  | spi (cmd : Nat)
  /-- Data shifted out of the JTAG TAP (R430). -/
  | tdo (value : Nat)
deriving DecidableEq, Repr

end Sys2Proof.Machine
end

