-- ==== Sys2Proof/Machine/State.lean ====
section
/-! DEFINITION. The state of the AT-48 as plain data, and the state right after reset. -/

namespace Sys2Proof.Machine

/-- The machine. `pending` is the queue of waiting commands, oldest first. `regs` holds every register of the page map
whose value differs from its reset value (addresses strictly rising); `shadow` the pending SH words (R12). -/
structure State where
  pending : List Instr := []
  mono : Nat := 0                       -- TB_MONO, 1/16 ns (R43)
  regs : List (Nat × BitVec 32) := []
  shadow : List (Nat × BitVec 32) := []
  time : TimeSt := {}
  gptp : List Gptp := List.replicate 10 {}
  trackers : List Tracker := List.replicate 8 {}
  rev : RevSt := {}
  heads : List HeadSt := List.replicate 8 {}
  pose : PoseSt := {}
  ing : List IngSt := List.replicate 2 {}
  vhu : List VhuSt := List.replicate 2 {}
  grids : GridSt := {}
  ms : MsSt := {}
  wedges : List WedgeSt := List.replicate 64 {}
  pipe : PipeSt := {}
  tiles : List TileSt := List.replicate 80 {}
  spd : List (Nat × Byte) := []         -- scratchpads: g·2^22 + byte (R189)
  tags : List Nat := []                 -- full lines: g·8192 + line, rising (R202)
  dram : List (Nat × Byte) := []        -- DRAM regions: die·2^31 + byte (R338)
  map : MapSt := {}
  out : OutSt := {}
  age : AgeSt := {}
  plk : PlkSt := {}
  sec : SecSt := {}
  image : Bytes := []                   -- the held image: its copy in DRAM (R35, R141); empty: none held
  loadBuf : List (Nat × Byte) := []     -- the load buffer, 320 MiB (R327)
  erapQ : List ErapFrame := []
  own : OwnSt := {}
  hosts : List HostPort := List.replicate 2 {}
  safety : SafetySt := {}
  pins : Pins := {}
  cyc : CycleSt := {}
  p2 : Bool := false                    -- the variant, fixed in manufacture: AT48-P2, else AT48-P3 (R1)
  free : Nat := 0                       -- the model's own: next free value (assumption 6)
  outbox : List Emit := []              -- the model's own: what has been sent, oldest first (assumption 3)
deriving DecidableEq, Repr

/-- Fault reasons of the model: none. The device's faults C0 to C3 are state changes (R343). -/
inductive Fault where
deriving DecidableEq, Repr

/-- Refusals. -/
inductive Refusal where
  /-- Raised by a dispatch arm whose command has no meaning yet; safe: it stops where the device goes on. -/
  | notModelled (mnemonic : String)
deriving DecidableEq, Repr

/-- The machine with reset applied and PORST_N not yet released (R448): every field at its reset value, registers at
the values of their tables, on an AT48-P3 (assumption 8). -/
def State.reset : State := {}

end Sys2Proof.Machine
end

