-- ==== Sys2Proof/Machine/Ops.lean ====
section
/-! DEFINITION. The named operations over registers, pages, time and the record of what is sent, which every meaning
is built from. -/

namespace Sys2Proof.Machine

/-- What a meaning answers. -/
abbrev Out := Host.Outcome State Fault Refusal

/-! ### The register space -/

/-- The block of a page (R332). -/
def blockOf (page : Nat) : Option BlockDef := blocks.find? (fun b => b.page ≤ page && decide (page < b.page + b.pages))

/-- Whether a register row covers a page offset. -/
def RegDef.covers (d : RegDef) (ofs : Nat) : Bool :=
  d.ofs ≤ ofs && (if d.stride = 0 then ofs = d.ofs else (ofs - d.ofs) % d.stride = 0 && decide ((ofs - d.ofs) / d.stride < d.count))

/-- The array index of an offset in its row. -/
def RegDef.index (d : RegDef) (ofs : Nat) : Nat := if d.stride = 0 then 0 else (ofs - d.ofs) / d.stride

/-- The row of an address, with its block: a block register, or a register of the common header (R331). -/
def regDef (addr : Nat) : Option (BlockDef × RegDef) :=
  match blockOf (addr / 4096) with
  | none => none
  | some b =>
    match (if addr % 4096 < 0x40 then pgRegs else b.regs).find? (fun d => d.covers (addr % 4096)) with
    | none => none
    | some d => some (b, d)

/-- The reset value of the register at an address (R331, R332, R473); 0 where no register stands. -/
def regDefault (addr : Nat) : BitVec 32 :=
  match regDef addr with
  | none => 0
  | some (b, d) =>
    if addr % 4096 = 0x000 then BitVec.ofNat 32 (addr / 4096 + b.code * 65536)
    else if addr % 4096 = 0x028 then BitVec.ofNat 32 b.parts
    else if d.perPage then BitVec.ofNat 32 (d.resets.getD (addr / 4096 - b.page) 0)
    else BitVec.ofNat 32 (d.resets.getD (d.index (addr % 4096)) (d.resets.getLast?.getD 0))

/-- What an AT48-P2 reads where it differs (R1): SYS.ID and TILE.SPD_SIZE. -/
def p2Word (addr : Nat) : Option (BitVec 32) :=
  if addr = 0x40 then some 0x00220048
  else if 0x100 ≤ addr / 4096 && decide (addr / 4096 < 0x150) && addr % 4096 = 0x200 then some 0x02100800
  else none

/-- The reset value of the register at an address on the variant fitted. -/
def State.dflt (s : State) (addr : Nat) : BitVec 32 := if s.p2 then (p2Word addr).getD (regDefault addr) else regDefault addr

/-- The value in effect of the register at an address. -/
def State.reg (s : State) (addr : Nat) : Nat := (rd (s.dflt addr) s.regs addr).toNat

/-- `s` with the value in effect of a register changed. -/
def State.setReg (s : State) (addr v : Nat) : State :=
  { s with regs := wr (s.dflt addr) s.regs addr (BitVec.ofNat 32 v) }

/-- The value in effect of a field. -/
def State.get (s : State) (f : Fld) : Nat := bitsOf (s.reg f.addr) f.lo f.w

/-- `s` with a field's value in effect changed. -/
def State.put (s : State) (f : Fld) (v : Nat) : State := s.setReg f.addr (withBits (s.reg f.addr) f.lo f.w v)

/-- Whether a one-bit field reads 1. -/
def State.on (s : State) (f : Fld) : Bool := s.get f = 1

/-- A field read as a two's complement number. -/
def State.getI (s : State) (f : Fld) : Int := signedOf f.w (s.get f)

/-- Bits added to the word kept for an address. -/
def orAt (l : List (Nat × BitVec 32)) (a : Nat) (v : BitVec 32) : List (Nat × BitVec 32) := ins a ((find a l).getD 0 ||| v) l

/-- `s` with a one-bit field set, and noted as set at this instant (R17). -/
def State.set1 (s : State) (f : Fld) : State :=
  { (s.put f 1) with cyc := { s.cyc with sets := orAt s.cyc.sets f.addr (BitVec.ofNat 32 (2 ^ f.lo)) } }

/-- `s` with a W1S field cleared by the hardware: what software has set again at this instant ends set (R17). -/
def State.clr (s : State) (f : Fld) : State := s.put f (bitsOf ((find f.addr s.cyc.again).getD 0).toNat f.lo f.w)

/-- `s` with bits `v` of a W1S field noted as set again by software at this instant (R17). -/
def State.noteAgain (s : State) (f : Fld) (v : Nat) : State :=
  if v = 0 then s else { s with cyc := { s.cyc with again := orAt s.cyc.again f.addr (BitVec.ofNat 32 (v * 2 ^ f.lo)) } }

/-- `s` with a field of type RW loaded by the hardware, and its register noted as loaded at this instant (R18). -/
def State.load (s : State) (f : Fld) (v : Nat) : State :=
  let s := s.put f v
  { s with cyc := { s.cyc with loads := ins f.addr (BitVec.ofNat 32 (s.reg f.addr)) s.cyc.loads } }

/-- `s` with a one-bit field set where `b`. -/
def State.set1If (s : State) (b : Bool) (f : Fld) : State := if b then s.set1 f else s

/-- A counter field raised by `n`, saturating at its highest value (R10). -/
def State.addCnt (s : State) (f : Fld) (n : Nat) : State := s.put f (satU f.w (s.get f + n))

/-- A counter raised by 1 (R10). -/
def State.bump (s : State) (f : Fld) : State := s.addCnt f 1

/-- A field raised to `v` where `v` is above it. -/
def State.putMax (s : State) (f : Fld) (v : Nat) : State := if s.get f < v then s.put f (satU f.w v) else s

/-- A 64-bit counter in a register pair raised by 1, saturating (R361). -/
def State.bump64 (s : State) (lo hi : Fld) : State :=
  let v := satU 64 (s.get lo + s.get hi * 2 ^ 32 + 1)
  (s.put lo (v % 2 ^ 32)).put hi (v / 2 ^ 32)

/-! ### Device states (R432) -/

abbrev dsDawn : Nat := 1
abbrev dsReady : Nat := 2
abbrev dsNoon : Nat := 3
abbrev dsDusk : Nat := 4
abbrev dsMidnight : Nat := 5
abbrev dsHold : Nat := 6

/-- SYS.STATE.STATE. -/
def State.dev (s : State) : Nat := s.get SYS.STATE_STATE

/-- The device states in which an activity runs (R376). -/
def actAllowed (d code : Nat) : Bool :=
  if d = dsNoon || d = dsDusk then true
  else if d = dsReady then 6 ≤ code || code = 0
  else if d = dsMidnight then code = 7 || code = 8 || code = 10 || code = 11
  else d = dsHold && code = 10

/-- Change of device state (R335: STATE, PREV and STATE_CHANGE). Deadlines of waiting activities that the new state lets
run are reckoned from here (R375). -/
def State.setDev (s : State) (d : Nat) : State :=
  if s.dev = d then s
  else
    let old := s.dev
    let s : State := { s with ms := { s.ms with pend := s.ms.pend.map (fun a =>
      if !actAllowed old a.code && actAllowed d a.code then { a with at_ := s.mono, mark := s.rev.count } else a) },
                              age := { s.age with roundAt := if !actAllowed old 6 && actAllowed d 6 then s.mono else s.age.roundAt } }
    ((s.put SYS.STATE_PREV s.dev).put SYS.STATE_STATE d).set1 SYS.EVT_STATE_CHANGE

/-- The part is out of reset. -/
def State.released (s : State) : Bool := s.safety.released

/-- No wedge is being processed (R13): Dawn, Ready, Hold, and Noon until the first wedge close after its entry. -/
def State.noWedge (s : State) : Bool :=
  s.dev = dsDawn || s.dev = dsReady || s.dev = dsHold || (s.dev = dsNoon && !s.safety.wedgeSeen)

/-! ### Time -/

/-- `s` with TB_MONO at an instant: it never runs backwards (R43). What the last cycle has done is behind it where it moves. -/
def State.clock (s : State) (t : Nat) : State :=
  { s with mono := max s.mono t, cyc := if s.mono < t then {} else s.cyc }

/-- The 64 ns evaluation step of an instant (R68, R71). -/
def evalStep (x : Nat) : Nat := x / (64 * tickNs)

/-- TB_MONO in ns. -/
def State.monoNs (s : State) : Nat := s.mono / tickNs

/-- A slewed base at the present instant, in 1/16 ns; the value is floored. -/
def Base.at_ (b : Base) (mono : Int) : Int :=
  let d : Int := mono - b.monoAt
  b.valAt + d + d * b.rate / 16000000000

/-- TB_SNS in 1/16 ns. -/
def State.sns (s : State) : Int := s.time.sns.at_ s.mono

/-- TB_SNS in ns. -/
def State.snsNs (s : State) : Int := s.sns / 16

/-- TB_VEH in 1/16 ns. -/
def State.veh (s : State) : Int := s.time.veh.at_ s.mono

/-- What waits for a wedge boundary takes effect at once: no wedge is being processed, and nothing that survived a restart waits for
the first boundary after it (R13, R15). -/
def State.actsNow (s : State) : Bool := s.noWedge && !s.safety.survive

/-- A new free value (assumption 5). -/
def State.random (s : State) : Nat × State := ((Config.freeWord s.free).toNat, { s with free := s.free + 1 })

/-- `n` free words. -/
def State.randoms (s : State) : Nat → List Nat × State
  | 0 => ([], s)
  | n + 1 =>
    let (v, s) := s.random
    let (vs, s) := s.randoms n
    (v :: vs, s)

/-- `s` with a message recorded as sent. -/
def State.emit (s : State) (e : Emit) : State := { s with outbox := s.outbox ++ [e] }

end Sys2Proof.Machine
end

