-- ==== Sys2Proof/Machine/Faults.lean ====
section
/-! DEFINITION. Fault reports: the log, the four severity classes and their actions (R343 to R348), R355. -/

namespace Sys2Proof.Machine

/-- Fields of a frame's header (R313). -/
def ErapFrame.type (f : ErapFrame) : Nat := fieldB f.payload 3 1
def ErapFrame.seq (f : ErapFrame) : Nat := fieldB f.payload 4 4
def ErapFrame.token (f : ErapFrame) : Nat := fieldB f.payload 8 4
def ErapFrame.client (f : ErapFrame) : Nat := fieldB f.payload 12 1
def ErapFrame.count (f : ErapFrame) : Nat := fieldB f.payload 13 1
def ErapFrame.body (f : ErapFrame) : Bytes := f.payload.drop 16

/-- What a LOAD frame loads (R326): the first byte of its body. -/
def ErapFrame.target (f : ErapFrame) : Nat := fieldB f.body 0 1

/-- Block code of a page (R332). -/
def blockCode (page : Nat) : Nat := ((blockOf page).map (fun b => b.code)).getD 0

/-- The index of the newest entry of the lowest class in the log. -/
def lowestNewest (l : List FaultEntry) : Nat × Nat :=
  let lo := l.foldl (fun m e => min m (bitsOf e.w0 0 2)) 3
  (lo, (l.zipIdx.filter (fun e => bitsOf e.1.w0 0 2 = lo)).foldl (fun m e => max m e.2) 0)

/-- The log with an entry added (R345, R346), and whether one was lost. -/
def pushFault (l : List FaultEntry) (e : FaultEntry) : List FaultEntry × Bool :=
  if l.length < 16 then (l ++ [e], false)
  else
    let (lo, i) := lowestNewest l
    if lo < bitsOf e.w0 0 2 then (l.eraseIdx i ++ [e], true) else (l, true)

/-- PG_FAULT of the reporting page (R331, R345). -/
def State.pgFault (s : State) (page cls : Nat) : State :=
  (((s.putMax (PG.FAULT_MAXSEV page) cls).set1 (PG.FAULT_VALID page)).addCnt (PG.FAULT_COUNT page) 1)

/-- The class action that a report leaves due at the end of the command (R343, R344): none below C2. -/
def State.due (s : State) (cls cause : Nat) : State :=
  if cls < 2 then s
  else { s with safety := { s.safety with act := max s.safety.act cls,
                                          holdCause := if s.safety.act < cls then cause else s.safety.holdCause } }

/-- An entry's place among those of its cycle (R344): ascending page, then ascending event bit; of one place, in order of arrival. -/
def insFault (e : FaultEntry) : List FaultEntry → List FaultEntry
  | [] => [e]
  | x :: l =>
    if bitsOf e.w0 16 12 < bitsOf x.w0 16 12 || (bitsOf e.w0 16 12 = bitsOf x.w0 16 12 && bitsOf e.w1 0 8 < bitsOf x.w1 0 8) then e :: x :: l
    else x :: insFault e l

/-- The faults detected in the present cycle so far: none, of another instant than this. -/
def State.cycleFaults (s : State) : CycleFaults :=
  if s.safety.now.at_ = some s.mono then s.safety.now
  else { at_ := some s.mono, log := s.safety.flog, handling := s.safety.handling }

/-- The log with the entries of a cycle added to the log before it, and whether one was lost. -/
def CycleFaults.flog (c : CycleFaults) : List FaultEntry × Bool :=
  c.entries.foldl (fun p e => let r := pushFault p.1 e; (r.1, p.2 || r.2)) (c.log, false)

/-- A report of class `cls` from `page`: logged, unless the Fault Sequencer has acted (R355), and its action due.
`event` is the event's bit in PG_IRQ_RAW or 0xFF, `parts` the partitions involved, `admNo` the admission number in
progress at the page or 0xFFFF (R345); `inj` marks an injected fault (R356). -/
def State.report (s : State) (cls page event parts admNo : Nat) (inj : Bool) : State :=
  if s.on SI.FSQ_ACTED then s
  else
    let e : FaultEntry := {
      w0 := cls + b2n s.cycleFaults.handling * 4 + b2n inj * 8 + blockCode page * 256 + page * 65536
      w1 := event % 256 + (parts % 256) * 256 + (admNo % 65536) * 65536
      tNs := s.monoNs % 2 ^ 64 }
    let c := { s.cycleFaults with entries := insFault e s.cycleFaults.entries }
    let (l, lost) := c.flog
    let s := { s with safety := { s.safety with flog := l, now := c } }
    let s := (s.put SI.STAT_FLOG_OCC l.length).putMax SI.STAT_MAXSEV cls
    ((s.set1If lost SI.EVT_FAULT_LOST).pgFault page cls).due cls 1

/-- The admission number in progress at a page (R345): a tile's while it serves a wedge, else 0xFFFF. -/
def State.admitOf (s : State) (page : Nat) : Nat :=
  if 0x100 ≤ page && (s.get (TILE.STAT_STATE (page - 0x100)) = 2 || s.get (TILE.STAT_STATE (page - 0x100)) = 3)
      && s.get (TILE.ROLE_ROLE (page - 0x100)) = 1 then s.get (TILE.ADMIT_NUM (page - 0x100))
  else 0xFFFF

/-- The position of an event field in PG_IRQ_RAW: scratchpad events stand at bit 8 upward (R215). -/
def Fld.irqBit (f : Fld) : Nat := if f.addr % 4096 = 0x210 then f.lo + 8 else f.lo

/-- An event bit set and its report of class `cls` made. -/
def State.raise (s : State) (f : Fld) (cls : Nat) (parts : Nat := 0) (inj : Bool := false) : State :=
  (s.set1 f).report cls (f.addr / 4096) f.irqBit parts (s.admitOf (f.addr / 4096)) inj

/-- A report without an event bit (EVENT 0xFF). -/
def State.plain (s : State) (page cls : Nat) (parts : Nat := 0) (inj : Bool := false) : State :=
  s.report cls page 0xFF parts (s.admitOf page) inj

/-- `f` where `c` holds, else nothing: an event whose condition does not hold does not happen (assumption 2). -/
def State.when (s : State) (c : Bool) (f : State → State) : State := if c then f s else s

end Sys2Proof.Machine
end

