-- ==== Sys2Proof/Machine/Dram.lean ====
section
/-! DEFINITION. The DRAM dies as every requester meets them: regions and partitions (R338, R339), errors (R356, R378), the map's
region (R253). -/

namespace Sys2Proof.Machine

/-! ### Regions (R338, R339) -/

/-- The enabled region of a die that holds `n` bytes from an address on. -/
def State.regionAt (s : State) (die addr n : Nat) : Option Nat :=
  ((List.range 16).map (fun i => 16 * die + i)).find? (fun i => s.on (SI.REGION_ATTR_EN i) &&
    s.get (SI.REGION_BASE_MIB i) * 2 ^ 20 ≤ addr &&
    decide (addr + n ≤ (s.get (SI.REGION_BASE_MIB i) + s.get (SI.REGION_SIZE_MIB i)) * 2 ^ 20))

/-- Whether a partition may read or write `n` bytes of DRAM; `tge`: a Table Gather Engine makes the access. -/
def State.dramOk (s : State) (die addr n part : Nat) (write tge : Bool) : Bool :=
  match s.regionAt die addr n with
  | none => false
  | some i =>
    if write then bitOf (s.get (SI.REGION_ATTR_WPARTS i)) part && !s.on (SI.REGION_ATTR_LOADONLY i)
    else bitOf (s.get (SI.REGION_ATTR_RPARTS i)) part && (tge || part ≠ 1 || !s.on (SI.REGION_ATTR_VIA_TGE i))

/-- A DRAM access that no region admits (R339). -/
def State.dramViol (s : State) (die addr part : Nat) (write : Bool) : State :=
  let s := ((s.put SI.VIOL_ADDR_ADDR addr).put SI.VIOL_ADDR_DIE die).put SI.VIOL_INFO_PART part
  (((s.put SI.VIOL_INFO_WRITE (b2n write)).set1 SI.VIOL_INFO_VALID).bump SI.VIOL_CNT).raise SI.EVT_DRAM_VIOL 2 (2 ^ part)

/-- The region of die `u` that holds the map (R253, R338): the enabled region with VIA_TGE. -/
def State.mapRegion (s : State) (u : Nat) : Option Nat :=
  ((List.range 16).map (fun i => 16 * u + i)).find? (fun i => s.on (SI.REGION_ATTR_EN i) && s.on (SI.REGION_ATTR_VIA_TGE i))

/-- The die address of a byte of the map region. -/
def State.mapDieAddr (s : State) (u a : Nat) : Nat :=
  ((s.mapRegion u).map (fun i => s.get (SI.REGION_BASE_MIB i) * 2 ^ 20)).getD 0 + a

/-- An access of the Table Gather Engine of die `u` to `n` bytes of its map region (R35, R338, R339): P2 for map maintenance, else for
the tile that asks. None where it is not performed; the violation is then reported. -/
def State.mapAccess (s : State) (u a n part : Nat) (write : Bool) : Option State :=
  if (s.mapRegion u).isSome && s.dramOk u (s.mapDieAddr u a) n part write true then some s else none

/-- The region of die `u` that holds its Ingest Engine's pose-wait buffer (R35, R102): the spec names no place for it; it is the
enabled region of 32 MiB that is neither the map's nor LOADONLY (DESIGN CHOICE, assumption 78). -/
def State.poseRegion (s : State) (u : Nat) : Option Nat :=
  ((List.range 16).map (fun i => 16 * u + i)).find? (fun i => s.on (SI.REGION_ATTR_EN i) && s.get (SI.REGION_SIZE_MIB i) = 32 &&
    !s.on (SI.REGION_ATTR_VIA_TGE i) && !s.on (SI.REGION_ATTR_LOADONLY i))

/-! ### Errors (R356, R378) -/

/-- A corrected DRAM error of die `u` at a byte (R378). -/
def State.dramCe (s : State) (u addr : Nat) (scrub inj : Bool) : State :=
  let s := ((s.bump (DRAM.CE_CNT u)).put (DRAM.ECC_ADDR_ADDR u) addr).put (DRAM.ECC_INFO_UE u) 0
  ((s.put (DRAM.ECC_INFO_SCRUB u) (b2n scrub)).set1 (DRAM.ECC_INFO_VALID u)).raise (DRAM.EVT_CE u) 1 0 inj

/-- An uncorrectable DRAM error recorded on the controller's page. -/
def State.dramUeInfo (s : State) (u addr : Nat) (scrub : Bool) : State :=
  let s := ((s.bump (DRAM.UE_CNT u)).put (DRAM.ECC_ADDR_ADDR u) addr).set1 (DRAM.ECC_INFO_UE u)
  (s.put (DRAM.ECC_INFO_SCRUB u) (b2n scrub)).set1 (DRAM.ECC_INFO_VALID u)

/-- An injected error taken by the next DRAM read of a die (R356): the result the read meets, whether it was injected. -/
def State.dramInject (s : State) (u : Nat) (e : EccRes) : EccRes × Bool × State :=
  let clear : State := { s with age := { s.age with dramInj := s.age.dramInj.set u 0 } }
  match s.age.dramInj.getD u 0 with
  | 0 => (e, false, s)
  | 1 => (.corrected, true, clear)
  | 3 => (.corrected, false, clear)
  | 4 => (.uncorrectable, false, clear)
  | _ => (.uncorrectable, true, clear)

end Sys2Proof.Machine
end

