-- ==== Sys2Proof/Machine/Formats.lean ====
section
/-! DEFINITION. Number formats and arithmetic (R168 to R184): exact dyadic values, the floating-point and integer codes,
block scaling, rounding. -/

namespace Sys2Proof.Machine

/-- A value: NaN, an infinity, or the exact number `± m · 2^e` (signed zero kept, R172). -/
inductive Num where
  | nan
  | inf (neg : Bool)
  | fin (neg : Bool) (m : Nat) (e : Int)
deriving DecidableEq, Repr

/-- Positive zero. -/
def Num.zero : Num := .fin false 0 0

/-- An integer. -/
def Num.ofInt (x : Int) : Num := .fin (decide (x < 0)) x.natAbs 0

/-- `m / 2^k`, rounded to nearest with ties to even (R182). -/
def rneShift (m k : Nat) : Nat :=
  let q := m / 2 ^ k
  let r := m % 2 ^ k
  if 2 ^ k < 2 * r || (2 * r = 2 ^ k && q % 2 = 1) then q + 1 else q

/-- `m · 2^e` in units of `2^q`, rounded to nearest with ties to even. -/
def rneUnits (m : Nat) (e q : Int) : Nat :=
  if q ≤ e then m * 2 ^ (e - q).toNat else rneShift m (q - e).toNat

/-- A floating-point format (R171): exponent bits, bias, fraction bits, largest finite code, and whether it has
infinities. -/
structure FFmt where
  eb : Nat
  bias : Nat
  fb : Nat
  maxFin : Nat
  hasInf : Bool
  qnan : Nat
deriving DecidableEq, Repr

def fE4M3 : FFmt := { eb := 4, bias := 7, fb := 3, maxFin := 0x7E, hasInf := false, qnan := 0x7F }
def fE5M2 : FFmt := { eb := 5, bias := 15, fb := 2, maxFin := 0x7B, hasInf := true, qnan := 0x7E }
def fFP16 : FFmt := { eb := 5, bias := 15, fb := 10, maxFin := 0x7BFF, hasInf := true, qnan := 0x7E00 }
def fBF16 : FFmt := { eb := 8, bias := 127, fb := 7, maxFin := 0x7F7F, hasInf := true, qnan := 0x7FC0 }
def fFP32 : FFmt := { eb := 8, bias := 127, fb := 23, maxFin := 0x7F7FFFFF, hasInf := true, qnan := 0x7FC00000 }

/-- The value of a code of a floating-point format (R171, R172). -/
def FFmt.dec (f : FFmt) (x : Nat) : Num :=
  let neg := bitOf x (f.eb + f.fb)
  let mag := x % 2 ^ (f.eb + f.fb)
  let e := mag / 2 ^ f.fb
  let fr := mag % 2 ^ f.fb
  if f.maxFin < mag then (if f.hasInf && fr = 0 then .inf neg else .nan)
  else if e = 0 then .fin neg fr (1 - (f.bias : Int) - f.fb)
  else .fin neg (2 ^ f.fb + fr) ((e : Int) - f.bias - f.fb)

/-- The code of a magnitude `m · 2^e`, `m ≠ 0`, rounded to nearest even, before overflow: codes rise with magnitude. -/
def FFmt.encMag (f : FFmt) (m : Nat) (e : Int) : Nat :=
  let emin : Int := 1 - (f.bias : Int)
  let ex := max (e + Nat.log2 m) emin
  let n := rneUnits m e (ex - f.fb)
  -- code of exponent field ex + bias and fraction n - 2^fb, or subnormal n at ex = emin; a carry runs into the exponent
  if n < 2 ^ f.fb then n else ((ex - emin).toNat) * 2 ^ f.fb + n

/-- The code of a value in a floating-point format, overflow as R183 states. -/
def FFmt.enc (f : FFmt) (sat : Bool) (v : Num) : Nat :=
  let sgn (neg : Bool) (mag : Nat) := (if neg then 2 ^ (f.eb + f.fb) else 0) + mag
  match v with
  | .nan => f.qnan
  | .inf neg => sgn neg (if f.hasInf then (2 ^ f.eb - 1) * 2 ^ f.fb else f.maxFin)
  | .fin neg m e =>
    if m = 0 then sgn neg 0
    else
      let c := f.encMag m e
      sgn neg (if c ≤ f.maxFin then c else if sat || !f.hasInf then f.maxFin else (2 ^ f.eb - 1) * 2 ^ f.fb)

/-- A value rounded to FP32; overflow gives an infinity (R181). -/
def rnd32 (v : Num) : Num := fFP32.dec (fFP32.enc false v)

/-- A value rounded to another format, overflow to infinity. -/
def FFmt.rnd (f : FFmt) (v : Num) : Num := f.dec (f.enc false v)

/-- Negation. -/
def Num.neg : Num → Num
  | .nan => .nan
  | .inf n => .inf (!n)
  | .fin n m e => .fin (!n) m e

/-- The exact sum; opposite infinities give NaN; a zero sum of unequal signs is +0. -/
def Num.add : Num → Num → Num
  | .nan, _ => .nan
  | _, .nan => .nan
  | .inf a, .inf b => if a = b then .inf a else .nan
  | .inf a, _ => .inf a
  | _, .inf b => .inf b
  | .fin na ma ea, .fin nb mb eb =>
    let e := min ea eb
    let a : Int := ma * 2 ^ (ea - e).toNat
    let b : Int := mb * 2 ^ (eb - e).toNat
    let s := (if na then -a else a) + (if nb then -b else b)
    if s = 0 then .fin (na && nb) 0 0 else .fin (decide (s < 0)) s.natAbs e

/-- The exact product. -/
def Num.mul : Num → Num → Num
  | .nan, _ => .nan
  | _, .nan => .nan
  | .inf a, .inf b => .inf (a != b)
  | .inf a, .fin b m _ => if m = 0 then .nan else .inf (a != b)
  | .fin b m _, .inf a => if m = 0 then .nan else .inf (a != b)
  | .fin na ma ea, .fin nb mb eb => .fin (na != nb) (ma * mb) (ea + eb)

/-- Whether a value is finite. -/
def Num.isFin : Num → Bool
  | .fin _ _ _ => true
  | _ => false

/-- Whether a value is NaN. -/
def Num.isNan : Num → Bool
  | .nan => true
  | _ => false

/-- Comparison `a < b` of values that are no NaN; zeros are equal. -/
def Num.lt : Num → Num → Bool
  | .nan, _ => false
  | _, .nan => false
  | .inf a, .inf b => a && !b
  | .inf a, _ => a
  | _, .inf b => !b
  | .fin na ma ea, .fin nb mb eb =>
    let e := min ea eb
    let a : Int := ma * 2 ^ (ea - e).toNat
    let b : Int := mb * 2 ^ (eb - e).toNat
    decide ((if na then -a else a) < (if nb then -b else b))

/-- The magnitude. -/
def Num.abs : Num → Num
  | .nan => .nan
  | .inf _ => .inf false
  | .fin _ m e => .fin false m e

/-- A finite value times a power of two. -/
def Num.scale (k : Int) : Num → Num
  | .fin n m e => .fin n m (e + k)
  | x => x

/-- FP32 sum and product: exact, then rounded once (R181, R182). -/
def fadd (a b : Num) : Num := rnd32 (a.add b)
def fmul (a b : Num) : Num := rnd32 (a.mul b)

/-- A fused multiply-add of FP32, rounded once (R185). -/
def ffma (a b c : Num) : Num := rnd32 ((a.mul b).add c)

/-- The quotient of two finite values with a non-zero divisor, rounded to nearest even in a format: `2^96` extra quotient
bits and a sticky bit decide every tie. -/
def FFmt.div (f : FFmt) (a b : Num) : Num :=
  match a, b with
  | .nan, _ => .nan
  | _, .nan => .nan
  | .inf _, .inf _ => .nan
  | .inf x, .fin y _ _ => .inf (x != y)
  | .fin x _ _, .inf y => .fin (x != y) 0 0
  | .fin x ma ea, .fin y mb eb =>
    if mb = 0 then (if ma = 0 then .nan else .inf (x != y))
    else
      let k := 96 + Nat.log2 mb
      let q := ma * 2 ^ k / mb
      let r := ma * 2 ^ k % mb
      f.rnd (.fin (x != y) (2 * q + b2n (decide (r ≠ 0))) (ea - eb - k - 1))

/-- A value rounded to an integer, ties to even. -/
def Num.rne : Num → Int
  | .fin neg m e => let n : Int := rneUnits m e 0; if neg then -n else n
  | _ => 0

/-- The width, signedness of an integer code (R168, R170). -/
def intFmt : Nat → Option (Nat × Bool)
  | 0x0 => some (4, true)
  | 0x1 => some (8, true)
  | 0x2 => some (8, false)
  | 0x3 => some (16, true)
  | 0x4 => some (16, false)
  | 0x5 => some (32, true)
  | _ => none

/-- The floating-point format of a code. -/
def floatFmt : Nat → Option FFmt
  | 0x6 => some fE4M3
  | 0x7 => some fE5M2
  | 0x8 => some fFP16
  | 0x9 => some fBF16
  | 0xA => some fFP32
  | _ => none

/-- Lowest and highest value of an integer format (R170). -/
def intRange (w : Nat) (sgn : Bool) : Int × Int :=
  if sgn then (-(2 ^ (w - 1)), 2 ^ (w - 1) - 1) else (0, 2 ^ w - 1)

/-- Conversion of an integer to a format's bits: clamped where `sat`, else its low bits (R183). -/
def intBits (w : Nat) (sgn sat : Bool) (x : Int) : Nat :=
  let (lo, hi) := intRange w sgn
  lowBits w (if sat then clampInt lo hi x else x)

/-- Bits of storage of one element of a code (R168, R169); 0 for block formats and the reserved code. -/
def elemBits : Nat → Nat
  | 0x0 => 4 | 0x1 => 8 | 0x2 => 8 | 0x3 => 16 | 0x4 => 16 | 0x5 => 32 | 0x6 => 8 | 0x7 => 8 | 0x8 => 16 | 0x9 => 16
  | 0xA => 32 | 0xB => 4 | 0xC => 8 | 0xD => 32 | 0xE => 2 | _ => 0

/-- Whether a code is block-scaled. -/
def isBlock (c : Nat) : Bool := c = 0xB || c = 0xC

/-- The value of an element's storage bits in a code that is not block-scaled (R170, R171, R177, R178). -/
def decElem (c bits : Nat) : Num :=
  match intFmt c with
  | some (w, sgn) => .ofInt (if sgn then signedOf w bits else ((bits % 2 ^ w : Nat) : Int))
  | none => match floatFmt c with
    | some f => f.dec bits
    | none =>
      if c = 0xD then .ofInt (signedOf 24 bits)
      else if c = 0xE then .ofInt (match bits % 4 with | 1 => 1 | 3 => -1 | _ => 0)
      else .zero

/-- Conversion of a value to the storage bits of a code that is not block-scaled (R177, R178, R182, R183). -/
def encElem (c : Nat) (sat : Bool) (v : Num) : Nat :=
  match intFmt c with
  | some (w, sgn) =>
    (match v with
     | .nan => 0
     | .inf neg => let (lo, hi) := intRange w sgn; lowBits w (if neg then lo else hi)
     | _ => intBits w sgn sat v.rne)
  | none => match floatFmt c with
    | some f => f.enc sat v
    | none =>
      if c = 0xD then
        (match v with
         | .nan => 0
         | .inf neg => lowBits 32 (if neg then -(2 ^ 23) else 2 ^ 23 - 1)
         | _ => lowBits 32 (clampInt (-(2 ^ 23)) (2 ^ 23 - 1) v.rne))
      else if c = 0xE then (match v.rne with | 0 => 0 | 1 => 1 | -1 => 3 | _ => 0)
      else 0

/-- Fraction bits of a block-scaled code (R173). -/
def blockFb (c : Nat) : Nat := if c = 0xC then 6 else 2

/-- The value of an element of a block with scale byte `e` (R173). -/
def decBlockElem (c bits e : Nat) : Num :=
  if e = 255 then .nan
  else
    let m := signedOf (elemBits c) bits
    .fin (decide (m < 0)) m.natAbs ((e : Int) - 127 - blockFb c)

/-- to_block of R175 on up to 32 values: the elements and the scale byte. -/
def toBlock (c : Nat) (v : List Num) : List Int × Nat :=
  if v.any (fun x => !x.isFin) then (v.map (fun _ => 0), 255)
  else
    let logs := v.filterMap (fun x => match x with | .fin _ m e => if m = 0 then none else some (e + Nat.log2 m) | _ => none)
    match logs with
    | [] => (v.map (fun _ => 0), 0)
    | l :: ls =>
      let e := ls.foldl max l
      let sc := clampInt 0 254 (e + 127)
      let (lo, hi) := intRange (elemBits c) true
      (v.map (fun x => clampInt lo hi (x.scale (-(sc - 127 - blockFb c))).rne), sc.toNat)

/-- sr_bits of R184. -/
def srBits (seed idx : Nat) : Nat :=
  let x := Nat.xor seed (idx * 0x9E3779B1 % 2 ^ 32)
  let x := Nat.xor x (x / 2 ^ 15) * 0x2C1B3C6D % 2 ^ 32
  let x := Nat.xor x (x / 2 ^ 12) * 0x297A2D39 % 2 ^ 32
  Nat.xor x (x / 2 ^ 15) % 2 ^ 16

/-- sround of R184 with target step `2^u` at the value. -/
def sroundTo (u : Int) (r16 : Nat) : Num → Num
  | .fin neg m e =>
    -- a = m * 2^(e-u): floor and the first 16 fraction bits
    let a16 := if u ≤ e + 16 then m * 2 ^ (e + 16 - u).toNat else m / 2 ^ (u - e - 16).toNat
    let q := a16 / 2 ^ 16 + (if r16 < a16 % 2 ^ 16 then 1 else 0)
    .fin neg q u
  | x => x

/-- The step of a floating-point format at a magnitude (R184). -/
def FFmt.step (f : FFmt) (m : Nat) (e : Int) : Int :=
  if m = 0 then 1 - (f.bias : Int) - f.fb else max (e + Nat.log2 m) (1 - (f.bias : Int)) - f.fb

/-- A result converted with stochastic rounding into an integer or FP8 format; other formats round under R182. -/
def encStoch (c : Nat) (sat : Bool) (r16 : Nat) (v : Num) : Nat :=
  match v with
  | .fin _ m e =>
    if (intFmt c).isSome then encElem c sat (sroundTo 0 r16 v)
    else if c = 0x6 then encElem c sat (sroundTo (fE4M3.step m e) r16 v)
    else if c = 0x7 then encElem c sat (sroundTo (fE5M2.step m e) r16 v)
    else encElem c sat v
  | _ => encElem c sat v

end Sys2Proof.Machine
end

