-- ==== Sys2Proof/Machine/MapCore.lean ====
section
/-! DEFINITION. The map store: rows and their addresses, the apply of a batch, version switches, busy slots, CRC records
(R251 to R253, R265 to R277). -/

namespace Sys2Proof.Machine

/-- Rows of one table of level `l` (R253, R256), read through `g`, the registers or a wedge's latched values. -/
def tableRows (g : Fld → Nat) (l : Nat) : Nat := 2 ^ g (MAP.LVL_CFG_RLOG 0 l) / (if g (MAP.LVL_CFG_COMPOSE 0 l) = 1 then 2 else 1)

/-- Features of one part of a row of level `l` (R252). -/
def partFeat (g : Fld → Nat) (l : Nat) : Nat := g (MAP.LVL_CFG_F8 0 l) * 2

/-- Stored bytes of a part: PART_B of R252. -/
def partB (fp16 : Bool) (feat : Nat) : Nat :=
  let n := if fp16 then 2 * feat else feat + 1
  if n ≤ 8 then 8 else if n ≤ 16 then 16 else 32

/-- Whether level `l` stores FP16 rows. -/
def State.lvlFp16 (s : State) (l : Nat) : Bool := s.get (MAP.LVL_CFG_FMT 0 l) = 1

/-- Byte of the map region at which a row begins (R253), before the remap table. -/
def State.rowByte (s : State) (k : RowKey) : Nat :=
  let rowB := 2 * partB (s.lvlFp16 k.level) (partFeat s.get k.level)
  4096 * (if k.slot = 0 then s.get (MAP.LVL_BASE0_UNIT 0 k.level) else s.get (MAP.LVL_BASE1_UNIT 0 k.level)) +
    k.table * tableRows s.get k.level * rowB + k.row * rowB

/-- A Table Gather Engine. -/
def State.tge (s : State) (u : Nat) : TgeSt := s.map.tge.getD u {}

/-- `s` with the map store changed. -/
def State.mp (s : State) (f : MapSt → MapSt) : State := { s with map := f s.map }

/-- `s` with a Table Gather Engine changed. -/
def State.setTge (s : State) (u : Nat) (f : TgeSt → TgeSt) : State := s.mp (fun m => { m with tge := m.tge.modify u f })

/-- A region byte of base die `u` after the remap table (R266), as an address of the map memory. -/
def State.mapAddr (s : State) (u a : Nat) : Nat :=
  u * 2 ^ 30 + (match find (a / 4096) (s.tge u).remap with
    | some v => v * 4096 + a % 4096
    | none => a)

/-- The stored bytes of die `d`'s part of a row (R252). -/
def State.partBytes (s : State) (d : Nat) (k : RowKey) : Bytes :=
  let pb := partB (s.lvlFp16 k.level) (partFeat s.get k.level)
  Mem.bytes s.map.mem (s.mapAddr (d / 2) (s.rowByte k + (d % 2) * pb)) pb

/-- Die `d`'s part of a row stored. -/
def State.storePart (s : State) (d : Nat) (k : RowKey) (b : Bytes) : State :=
  let pb := partB (s.lvlFp16 k.level) (partFeat s.get k.level)
  s.mp (fun m => { m with mem := Mem.store m.mem (s.mapAddr (d / 2) (s.rowByte k + (d % 2) * pb)) (b.take pb) })

/-- The values of a part (R252, R173). -/
def decPart (fp16 : Bool) (feat : Nat) (b : Bytes) : List Num :=
  if fp16 then (List.range feat).map (fun i => fFP16.dec (fieldB b (2 * i) 2))
  else (List.range feat).map (fun i => decBlockElem 0xC (fieldB b i 1) (fieldB b feat 1))

/-- The stored bytes of a part's values (R252, R273): FP16 with SAT = 1, or one BS8 block. -/
def encPart (fp16 : Bool) (v : List Num) : Bytes :=
  let b := if fp16 then v.flatMap (fun x => leBytes 2 (fFP16.enc true x))
    else let (m, e) := toBlock 0xC v; m.map (fun x => BitVec.ofNat 8 (lowBits 8 x)) ++ [BitVec.ofNat 8 e]
  b ++ zeroBytes (partB fp16 v.length - b.length)

/-- A row stands in a unit's bad-row list (R279). -/
def State.badRow (s : State) (u : Nat) (k : RowKey) : Bool :=
  (List.range 16).any (fun i => s.on (TGE.BADROW_KEY_VALID u i) && s.get (TGE.BADROW_KEY_LEVEL u i) = k.level &&
    s.get (TGE.BADROW_KEY_SLOT u i) = k.slot && s.get (TGE.BADROW_KEY_TABLE u i) = k.table && s.get (TGE.BADROW_ROW_ROW u i) = k.row)

/-- The active slot of a level (R268). -/
def State.activeSlot (s : State) (l : Nat) : Nat := bitsOf (s.get (MAP.STAT_ACTIVE 0)) l 1

/-- One entry applied (R273, R277): a part whose slot is no longer active is discarded; a listed bad row is skipped; an access that the
map region does not admit to P2 is not performed (R339); otherwise the sums are added to the stored values, or a resync part replaces them. Answers the entry with the previous
stored value, or none where it was discarded. -/
def State.applyEntry (s : State) (e : MubEntry) : State × Option MubEntry :=
  let u := e.die / 2
  let at_ := s.mapAddr u (s.rowByte e.key) % 2 ^ 30
  let n := 2 * partB (s.lvlFp16 e.key.level) (partFeat s.get e.key.level)
  if s.activeSlot e.key.level ≠ e.key.slot then
    ((s.bump (TGE.UPD_DISC_CNT u)).set1 (MAP.EVT_UPD_DISC 0), none)
  else if s.badRow u e.key then (s, none)
  else if (s.mapAccess u at_ n 2 false).isNone then (s.dramViol u (s.mapDieAddr u at_) 2 false, none)
  else if (s.mapAccess u at_ n 2 true).isNone then (s.dramViol u (s.mapDieAddr u at_) 2 true, none)
  else
    let old := s.partBytes e.die e.key
    let fp16 := s.lvlFp16 e.key.level
    let new := match e.put with
      | some b => b
      | none => encPart fp16 (List.zipWith (fun o d => fadd o (fFP32.dec d.toNat)) (decPart fp16 e.sums.length old) e.sums)
    (s.storePart e.die e.key new, some { e with old := old })

/-- The row block of a key (R277). -/
def rowBlock (k : RowKey) : Nat × Nat × Nat := (k.level, k.table, k.row / 4096)

/-- The entries of a bank applied in order. -/
def State.applyAll (s : State) (es : List MubEntry) : State × List MubEntry :=
  es.foldl (fun (s, done) e => match s.applyEntry e with
    | (s, some e) => (s, done ++ [e])
    | (s, none) => (s, done)) (s, [])

/-- Entries of one part of a bank. -/
def MubBank.part (b : MubBank) (d : Nat) : Nat := (b.entries.filter (fun e => e.die = d)).length

/-- Resync rows that fit a bank with `es` (R277): at most 8,192 entries a part; an entry of the same key gives way. -/
def fitResync (es : List MubEntry) : List MubEntry → List MubEntry × List MubEntry
  | [] => (es, [])
  | r :: rs =>
    let same := es.any (fun e => e.die = r.die && e.key = r.key)
    if same || decide ((es.filter (fun e => e.die = r.die)).length < 8192) then
      fitResync ((es.filter (fun e => !(e.die = r.die && e.key = r.key))) ++ [r]) rs
    else
      let (a, b) := fitResync es rs
      (a, r :: b)

/-- Every tile of a stage has completed DONE for an admission (R158). -/
def State.stageDone (s : State) (stage a : Nat) : Bool :=
  (List.range 80).all (fun g => !(s.get (TILE.ROLE_ROLE g) = 1 && s.get (TILE.ROLE_STAGE g) = stage) ||
    decide (a < (s.tiles.getD g {}).doneN))

/-- Wedges, none of them golden, closed and not past `stage`. -/
def State.before (s : State) (stage : Nat) : List WJob :=
  (s.pipe.backlog ++ s.pipe.flight.filter (fun j => !s.stageDone stage j.admNo)).filter (fun j => !j.golden)

/-- The batch that is due at a boundary or at once (R273): its revolution has ended and each of its wedges has completed
DONE in the update stage. -/
def State.batchDue (s : State) : Bool :=
  decide (s.map.batchRev < s.rev.count) && !s.map.banks.any (fun b => b.phase = 1) &&
    !(s.on (MAP.STAGES_UPD_VALID 0) && (s.before (s.get (MAP.STAGES_UPD 0))).any (fun j => decide (j.rev ≤ s.map.batchRev)))

/-- TGE.STAT of both units: APPLY and SHADOW (R283). -/
def State.tgeStat (s : State) : State :=
  [0, 1].foldl (fun s u => (s.put (TGE.STAT_APPLY u) (b2n (s.map.banks.any (fun b => b.phase = 1)))).put (TGE.STAT_SHADOW u)
    (b2n (s.map.banks.any (fun b => b.phase = 2)))) s

/-- The apply of a due batch (R273, R274, R277). Its stored values change at the boundary; the previous ones stand in the
bank for the wedges that closed before it. -/
def State.applyBatch (s : State) : State :=
  if !s.batchDue then s
  else
    let r := s.map.batchRev
    let mine := (s.map.banks.filter (fun b => b.rev ≤ r && b.phase = 0)).flatMap (fun b => b.entries)
    let (es, rest) := fitResync mine s.map.resync
    let s := s.mp (fun m => { m with resync := rest, batchRev := r + 1, banks := m.banks.filter (fun b => !(b.rev ≤ r && b.phase = 0)) })
    let (s, done) := s.applyAll es
    let blocks := (done.map (fun e => rowBlock e.key)).foldl (fun l b => if l.contains b then l else l ++ [b]) []
    let left := rest.map (fun e => (e.die / 2, rowBlock e.key))
    let resynced := ((done.filter (fun e => e.put.isSome)).map (fun e => (e.die / 2, rowBlock e.key))).filter (fun b => !left.contains b)
    let s := (s.addCnt (MAP.RESYNC_CNT 0) (resynced.foldl (fun l b => if l.contains b then l else l ++ [b]) []).length).set1If
      (!resynced.isEmpty) (MAP.EVT_RESYNC 0)
    let s := s.put (MAP.EPOCH_EPOCH 0) ((s.get (MAP.EPOCH_EPOCH 0) + 1) % 2 ^ 32)
    let bank : MubBank := { rev := r, phase := 1, before := s.pipe.closes, entries := done }
    (s.mp (fun m => { m with banks := bank :: m.banks, touched := blocks })).tgeStat

/-- A migration activity is running (R269). -/
def State.migrating (s : State) : Bool := s.ms.run.any (fun a => a.code = 3)

/-- The requested version switches (R268, R269); a running migration defers them. -/
def State.switchVersions (s : State) : State :=
  let req := s.get (MAP.COMMIT_LEVELS 0)
  if req = 0 then s
  else if s.migrating then s
  else
    let s := (List.range 16).foldl (fun s l =>
      if !bitOf req l then s
      else
        let old := s.activeSlot l
        let s := s.put (MAP.STAT_ACTIVE 0) (withBits (s.get (MAP.STAT_ACTIVE 0)) l 1 (1 - old))
        let s := s.put (MAP.STAT_EMPTY 0) (withBits (s.get (MAP.STAT_EMPTY 0)) l 1 0)
        let s := s.put (MAP.LVL_SERIAL_SERIAL 0 l) ((s.get (MAP.LVL_SERIAL_SERIAL 0 l) + 1) % 2 ^ 32)
        let s := s.mp (fun m => { m with off := m.off.filter (fun e => e.1 ≠ l) })
        if (s.before (s.get (MAP.STAGES_LOOK_LAST 0))).isEmpty then s
        else
          let f := if old = 0 then MAP.BUSY_SLOT0 0 else MAP.BUSY_SLOT1 0
          (s.put f (withBits (s.get f) l 1 1)).mp (fun m => { m with busy := m.busy ++ [(l, old, s.pipe.closes)] })) s
    (s.clr (MAP.COMMIT_LEVELS 0)).set1 (MAP.EVT_COMMIT_DONE 0)

/-- Map state discarded at Midnight entry (R276). No wedge is being processed any more, so a revolution that has ended with its batch not
applied ends its epoch here (R273, DEDUCED, assumption 109). -/
def State.discardMap (s : State) : State :=
  let lost (u : Nat) := ((s.map.banks.filter (fun b => b.phase = 0)).flatMap (fun b => b.entries.filter (fun e => e.die / 2 = u))).length
  let s := [0, 1].foldl (fun s u => s.addCnt (TGE.UPD_DISC_CNT u) (lost u)) s
  let s := s.put (MAP.EPOCH_EPOCH 0) ((s.get (MAP.EPOCH_EPOCH 0) + (s.rev.count - s.map.batchRev)) % 2 ^ 32)
  (s.mp (fun m => { m with banks := [], batchRev := max m.batchRev s.rev.count })).tgeStat

/-- All map state lost (R276): Hold and any reset. -/
def State.loseMap (s : State) : State :=
  let s := (s.put (MAP.STAT_ACTIVE 0) 0).put (MAP.STAT_EMPTY 0) 0xFFFF
  let s := ((s.put (MAP.BUSY_SLOT0 0) 0).put (MAP.BUSY_SLOT1 0) 0).put (MAP.COMMIT_LEVELS 0) 0
  let s := [0, 1].foldl (fun s u => ((List.range 16).foldl (fun s i => s.setReg (TGE.BADROW_KEY u i).addr 0) s).put
    (TGE.CACHE_OCC_ENTRIES u) 0 |>.put (TGE.REMAP_OCC_ENTRIES u) 0 |>.put (TGE.STAT_OUTST u) 0 |>.put (TGE.STAT_REFRESH u) 0
    |>.put (TGE.STAT_MIGRATE u) 0) s
  ({ s with map := {} } : State).tgeStat

/-- CRC-64 of a row block (R277): the two die parts of unit `u`, in row order. -/
def State.blockCrc (s : State) (u : Nat) (b : Nat × Nat × Nat) : Nat :=
  let n := tableRows s.get b.1
  crc64 ((List.range (min 4096 (n - b.2.2 * 4096))).flatMap (fun i =>
    let k : RowKey := { level := b.1, slot := s.activeSlot b.1, table := b.2.1, row := b.2.2 * 4096 + i }
    s.partBytes (2 * u) k ++ s.partBytes (2 * u + 1) k))

/-- Every row block of the map, in the rotating order (R277). -/
def State.allBlocks (s : State) : List (Nat × Nat × Nat) :=
  (List.range 16).flatMap (fun l =>
    if !s.on (MAP.LVL_CFG_EN 0 l) then []
    else (List.range (if s.on (MAP.LVL_CFG_COMPOSE 0 l) then 2 else 1)).flatMap (fun t =>
      (List.range (ceilDiv (tableRows s.get l) 4096)).map (fun b => (l, t, b))))

end Sys2Proof.Machine
end

