-- ==== Sys2Proof/Machine/Time.lean ====
section
/-! DEFINITION. The time bases (R41 to R55), PPS and gPTP on the ports (R56 to R60). -/

namespace Sys2Proof.Machine

abbrev vehNoMaster : Nat := 0
abbrev vehLocked : Nat := 1
abbrev vehHoldover : Nat := 2
abbrev vehPps : Nat := 3
abbrev vehRefused : Nat := 4

/-- A base re-anchored at an instant with a new rate, its value there unchanged. -/
def Base.retune (b : Base) (mono : Nat) (rate : Int) : Base := { monoAt := mono, valAt := b.at_ mono, rate := rate }

/-- A base stepped by `d` sixteenths of a ns. -/
def Base.step (b : Base) (d : Int) : Base := { b with valAt := b.valAt + d }

/-- `s` with its time-base state changed. -/
def State.tm (s : State) (f : TimeSt → TimeSt) : State := { s with time := f s.time }

/-- TMU.STAT.VEH_STATE. -/
def State.vehState (s : State) : Nat := s.get TMU.STAT_VEH_STATE

/-- The partner link is up (R397). -/
def State.linkUp (s : State) : Bool := s.get PLK.STAT_STATE = 3

/-- TB_PTN is invalid: the link is down (R54). -/
def State.ptnInvalid (s : State) : State := (s.put TMU.STAT_PTN_VALID 0).tm (fun x => { x with ptnOfs := none, ptnRun := 0 })

/-- The slewing target of TB_SNS (R45): 2 TB_PTN, 1 TB_VEH, 0 none. -/
def State.snsTarget (s : State) : Nat :=
  if s.on SYS.STATE_PAIR_ROLE && s.linkUp then 2
  else if s.on TMU.CTRL_COUPLE && (s.vehState = vehLocked || s.vehState = vehPps) then 1 else 0

/-- One servo update of TB_SNS (R45) from its offset to the target (1/16 ns) and the target's rate (1/16 ppb): the
closing term is the offset divided by 1 s; the rate is held within SNS_SLEW.PPB and SLEW_LIMIT set where that acts. -/
def State.snsServo (s : State) (ofs rate : Int) : State :=
  let bound : Int := s.get TMU.SNS_SLEW_PPB * 16
  let want := rate + ofs
  let r := clampInt (-bound) bound want
  (s.tm (fun x => { x with sns := x.sns.retune s.mono r })).set1If (r ≠ want) TMU.EVT_SLEW_LIMIT

/-- The coupling update of TB_SNS at a measurement of TB_VEH (R45). -/
def State.couple (s : State) : State :=
  if s.snsTarget = 1 then s.snsServo (s.veh - s.sns) s.time.veh.rate else s

/-- A write of SNS_SLEW.PPB (R44): the rate in force is brought within the new bound at once. -/
def State.slewWritten (s : State) : State :=
  let bound : Int := s.get TMU.SNS_SLEW_PPB * 16
  s.tm (fun x => if x.sns.rate.natAbs ≤ bound then x else { x with sns := x.sns.retune s.mono (clampInt (-bound) bound x.sns.rate) })

/-- The step limit in 1/16 ns (R51). -/
def State.stepLim (s : State) : Int := s.get TMU.STEP_LIM_VALUE * 16

/-- The state TB_VEH locks into: PPS_LOCKED for PPS_IN, LOCKED for a network master. -/
def lockState (port : Nat) : Nat := if port = 2 then vehPps else vehLocked

/-- An offset refused (R49 steps 1 to 3): `fresh` where it is no later measurement of the source already refused. The recorded
whole ns are the offset's floor (DESIGN CHOICE, assumption 101). -/
def State.refuse (s : State) (ofs : Int) (src : Nat × Nat) (fresh : Bool) : State :=
  let ns := lowBits 64 (ofs / 16)
  let s := ((s.tm (fun x => { x with refused := some ofs, stepOfs := none })).put TMU.STEP_OFS_LO (ns % 2 ^ 32)).put
    TMU.STEP_OFS_HI (ns / 2 ^ 32)
  if fresh then
    let s := (s.put TMU.STEP_GM_LO (src.1 % 2 ^ 32)).put TMU.STEP_GM_HI (src.1 / 2 ^ 32 % 2 ^ 32)
    ((s.put TMU.STAT_VEH_STATE vehRefused).set1 TMU.EVT_STEP_REFUSED).bump TMU.STEP_REF_CNT
  else s

/-- The identity of a refused source as STEP_GM_LO and STEP_GM_HI hold it (R49). -/
def State.stepGm (s : State) : Nat := s.get TMU.STEP_GM_LO + s.get TMU.STEP_GM_HI * 2 ^ 32

/-- TB_VEH stepped by `d` (R49): it locks, ACCEPT clears, and PPS_OUT, where it follows TB_VEH, meets its whole seconds anew
(R52). -/
def State.stepVeh (s : State) (d : Int) : State :=
  let port := (s.time.src.map Prod.snd).getD 0
  let again := s.get TMU.PPS_OUT_SRC = 3
  let s := s.tm (fun x => { x with veh := (x.veh.retune s.mono x.veh.rate).step d, stepOfs := none, refused := none,
                                   ppsLast := if again then none else x.ppsLast })
  ((s.put TMU.STAT_VEH_STATE (lockState port)).clr TMU.STEP_ACCEPT_ACCEPT).set1 TMU.EVT_STEP_APPLIED

/-- The accepted and within-limit steps that take effect at a commit point (R49, R50): an acceptance is compared with the source
that STEP_GM names. -/
def State.commitSteps (s : State) : State :=
  match s.time.stepOfs with
  | some d => s.stepVeh d
  | none =>
    if !s.on TMU.STEP_ACCEPT_ACCEPT then s
    else if s.vehState = vehRefused && s.time.src.map (fun x => x.1 % 2 ^ 64) = some s.stepGm then
      match s.time.refused with
      | none => s.clr TMU.STEP_ACCEPT_ACCEPT
      | some d => s.stepVeh d
    else (s.clr TMU.STEP_ACCEPT_ACCEPT).set1 TMU.EVT_STEP_STALE

/-- The same, at once where no wedge is being processed (R13, R15, R49). -/
def State.stepsNow (s : State) : State := if s.actsNow then s.commitSteps else s

/-- Source code of VEH_PORT_ACT (R61). -/
def portAct (port : Nat) : Nat := port + 1

/-- A measured offset of TB_VEH against a source (R47 to R49, R53). `intv` is the interval of its measurements. -/
def State.measure (s : State) (ofs : Int) (src : Nat × Nat) (intv : Nat) : State :=
  let change := decide (s.time.src.isSome ∧ s.time.src ≠ some src)
  let wasSrc := s.time.src
  let s := (s.tm (fun x => { x with src := some src })).put TMU.STAT_VEH_PORT_ACT (portAct src.2)
  let s := s.set1If change TMU.EVT_MASTER_CHANGE
  if !s.time.vehInit then
    let again := s.get TMU.PPS_OUT_SRC = 3
    ((s.tm (fun x => { x with veh := (x.veh.retune s.mono x.veh.rate).step ofs, vehInit := true,
                              ppsLast := if again then none else x.ppsLast })).put
      TMU.STAT_VEH_STATE (lockState src.2)).couple
  else if s.stepLim < (ofs.natAbs : Int) then
    s.refuse ofs src (!(s.vehState = vehRefused && wasSrc = some src))
  else if s.vehState = lockState src.2 && !change && s.time.stepOfs.isNone then
    (s.tm (fun x => { x with veh := x.veh.retune s.mono (clampInt (-4000000) 4000000
      (Config.vehServo (ofs / 16) (intv / 16))) })).couple
  else
    ((s.tm (fun x => { x with stepOfs := some ofs })).clr TMU.STEP_ACCEPT_ACCEPT).stepsNow.couple

/-- A port's page, for the timing registers of R62. -/
def portPage : Port → Nat
  | .head h => 0x010 + h.val
  | .host p => 0x018 + p.val

/-- A port's index in the gPTP state. -/
def portIdx : Port → Nat
  | .head h => h.val
  | .host p => 8 + p.val

/-- Whether a port's link is up and the device serves it (R352). -/
def State.portUp (s : State) : Port → Bool
  | .head h => s.on (HP.STAT_LINK h.val) && s.dev ≠ dsHold
  | .host p => s.on (HS.STAT_LINK p.val)

/-- `s` with the gPTP state of a port changed. -/
def State.gp (s : State) (q : Port) (f : Gptp → Gptp) : State := { s with gptp := s.gptp.modify (portIdx q) f }

/-- The gPTP state of a port. -/
def State.gpOf (s : State) (q : Port) : Gptp := s.gptp.getD (portIdx q) {}

/-- An internal receive instant translated to the MDI (R58). -/
def State.ingMdi (s : State) (q : Port) (t : Int) : Int := t - s.get (TS.ING_LAT_LAT (portPage q))

/-- An internal transmit instant translated to the MDI (R58). -/
def State.egrMdi (s : State) (q : Port) (t : Int) : Int := t + s.get (TS.EGR_LAT_LAT (portPage q))

/-- Entry of TB_VEH to HOLDOVER (R48). -/
def State.holdover (s : State) : State :=
  (((s.put TMU.STAT_VEH_STATE vehHoldover).put TMU.STAT_VEH_PORT_ACT 0).set1 TMU.EVT_HOLDOVER).bump TMU.HOLDOVER_CNT

/-- TB_VEH follows, or has refused, a network master (R48). -/
def State.follows (s : State) : Bool :=
  (s.vehState = vehLocked || s.vehState = vehRefused) && (s.time.src.map Prod.snd).getD 2 < 2

/-- A network master is present (R53, R57): TB_VEH follows one, or the master of a selected port is usable, as one is whose step
still waits for its boundary. -/
def State.network (s : State) : Bool :=
  let live (p : Nat) : Bool := decide (s.mono < s.time.usable.getD p 0)
  let sel := s.get TMU.CTRL_VEH_PORT
  s.follows || (sel = 0 && (live 0 || live 1)) || (sel = 1 && live 0) || (sel = 2 && live 1)

/-- The domain number of a port's gPTP messages (R56, R57). -/
def State.gptpDomain (s : State) : Port → Nat
  | .head _ => s.get TMU.GPTP_CFG_SNS_DOMAIN
  | .host _ => s.get TMU.GPTP_CFG_VEH_DOMAIN

/-- The 80-bit time value of an instant in 1/16 ns: seconds and nanoseconds, without the fraction (R42), most significant byte
first as IEEE 802.1AS sends it (R7; PRESUMED, assumption 114). -/
def timeValue (x : Int) : Bytes := beBytes 6 (lowBits 48 (x / 16000000000)) ++ beBytes 4 (lowBits 32 (x % 16000000000 / 16))

/-- A gPTP message: `corr` in 2^-16 ns, a sequence number and a time value (R56, R58). -/
def gptpMsg (q : Port) (kind domain : Nat) (corr : Int) (seq : Nat) (time : Bytes) : Emit :=
  .gptp q kind domain (beBytes 8 (lowBits 64 corr) ++ beBytes 2 seq ++ time)

/-- The sync interval of the head ports, in 1/16 ns (R56). -/
def State.snsIntv (s : State) : Nat := 16000000000 / 2 ^ ((-s.getI TMU.GPTP_CFG_SNS_LOG_SYNC).toNat)

/-- Nearest whole second to an instant in 1/16 ns. -/
def nearestSec (x : Int) : Int := (x + 8000000000) / 16000000000

/-- The time base that PPS_OUT follows (R52). -/
def State.ppsBase (s : State) : Option Int :=
  match s.get TMU.PPS_OUT_SRC with
  | 0 => none
  | 1 => some s.mono
  | 2 => some s.sns
  | _ => some s.veh

/-- A write of 1 to STEP_ACCEPT.ACCEPT by the owner (R49, R50): no effect outside STEP_REFUSED. -/
def State.stepAccept (s : State) : State :=
  if s.vehState = vehRefused then
    ((s.put TMU.STEP_ACCEPT_ACCEPT 1).stepsNow).noteAgain TMU.STEP_ACCEPT_ACCEPT (s.get TMU.STEP_ACCEPT_ACCEPT)
  else s

/-- A write of 1 to SNAP_CTRL.GO (R55): all four bases captured at one instant; nothing while a capture is running. TB_VEH in
NO_MASTER is captured as it counts (R46), with VALID 0; without a partner link there is no TB_PTN to capture. -/
def State.snapshotGo (s : State) : State :=
  if s.time.snap.isSome then s
  else
    let ptn := if s.linkUp then s.time.ptnOfs.map (fun o => (s.sns + o, true)) else none
    ((s.tm (fun x => { x with snap := some [some ((s.mono : Int), true), some (s.sns, true),
        some (s.veh, s.vehState ≠ vehNoMaster), ptn] })).put TMU.SNAP_CTRL_GO 1).put TMU.SNAP_CTRL_DONE 0

/-- One captured base written to its registers with its VALID (R55, R61); a base that is not there has VALID 0. -/
def State.snapOne (s : State) (b : Nat) (v : Option (Int × Bool)) : State :=
  match v with
  | none => s.put (TMU.SNAP_SEC_HI_VALID b) 0
  | some (x, ok) =>
    let sec := lowBits 48 (x / 16000000000)
    let s := (s.put (TMU.SNAP_SEC_LO_SEC b) (sec % 2 ^ 32)).put (TMU.SNAP_SEC_HI_SEC b) (sec / 2 ^ 32)
    let s := (s.put (TMU.SNAP_SEC_HI_FRAC b) (lowBits 4 x)).put (TMU.SNAP_SEC_HI_VALID b) (b2n ok)
    s.put (TMU.SNAP_NS_NS b) (lowBits 32 (x % 16000000000 / 16))

end Sys2Proof.Machine
end

