-- ==== Sys2Proof/Machine/Tracker.lean ====
section
/-! DEFINITION. The Angle Trackers (R63 to R69) and the firing of angle events (R68, R70). -/

namespace Sys2Proof.Machine

abbrev atOff : Nat := 0
abbrev atAcquire : Nat := 1
abbrev atLocked : Nat := 2
abbrev atFallback : Nat := 3
abbrev atStopped : Nat := 4

/-- AT.STAT.STATE of a head. -/
def State.atState (s : State) (h : Nat) : Nat := s.get (AT.STAT_STATE h)

/-- The tracker of a head. -/
def State.tk (s : State) (h : Nat) : Tracker := s.trackers.getD h {}

/-- `s` with the tracker of a head changed. -/
def State.setTk (s : State) (h : Nat) (f : Tracker → Tracker) : State := { s with trackers := s.trackers.modify h f }

/-- Loop gains kp, ki of a LOOP_BW setting (R64). -/
def loopGains : Nat → Nat × Nat
  | 0 => (6, 10)
  | 2 => (3, 6)
  | _ => (4, 8)

/-- `wrap_signed` of R64: the representative of `x` modulo 2^40 from -2^39 up to 2^39. -/
def wrap40 (x : Int) : Int := (x + 2 ^ 39) % 2 ^ 40 - 2 ^ 39

/-- predict(t) of R64, unwrapped: the angle at `t` from the state `(t0, pos, r)`. -/
def predictAt (t0 : Nat) (pos : Int) (r : Nat) (t : Int) : Int := pos + (r : Int) * (t - t0) / 2 ^ 16

/-- update(t, m) of R64 on `(t0, pos, r)`; answers the new state and the residual. -/
def updateAt (bw : Nat) (st : Nat × Int × Nat) (t m : Nat) : (Nat × Int × Nat) × Int :=
  let (t0, pos, r) := st
  let (kp, ki) := loopGains bw
  let p := predictAt t0 pos r t
  let e := wrap40 ((m : Int) * 2 ^ 16 - p)
  let r' := clampInt 0 (2 ^ 32 - 1) ((r : Int) + sra ((e * 2 ^ 16).tdiv ((t : Int) - t0)) ki)
  ((t, p + sra e kp, r'.toNat), clampInt (-32768) 32767 (sra e 16))

/-- `n/10` Hz or more: 0.32 fixed point angle units per ns against tenths of a Hz. -/
def rateAtLeast (r n : Nat) : Bool := decide (n * 2 ^ 56 ≤ r * 10 ^ 10)

/-- `n/10` Hz or less. -/
def rateAtMost (r n : Nat) : Bool := decide (r * 10 ^ 10 ≤ n * 2 ^ 56)

/-- A rate in mHz (AT.RATE), floored (DESIGN CHOICE, assumption 101). -/
def rateMhz (r : Nat) : Nat := satU 16 (r * 10 ^ 12 / 2 ^ 56)

/-- The predicted head angle of a head at present, 24.16 unwrapped (R64, R66). -/
def State.angle (s : State) (h : Nat) : Int :=
  let k := s.tk h
  if s.atState h = atFallback then predictAt k.fbAt k.fbPos k.r s.monoNs else predictAt k.t0 k.pos k.r s.snsNs

/-- The predicted head angle as AT.ANGLE shows it (R75). -/
def State.angle24 (s : State) (h : Nat) : Nat := lowBits 24 (s.angle h / 2 ^ 16)

/-- The tracker schedules angle events (R65). -/
def State.tracking (s : State) (h : Nat) : Bool := s.atState h = atLocked || s.atState h = atFallback

/-- One sample in acquisition (R64, R65): seeds at least 1 ms apart, then update. Answers the new acquisition, the
residual where an update ran, and whether the LOCKED condition is met. -/
def acqStep (bw tol : Nat) (a : Acq) (t m : Nat) : Acq × Option Int × Bool :=
  match a.run with
  | none =>
    match a.seed with
    | none => ({ a with seed := some (t, m) }, none, false)
    | some (t1, m1) =>
      if t < t1 + 1000000 then (a, none, false)
      else
        let r := satU 32 (((m + 2 ^ 24 - m1) % 2 ^ 24) * 2 ^ 32 / (t - t1))
        ({ a with run := some (t, (m : Int) * 2 ^ 16, r), good := 0 }, none, false)
  | some st =>
    let (st', e) := updateAt bw st t m
    let good := if e.natAbs ≤ tol then a.good + 1 else 0
    ({ a with run := some st', good := good }, some e,
      decide (64 ≤ good) && rateAtLeast st'.2.2 55 && rateAtMost st'.2.2 500)

/-- The key of an angle event (R70). -/
def keySector (k : Nat) : Nat := 0x10000 + k
def keyFar (w : Nat) : Nat := 0x20000 + w
def keyCol (c : Nat) : Nat := 0x40000 + c
def keyTwiOpen : Nat := 0x50000
def keyTwiClose : Nat := 0x50001
def keyRev : Nat := 0x50002

/-- The greatest position, at most the predicted one, at which the angle `a` (u24) is passed. -/
def State.lastPass (s : State) (h a : Nat) : Int :=
  let p := s.angle h
  p - (p - (a : Int) * 2 ^ 16) % 2 ^ 40

/-- Whether the event `key` at angle `a` is due: it has been passed in the present run and has not fired there in the same
revolution of the head, wherever a commit has moved its angle since (R68). -/
def State.due? (s : State) (h key a : Nat) : Bool :=
  s.tracking h &&
    (let o := s.lastPass h a
     decide ((s.tk h).runStart < o) &&
      (match find key (s.tk h).fired with
       | none => true
       | some q => decide (q < o) && decide (q / 2 ^ 40 < o / 2 ^ 40)))

/-- Whether the event at angle `a` is the first to fire of those of its kind that are due, `others` with their keys and angles: events
due together fire in angle order (R68). -/
def State.first? (s : State) (h a : Nat) (others : List (Nat × Nat)) : Bool :=
  others.all (fun e => !(s.due? h e.1 e.2 && decide (s.lastPass h e.2 < s.lastPass h a)))

/-- The event recorded as fired (R68). -/
def State.fire (s : State) (h key a : Nat) : State :=
  let o := s.lastPass h a
  s.setTk h (fun k => { k with fired := ins key o k.fired })

/-- Entry to FALLBACK (R66) from the state `k` of the last update that kept the tracker LOCKED; `evts` are the
conditions that hold. -/
def State.toFallback (s : State) (h : Nat) (k : Tracker) (evts : List Fld) : State :=
  let pos := predictAt k.t0 k.pos k.r s.snsNs
  let s := s.setTk h (fun k' => { k' with t0 := k.t0, pos := k.pos, r := k.r, fbAt := s.monoNs, fbPos := pos, acq := {}, bad := 0 })
  let s := evts.foldl State.set1 s
  ((s.put (AT.STAT_STATE h) atFallback).set1 (AT.EVT_FALLBACK h)).bump (AT.FB_CNT h)

/-- Entry to LOCKED (R65, R66, R68) with the acquired state: from ACQUIRE a new run of events starts; from FALLBACK
the run goes on, the acquired angle taken as the one nearest to the predicted angle. -/
def State.toLocked (s : State) (h : Nat) (st : Nat × Int × Nat) : State :=
  let now := predictAt st.1 st.2.1 st.2.2 s.snsNs
  let fb := s.atState h = atFallback
  let s := if fb then
      let shift := s.angle h + wrap40 (now - s.angle h) - now
      s.setTk h (fun k => { k with t0 := st.1, pos := st.2.1 + shift, r := st.2.2, bad := 0, acq := {} })
    else s.setTk h (fun k => { k with t0 := st.1, pos := st.2.1, r := st.2.2, bad := 0, acq := {}, runStart := now, fired := [] })
  let s := (s.put (AT.STAT_STATE h) atLocked).set1 (AT.EVT_LOCKED h)
  if h = s.get TMU.REF_REF_HEAD then
    { s with rev := { s.rev with lastRate := some st.2.2 } } else s

/-- The head's port is up, or its slot is forwarded by the partner (R25, R65, R78, R408). -/
def State.slotUp (s : State) (h : Nat) : Bool :=
  (s.on (HP.STAT_LINK h) || (s.linkUp && bitOf (s.get PLK.STAT_FWD_SLOTS) h)) && s.dev ≠ dsHold

/-- A sample `(t, m)` at the tracker (R63 to R66). -/
def State.trackSample (s : State) (h t m : Nat) : State :=
  let k := s.tk h
  if !(s.on (AT.CTRL_EN h) && s.slotUp h) then s
  else if (match k.lastTs with | none => false | some l => decide (t ≤ l)) then
    (s.bump (AT.DROP_SMP_CNT h)).set1 (AT.EVT_OUT_OF_ORDER h)
  else
    let bw := s.get (AT.CFG_LOOP_BW h)
    let s := s.setTk h (fun k => { k with lastTs := some t, lastArr := s.mono })
    let st := s.atState h
    if st = atOff || st = atStopped then
      (s.setTk h (fun k => { k with acq := { seed := some (t, m) } })).put (AT.STAT_STATE h) atAcquire
    else if st = atLocked then
      let (u, e) := updateAt bw (k.t0, k.pos, k.r) t m
      let bad := if s.get (AT.TOL_LOSS_TOL h) < e.natAbs then k.bad + 1 else 0
      let s := s.put (AT.RESID_RESID h) (lowBits 16 e)
      let evts := (if 8 ≤ bad then [AT.EVT_LOCK_LOST h] else []) ++ (if rateAtLeast u.2.2 50 then [] else [AT.EVT_SLOW h]) ++
        (if rateAtMost u.2.2 500 then [] else [AT.EVT_RATE_HIGH h])
      if evts.isEmpty then
        let s := s.setTk h (fun k => { k with t0 := u.1, pos := u.2.1, r := u.2.2, bad := bad })
        let s := s.put (AT.RATE_MHZ h) (rateMhz u.2.2)
        if h = s.get TMU.REF_REF_HEAD then { s with rev := { s.rev with lastRate := some u.2.2 } } else s
      else s.toFallback h k evts
    else
      let (a, e, ok) := acqStep bw (s.get (AT.TOL_LOCK_TOL h)) k.acq t m
      let s := s.setTk h (fun k => { k with acq := a })
      let s := match e with
        | none => s
        | some e => s.put (AT.RESID_RESID h) (lowBits 16 e)
      match a.run with
      | none => s
      | some st =>
        if ok then (s.toLocked h st).put (AT.RATE_MHZ h) (rateMhz st.2.2)
        else if s.atState h = atFallback then s
        else (s.setTk h (fun k => { k with t0 := st.1, pos := st.2.1, r := st.2.2 })).put (AT.RATE_MHZ h) (rateMhz st.2.2)

/-- A candidate sample at the Ingest Engine (R63): not passed within 1 us after the last one passed. -/
def State.angleSample (s : State) (h t m : Nat) : State :=
  match (s.tk h).passTs with
  | some p =>
    if p ≤ t && t < p + 1000 then s else (s.setTk h (fun k => { k with passTs := some t })).trackSample h t m
  | none => (s.setTk h (fun k => { k with passTs := some t })).trackSample h t m

/-- Angle of a head mapped to vehicle-frame azimuth (R69). -/
def State.azimuth (s : State) (h a : Nat) : Nat :=
  let ofs := s.get (AT.AZ_OFS_OFFSET h)
  if s.on (AT.CFG_DIR h) then (ofs + 2 ^ 24 - a % 2 ^ 24) % 2 ^ 24 else (a + ofs) % 2 ^ 24

/-- The wedge that contains a head angle mapped by R69 (R5, R106). -/
def State.wedgeOf (s : State) (h a : Nat) : Nat := s.azimuth h a / 2 ^ 18

/-- The head angle of the far-edge crossing of wedge `w` (R69). -/
def State.farAngle (s : State) (h w : Nat) : Nat :=
  let ofs := s.get (AT.AZ_OFS_OFFSET h)
  let g := s.get (AT.GUARD_GUARD h)
  if s.on (AT.CFG_DIR h) then (ofs + 2 ^ 24 - w * 2 ^ 18 % 2 ^ 24 + g) % 2 ^ 24
  else ((w + 1) * 2 ^ 18 + 2 ^ 24 - ofs + g) % 2 ^ 24

/-- Whether a head's coverage holds a wedge (AT.COVER). -/
def State.covers (s : State) (h w : Nat) : Bool :=
  if w < 32 then bitOf (s.get (AT.COVER_LO_WEDGES h)) w else bitOf (s.get (AT.COVER_HI_WEDGES h)) (w - 32)

/-- The heads of a wedge's pending mask (R72, R73, R91), as a bit set. -/
def State.maskHeads (s : State) (w : Nat) : Nat :=
  (List.range 8).foldl (fun m h => if s.covers h w && s.tracking h && !s.on (HP.STAT_QUAR h) then m + 2 ^ h else m) 0

/-- Columns per revolution of a head (R70). -/
def State.columns (s : State) (h : Nat) : Nat := 2 ^ s.get (AT.CFG_COL_LOG2 h)

/-- Column of a head angle (R87). -/
def State.columnOf (s : State) (h a : Nat) : Nat := (a % 2 ^ 24) / 2 ^ (24 - s.get (AT.CFG_COL_LOG2 h))

/-- The head angle of the emission deadline of column `c` (R70). -/
def State.colAngle (s : State) (h c : Nat) : Nat :=
  ((c + 1) * (2 ^ 24 / s.columns h) + s.get (AT.COL_DL_DL h)) % 2 ^ 24

/-- A head angle lies in the head's twilight arc (R70). -/
def State.inTwilight (s : State) (h a : Nat) : Bool :=
  let b := s.get (AT.TWI_START_ANGLE h)
  let e := s.get (AT.TWI_END_ANGLE h)
  decide ((a + 2 ^ 24 - b) % 2 ^ 24 < (e + 2 ^ 24 - b) % 2 ^ 24)

/-- A head has a twilight arc (R70). -/
def State.hasTwilight (s : State) (h : Nat) : Bool := s.get (AT.TWI_START_ANGLE h) ≠ s.get (AT.TWI_END_ANGLE h)

/-- Time left in the open P3 window of a head, ns (R70); 0 outside it or without tracking. -/
def State.windowLeft (s : State) (h : Nat) : Nat :=
  if s.tracking h && s.hasTwilight h && s.inTwilight h (s.angle24 h) && (s.tk h).r ≠ 0 then
    ((s.get (AT.TWI_END_ANGLE h) + 2 ^ 24 - s.angle24 h) % 2 ^ 24) * 2 ^ 32 / (s.tk h).r
  else 0

end Sys2Proof.Machine
end

