-- ==== Sys2Proof/Machine/FieldMap.lean ====
section
/-! DEFINITION. Packet field maps (R79 to R87): descriptors, extraction, resolution of a return's fields. -/

namespace Sys2Proof.Machine

/-- One descriptor of a field map (R80). -/
structure FDesc where
  ofs : Nat
  scope : Nat
  w : Nat
  shift : Nat
  be : Bool
  signed : Bool
  kind : Nat
  conv : Nat
deriving DecidableEq, Repr

/-- A descriptor from its words LOC and CONV (R80). -/
def fdesc (loc conv : Nat) : FDesc :=
  { ofs := bitsOf loc 0 14, scope := bitsOf loc 14 2, w := bitsOf loc 16 5 + 1, shift := bitsOf loc 21 5,
    be := bitOf loc 26, signed := bitOf loc 27, kind := bitsOf loc 28 4, conv := conv }

abbrev kMagic : Nat := 1
abbrev kTsSec : Nat := 2
abbrev kTsNs : Nat := 3
abbrev kTsRel : Nat := 4
abbrev kAzimuth : Nat := 5
abbrev kRange : Nat := 6
abbrev kIntensity : Nat := 7
abbrev kChannel : Nat := 8
abbrev kRetNum : Nat := 9
abbrev kBlkCount : Nat := 10

/-- The used descriptors of a head's map (R80, R82). -/
def State.fmap (s : State) (h : Nat) : List FDesc :=
  ((List.range 16).map (fun i => fdesc (s.get (HP.FMAP_LOC h i)) (s.get (HP.FMAP_CONV h i)))).filter (fun d => d.kind ≠ 0)

/-- The map check made when HP.CTRL.EN is set (R84). -/
def mapInvalid (tsSrc : Bool) (m : List FDesc) : Bool :=
  let has (k sc : Nat) := m.any (fun d => d.kind = k && d.scope = sc)
  let any (k : Nat) := m.any (fun d => d.kind = k)
  m.any (fun d => decide (1 < (m.filter (fun e => e.kind = d.kind && e.scope = d.scope)).length)) ||
    !has kRange 2 || !any kAzimuth || (!tsSrc && (!any kTsSec || !any kTsNs)) ||
    m.any (fun d => d.kind = kBlkCount && d.scope ≠ 0) || m.any (fun d => decide (10 < d.kind) || d.scope = 3)

/-- The raw bits of a field whose scope starts at byte `base` (R81); none where a byte lies beyond the payload. -/
def fieldRaw (p : Bytes) (base : Nat) (d : FDesc) : Option Nat :=
  let n := (d.shift + d.w + 7) / 8
  if p.length < base + d.ofs + n then none
  else
    let bs := sliceB p (base + d.ofs) n
    some (bitsOf (if d.be then beNat bs else leNat bs) d.shift d.w)

/-- The converted value of a field (R81): rounded to nearest, ties toward +infinity. -/
def fieldConv (d : FDesc) (raw : Nat) : Int :=
  let v : Int := if d.signed then signedOf d.w raw else raw
  rndShift (v * bitsOf d.conv 0 24) (bitsOf d.conv 24 6)

/-- The converted value of a field of a payload. -/
def fieldVal (p : Bytes) (base : Nat) (d : FDesc) : Option Int := (fieldRaw p base d).map (fieldConv d)

/-- A return as read from a packet (R83): time in TB_SNS ns, head angle, range in 1/128 mm, intensity, channel, return
number, block and index in the block. -/
structure PRet where
  t : Int
  az : Nat
  rng : Nat
  inten : Nat
  ch : Nat
  rn : Nat
  blk : Nat
  j : Nat
deriving DecidableEq, Repr

/-- What became of one return position: a byte of it lies beyond the payload, or a value of it is out of range (both
DROP_PARSE), or it was read. -/
inductive RetRes where
  | beyond
  | bad
  | read (r : PRet)
deriving DecidableEq, Repr

/-- What became of a packet: dropped at packet level, or its return positions. -/
inductive PktRes where
  | parse
  | rets (l : List RetRes)
deriving DecidableEq, Repr

/-- The settings of a head that its packets are read with. -/
structure HeadMap where
  map : List FDesc
  tsSrc : Bool
  chImpl : Bool
  chCnt : Nat
  blkBase : Nat
  blkStride : Nat
  blkCnt : Nat
  retCnt : Nat
  retOfs : Nat
  retStride : Nat
deriving DecidableEq, Repr

/-- The settings of head `h`. -/
def State.headMap (s : State) (h : Nat) : HeadMap :=
  { map := s.fmap h, tsSrc := s.on (HP.CFG_TS_SRC h), chImpl := s.on (HP.CFG_CH_IMPLICIT h),
    chCnt := s.get (HP.CFG_CH_CNT_M1 h) + 1, blkBase := s.get (HP.PKT0_BLK_BASE h), blkStride := s.get (HP.PKT0_BLK_STRIDE h),
    blkCnt := s.get (HP.PKT1_BLK_CNT h), retCnt := s.get (HP.PKT1_RET_CNT h), retOfs := s.get (HP.PKT2_RET_OFS h),
    retStride := s.get (HP.PKT2_RET_STRIDE h) }

/-- Start of a scope instance (R79). -/
def HeadMap.base (m : HeadMap) (scope b j : Nat) : Nat :=
  let blk := m.blkBase + b * m.blkStride
  match scope with
  | 0 => 0
  | 1 => blk
  | _ => blk + m.retOfs + j * m.retStride

/-- The descriptor of a kind that wins for a return: the innermost scope (R83). -/
def HeadMap.desc (m : HeadMap) (k : Nat) : Option FDesc :=
  let at_ (sc : Nat) := m.map.find? (fun d => d.kind = k && d.scope = sc)
  (at_ 2).orElse (fun _ => (at_ 1).orElse (fun _ => at_ 0))

/-- A field that a return needs: none where it lies beyond the payload, `dflt` where the map does not define it. -/
def HeadMap.value (m : HeadMap) (p : Bytes) (b j k : Nat) (dflt : Int) : Option Int :=
  match m.desc k with
  | none => some dflt
  | some d => fieldVal p (m.base d.scope b j) d

/-- The kinds a packet does not look at: the time fields where TS_SRC = 1 (R83). -/
def HeadMap.ignored (m : HeadMap) (k : Nat) : Bool := m.tsSrc && (k = kTsSec || k = kTsNs)

/-- A value that drops the packet (R82): MAGIC unequal, TS_SEC or TS_NS out of range, TS_REL out of range at packet
scope; a TS_NS below 0 is out of range (DESIGN CHOICE, assumption 45). -/
def badForPacket (d : FDesc) (raw : Nat) : Bool :=
  let v := fieldConv d raw
  if d.kind = kMagic then raw ≠ d.conv % 2 ^ d.w
  else if d.kind = kTsSec then v < 0 || 2 ^ 48 ≤ v
  else if d.kind = kTsNs then v < 0 || 10 ^ 9 ≤ v
  else if d.kind = kTsRel then d.scope = 0 && (v < -2 ^ 31 || 2 ^ 31 ≤ v)
  else false

/-- The packet-level drops of R82 and R85: a packet-scope field beyond the payload, or a value that drops the packet,
at any scope. `nb` is the number of valid blocks. A MAGIC field of block or return scope that lies beyond the payload is no field that
a return needs, and drops nothing (DESIGN CHOICE, assumption 115). -/
def HeadMap.packetBad (m : HeadMap) (p : Bytes) (nb : Nat) : Bool :=
  m.map.any (fun d =>
    if m.ignored d.kind then false
    else
      let at_ (b j : Nat) := fieldRaw p (m.base d.scope b j) d
      match d.scope with
      | 0 => (match at_ 0 0 with | none => true | some r => badForPacket d r)
      | 1 => (List.range nb).any (fun b => (at_ b 0).any (badForPacket d))
      | _ => (List.range nb).any (fun b => (List.range m.retCnt).any (fun j => (at_ b j).any (badForPacket d))))

/-- The TS_REL terms of all scopes (R82, R83): outer none where one lies beyond the payload, or out of range at block
or return scope. -/
def HeadMap.tsRel (m : HeadMap) (p : Bytes) (b j : Nat) : Option Int :=
  (m.map.filter (fun d => d.kind = kTsRel)).foldl (fun acc d =>
    match acc, fieldVal p (m.base d.scope b j) d with
    | some a, some v => if v < -2 ^ 31 || 2 ^ 31 ≤ v then none else some (a + v)
    | _, _ => none) (some 0)

/-- One return position resolved (R82, R83, R85); `pktTime` is the packet time used where TS_SRC = 1. Where R82 says nothing of a
value below 0: RANGE, INTENSITY and RETURN_NUM take 0, a CHANNEL is out of range and drops the return (DESIGN CHOICE, assumption 45). -/
def HeadMap.resolve (m : HeadMap) (p : Bytes) (pktTime : Int) (b j : Nat) : RetRes :=
  let time := if m.tsSrc then some pktTime else
    match m.value p b j kTsSec 0, m.value p b j kTsNs 0 with
    | some a, some c => some (a * 10 ^ 9 + c)
    | _, _ => none
  let chan := match m.desc kChannel with
    | none => some (if m.chImpl then (j : Int) else 0)
    | some d => fieldVal p (m.base d.scope b j) d
  match time, m.tsRel p b j, m.value p b j kAzimuth 0, m.value p b j kRange 0, m.value p b j kIntensity 0, chan,
      m.value p b j kRetNum 0 with
  | some t, some rel, some az, some rng, some inten, some ch, some rn =>
    if ch < 0 || (m.chCnt : Int) ≤ ch then .bad
    else .read { t := t + rel, az := lowBits 24 az, rng := (clampInt 0 (2 ^ 32 - 1) rng).toNat,
                 inten := (clampInt 0 255 inten).toNat, ch := ch.toNat, rn := (clampInt 0 3 rn).toNat, blk := b, j := j }
  | some _, none, some _, some _, some _, some _, some _ =>
    if (m.map.filter (fun d => d.kind = kTsRel)).any (fun d => (fieldRaw p (m.base d.scope b j) d).isNone) then .beyond else .bad
  | _, _, _, _, _, _, _ => .beyond

/-- The valid blocks of a packet (R82); a value below 0 counts as BLK_CNT (DESIGN CHOICE, assumption 45). -/
def HeadMap.blocks (m : HeadMap) (p : Bytes) : Nat :=
  match m.map.find? (fun d => d.kind = kBlkCount) with
  | none => m.blkCnt
  | some d => match fieldVal p 0 d with
    | none => m.blkCnt
    | some v => if v < 0 then m.blkCnt else min v.toNat m.blkCnt

/-- A point packet read through the map. -/
def HeadMap.read (m : HeadMap) (p : Bytes) (pktTime : Int) : PktRes :=
  let nb := m.blocks p
  if m.packetBad p nb then .parse
  else .rets ((List.range nb).flatMap (fun b => (List.range m.retCnt).map (fun j => m.resolve p pktTime b j)))

end Sys2Proof.Machine
end

