-- ==== Sys2Proof/Machine/Pose.lean ====
section
/-! DEFINITION. Pose samples (R95, R99, R100) and the arithmetic of motion compensation (R101, R102). -/

namespace Sys2Proof.Machine

/-- Entry `i` of a list of integers. -/
def ent (l : List Int) (i : Nat) : Int := l.getD i 0

/-- `M · v` for a 3x3 matrix in row-major order. -/
def matVec (m v : List Int) : List Int :=
  (List.range 3).map (fun i => ent m (3 * i) * ent v 0 + ent m (3 * i + 1) * ent v 1 + ent m (3 * i + 2) * ent v 2)

/-- `A · B`, 3x3. -/
def matMul (a b : List Int) : List Int :=
  (List.range 9).map (fun e => (List.range 3).foldl (fun acc k => acc + ent a (3 * (e / 3) + k) * ent b (3 * k + e % 3)) 0)

/-- The transpose of a 3x3 matrix. -/
def matT (a : List Int) : List Int := (List.range 9).map (fun e => ent a (3 * (e % 3) + e / 3))

/-- Elementwise on two lists of integers. -/
def zipI (f : Int → Int → Int) (a b : List Int) : List Int := List.zipWith f a b

/-- Terms of an alternating power series in 60 fraction bits from the term `t` of order `k` on: each further term is the one before it
times x² over the next two orders. -/
def seriesQ60 (x : Nat) : Nat → Nat → Nat → Int
  | 0, _, _ => 0
  | n + 1, k, t => (t : Int) - seriesQ60 x n (k + 2) (t * x * x / ((k + 1) * (k + 2)) / 2 ^ 120)

/-- Pi in 60 fraction bits. -/
def piQ60 : Nat := 3622009729038561421

/-- Sine and cosine of a 24-bit angle in 60 fraction bits, within 2^-50: the series of the angle in its quadrant. -/
def sincosQ60 (a : Nat) : Int × Int :=
  let x := a % 2 ^ 22 * piQ60 / 2 ^ 23
  let s := seriesQ60 x 12 1 x
  let c := seriesQ60 x 13 0 (2 ^ 60)
  match a % 2 ^ 24 / 2 ^ 22 with
  | 0 => (s, c)
  | 1 => (c, -s)
  | 2 => (-s, -c)
  | _ => (-c, s)

/-- A Q2.30 value brought within 2^-26 of the value `x` given in 60 fraction bits. -/
def withinQ30 (x v : Int) : Int := clampInt (-((2 ^ 34 + 2 ^ 10 - x) / 2 ^ 30)) ((2 ^ 34 + 2 ^ 10 + x) / 2 ^ 30) v

/-- Sine and cosine in Q2.30 (R101): exact at multiples of a quarter turn, elsewhere free within 2^-26 of the true value
(assumption 14). -/
def sincos (a : Nat) : Int × Int :=
  let a := a % 2 ^ 24
  if a = 0 then (0, 2 ^ 30) else if a = 2 ^ 22 then (2 ^ 30, 0) else if a = 2 ^ 23 then (0, -2 ^ 30)
  else if a = 3 * 2 ^ 22 then (-2 ^ 30, 0)
  else (withinQ30 (sincosQ60 a).1 (Config.sinQ30 a), withinQ30 (sincosQ60 a).2 (Config.cosQ30 a))

/-- A quaternion normalised and converted to a Q2.30 matrix (R99): each exact entry, rounded down or up where it is no multiple of
2^-30 (assumption 15). -/
def quatRot (w x y z : Int) : List Int :=
  let n := w * w + x * x + y * y + z * z
  let e := [w * w + x * x - y * y - z * z, 2 * (x * y - w * z), 2 * (x * z + w * y),
            2 * (x * y + w * z), w * w - x * x + y * y - z * z, 2 * (y * z - w * x),
            2 * (x * z - w * y), 2 * (y * z + w * x), w * w - x * x - y * y + z * z]
  e.zipIdx.map (fun p => p.1 * 2 ^ 30 / n + (if p.1 * 2 ^ 30 % n = 0 then 0 else b2n (Config.rotUp w x y z p.2)))

/-- `num / 2^sh`, rounded down or up where it is not exact (assumption 15). -/
def rndQ (num : Int) (sh : Nat) : Int := num / 2 ^ sh + (if num % 2 ^ sh = 0 then 0 else b2n (Config.rndUp num sh))

/-- The interpolation matrices m1 and m2 of a sample pair (R101): w = (d - dᵀ)/2 carries 61 fraction bits exactly. -/
def pairMats (r0 r1 : List Int) : List Int × List Int :=
  let d := matMul (matT r0) r1
  let w := zipI (· - ·) d (matT d)
  let rw := matMul r0 w
  (rw.map (fun e => rndQ e 61), (matMul rw w).map (fun e => rndQ e 123))

/-- A 60-byte pose record as read (R95). -/
structure PoseRec where
  ok : Bool
  crcOk : Bool
  tbVeh : Bool
  time : Nat
  pos : List Int
  quat : List Int
deriving DecidableEq, Repr

/-- A pose record read from bytes (R95, R99). -/
def readPose (b : Bytes) : PoseRec :=
  let q := (List.range 4).map (fun i => signedOf 32 (fieldB b (40 + 4 * i) 4))
  let n := q.foldl (fun a x => a + x * x) 0
  let crc := b.length = 60 && fieldB b 56 4 = crc32 (b.take 56)
  { ok := crc && fieldB b 0 2 = 0x4F50 && fieldB b 2 1 = 1 && decide ((n - 2 ^ 60).natAbs ≤ 2 ^ 50)
    crcOk := crc
    tbVeh := bitOf (fieldB b 3 1) 0
    time := fieldB b 8 8
    pos := (List.range 3).map (fun i => signedOf 64 (fieldB b (16 + 8 * i) 8))
    quat := q }

/-- `pos` rounded per axis to the nearest multiple of 2^20 COORD24 units, halves upward (R100); 1/128 mm in, units out. -/
def anchorOf (pos : List Int) : List Int := pos.map (fun p => (p + 2 ^ 25) / 2 ^ 26 * 2 ^ 20)

/-- The anchor of a return's time (R100). -/
def PoseSt.anchorAt (p : PoseSt) (t : Int) : Option Anchor :=
  (p.anchors.find? (fun a => match a.start with | none => true | some b => decide (b ≤ t))).orElse (fun _ => p.anchors.getLast?)

/-- How a return finds its pose (R102). -/
inductive Bracket where
  | wait
  | none
  | found (k0 k1 : Pose) (s : Int) (extrap gap : Bool)
deriving DecidableEq, Repr

/-- Consecutive sample pairs. -/
def pairs {α : Type} : List α → List (α × α)
  | a :: b :: l => (a, b) :: pairs (b :: l)
  | _ => []

/-- bracket(t) (R102); `force` converts a return that can wait no longer from the two newest samples. -/
def PoseSt.bracket (p : PoseSt) (gapUs : Nat) (t : Int) (force : Bool) : Bracket :=
  match p.poses.head?, p.poses.getLast? with
  | some old, some new =>
    if t < old.t then .found old old 0 true false
    else if t ≤ new.t then
      match (pairs p.poses).find? (fun e => decide (t ≤ e.2.t)) with
      | some (a, b) => .found a b (((t - a.t) * 2 ^ 24) / (b.t - a.t)) false (decide ((gapUs : Int) * 1000 < b.t - a.t))
      | none => .found new new 0 false false
    else if !force then .wait
    else
      match (pairs p.poses).getLast? with
      | some (a, b) => .found a b (min (2 ^ 25) (((t - a.t) * 2 ^ 24) / (b.t - a.t))) true false
      | none => .found new new 0 true false
  | _, _ => if force then .none else .wait

/-- Word of the channel table (R86): elevation, AZ_ADJ, RANGE_OFS. -/
def State.chan (s : State) (h c : Nat) : Int × Int × Int :=
  let adj := s.get (HP.CH_ADJ h c)
  (signedOf 24 (s.get (HP.CH_ELEV h c)), signedOf 16 adj, signedOf 16 (adj / 2 ^ 16))

/-- A return in the vehicle frame, 1/128 mm (R101 down to pv). -/
def State.toVehicle (s : State) (r : WRet) : List Int :=
  let (elev, adj, ofs) := s.chan r.slot r.ch
  let rr : Int := r.rng + ofs
  let az := lowBits 24 ((r.az : Int) + adj)
  let phi := if s.on (AT.CFG_DIR r.slot) then (2 ^ 24 - az) % 2 ^ 24 else az
  let (se, ce) := sincos (lowBits 24 elev)
  let (sp, cp) := sincos phi
  let h := rndShift (rr * ce) 30
  let ph := [rndShift (h * cp) 30, rndShift (h * sp) 30, rndShift (rr * se) 30]
  let m := (List.range 9).map (fun j => s.getI (HP.MNT_R r.slot j))
  let tr := (List.range 3).map (fun j => s.getI (HP.MNT_T r.slot j))
  zipI (· + ·) ((matVec m ph).map (fun x => rndShift x 30)) tr

/-- The point of a return from a sample pair (R101 from pos on): COORD24 units, or none where it leaves the range. -/
def toLocal (pv : List Int) (a b : Pose) (sf : Int) (anchor : List Int) : Option (List Int) :=
  let pos := zipI (fun p q => p + rndShift (sf * (q - p)) 24) a.pos b.pos
  let (m1, m2) := pairMats a.rot b.rot
  let rot := zipI (· + ·) a.rot (zipI (fun x y => rndShift (sf * x) 24 + rndShift (sf * sf * y) 48) m1 m2)
  let po := zipI (· + ·) ((matVec rot pv).map (fun x => rndShift x 30)) (zipI (fun p c => p - c * 64) pos anchor)
  let q := po.map (fun x => (x + 32) / 64)
  if q.any (fun x => decide (2 ^ 23 ≤ x.natAbs)) then none else some q

end Sys2Proof.Machine
end

