-- ==== Sys2Proof/Machine/Sched.lean ====
section
/-! DEFINITION. The Maintenance Scheduler: requests, exclusions and misses of background activities (R373 to R376). -/

namespace Sys2Proof.Machine

/-- MS.STAT shows the codes that run and that wait (R387). -/
def State.msStat (s : State) : State :=
  let bits (l : List Act) := (List.range 12).foldl (fun m c => if l.any (fun a => a.code = c) then m + 2 ^ c else m) 0
  (s.put MS.STAT_RUN (bits s.ms.run)).put MS.STAT_PEND (bits s.ms.pend)

/-- A request put behind those that wait: requests of one cycle stand in ascending code (R374). -/
def insAct (a : Act) : List Act → List Act
  | [] => [a]
  | b :: l => if b.at_ = a.at_ && a.code < b.code then a :: b :: l else b :: insAct a l

/-- A request of an activity instance; one already pending takes it in (R374). -/
def State.msRequest (s : State) (code inst : Nat) : State :=
  if s.ms.pend.any (fun a => a.code = code && a.inst = inst) then s
  else ({ s with ms := { s.ms with pend := insAct (Act.mk code inst s.mono s.rev.count) s.ms.pend } } : State).msStat

/-- Two instances that must not run together (R373). Slices 0x0 to 0x5 measure die 0 to 5, 0x9 and 0xA the DRAM PHYs,
0xB the partner lanes and 0xC the host ports; instances of activity 7 are ZQ calibration of dies A, B and read retraining of A, B;
instances of activity 8 are heads 0 to 7, host ports 8, 9, lanes 10 to 12. -/
def exclude (a b : Act) : Bool :=
  let one (a b : Act) : Bool :=
    (a.code = 0 && b.code = 3) || (a.code = 1 && b.code = 2 && a.inst = b.inst) ||
    (a.code = 6 && b.code = 7 && a.inst = 9 + b.inst % 2) ||
    (a.code = 6 && b.code = 8 && ((a.inst = 0xB && 10 ≤ b.inst) || (a.inst = 0xC && (b.inst = 8 || b.inst = 9)))) ||
    (a.code = 6 && b.code = 9 && a.inst < 6) || (a.code = 7 && b.code = 9) || (a.code = 9 && b.code = 11)
  one a b || one b a

/-- Whether the present state lets an activity run (R376). -/
def State.msAllowed (s : State) (code : Nat) : Bool := actAllowed s.dev code

/-- Whether a pending instance may start: its state lets it run, nothing excluding it runs, and nothing excluding it
was requested earlier and still waits (R374). -/
def State.msCanStart (s : State) (code inst : Nat) : Bool :=
  match s.ms.pend.find? (fun a => a.code = code && a.inst = inst) with
  | none => false
  | some a => s.msAllowed code && !s.ms.run.any (exclude a) &&
      !(s.ms.pend.takeWhile (fun b => !(b.code = code && b.inst = inst))).any (exclude a)

/-- A pending instance started. -/
def State.msStart (s : State) (code inst : Nat) : State :=
  let is (a : Act) : Bool := a.code = code && a.inst = inst
  ({ s with ms := { s.ms with pend := s.ms.pend.filter (fun a => !is a), run := s.ms.run ++ s.ms.pend.filter is } }).msStat

/-- An instance ended. -/
def State.msEnd (s : State) (code inst : Nat) : State :=
  ({ s with ms := { s.ms with run := s.ms.run.filter (fun a => !(a.code = code && a.inst = inst)) } }).msStat

/-- Whether an instance runs. -/
def State.msRuns (s : State) (code inst : Nat) : Bool := s.ms.run.any (fun a => a.code = code && a.inst = inst)

/-- A pending request dropped. -/
def State.msDrop (s : State) (code inst : Nat) : State :=
  ({ s with ms := { s.ms with pend := s.ms.pend.filter (fun a => !(a.code = code && a.inst = inst)) } }).msStat

/-- A miss (R375): counted, recorded, and logged C0 once per code and revolution. -/
def State.msMiss (s : State) (code inst : Nat) : State :=
  let s := ((s.bump (MS.MISSED_CNT code)).put MS.LAST_MISSED_CODE code).put MS.LAST_MISSED_INST (inst % 8)
  let s := (s.set1 MS.LAST_MISSED_VALID).set1 MS.EVT_MISSED
  if s.ms.logged.contains code then s
  else ({ s with ms := { s.ms with logged := s.ms.logged ++ [code] } }).raise MS.EVT_MISSED 0

end Sys2Proof.Machine
end

