-- ==== Sys2Proof/Machine/Voxel.lean ====
section
/-! DEFINITION. Voxel keys, slots, inserts, ageing and recentring passes (R110 to R122, R131, R134). -/

namespace Sys2Proof.Machine

/-- The hash of three key fields (R112). -/
def voxHash (key : List Nat) : Nat :=
  Nat.xor (Nat.xor (key.getD 0 0 * 0x9E3779B1 % 2 ^ 32) (key.getD 1 0 * 0x85EBCA77 % 2 ^ 32)) (key.getD 2 0 * 0xC2B2AE3D % 2 ^ 32)

/-- The unit that owns a key (R26). -/
def voxOwner (key : List Nat) : Nat := bitsOf (voxHash key) 16 1

/-- The bucket of a key within its unit (R26). -/
def voxBucket (key : List Nat) : Nat := voxHash key % 2 ^ 16

/-- `wrap_signed` modulo 2^21 (R111). -/
def wrap21 (x : Int) : Int := (x + 2 ^ 20) % 2 ^ 21 - 2 ^ 20

/-- VLOG of a grid. -/
def State.vlog (s : State) (n : Nat) : Nat := s.get (VHU.GRID_CFG_VLOG 0 n)

/-- Whether a key lies in the window of a grid around a centre (R110, R111). -/
def inWindow (hxy hz : Nat) (centre : List Int) (key : List Nat) : Bool :=
  let d := (List.range 3).map (fun i => wrap21 ((key.getD i 0 : Int) - ent centre i))
  let ok (h : Nat) (x : Int) : Bool := decide (-(h : Int) ≤ x) && decide (x < h)
  ok hxy (ent d 0) && ok hxy (ent d 1) && ok hz (ent d 2)

/-- The key, grid and offset of a point in odometry coordinates (R111); none outside every window. -/
def State.voxKey (s : State) (odo : List Int) (centres : List (List Int)) : Option (List Nat × Nat × List Nat) :=
  (List.range (s.get (VHU.CTRL_GRID_CNT 0))).findSome? (fun n =>
    let v := s.vlog n
    let i := odo.map (fun x => sra x v)
    let key := i.map (lowBits 21)
    if inWindow (s.get (VHU.GRID_EXT_HXY 0 n)) (s.get (VHU.GRID_EXT_HZ 0 n)) (centres.getD n [0, 0, 0]) key then
      some (key, n, (zipI (fun x j => x - j * 2 ^ v) odo i).map Int.toNat)
    else none)

/-- `s` with a unit changed. -/
def State.setVhu (s : State) (u : Nat) (f : VhuSt → VhuSt) : State := { s with vhu := s.vhu.modify u f }

/-- A unit. -/
def State.vu (s : State) (u : Nat) : VhuSt := s.vhu.getD u {}

/-- The kept marks, newest first, as sweep numbers with their TB_SNS instants in ns (R119). -/
def State.marks (s : State) : List (Nat × Int) := s.rev.starts.zipIdx.map (fun e => (s.rev.sweep - e.2, e.1))

/-- The sweep of a time stamp and its instant (R119). -/
def State.sweepOf (s : State) (t : Int) : Option (Nat × Int) := s.marks.find? (fun m => decide (m.2 ≤ t))

/-- First sweep of the window (R120). -/
def State.windowLo (s : State) : Nat := s.rev.sweep - s.get (VHU.CTRL_SWEEP_WIN_M1 0)

/-- Signed difference of two sweep tags (R117). -/
def tagDiff (a b : Nat) : Int := signedOf 8 (a % 256 + 256 - b % 256)

/-- Points are counted and summed into a slot (R117); answers the slot and whether SAT was set. -/
def VSlot.count (v : VSlot) (off : List Nat) : VSlot × Bool :=
  if v.sat then (v, false)
  else if v.cnt = 65535 then ({ v with sat := true }, true)
  else ({ v with cnt := v.cnt + 1, sum := List.zipWith (fun a b => (a + b) % 2 ^ 40) v.sum off }, false)

/-- update() of R117. -/
def VSlot.update (v : VSlot) (newest : Bool) (off : List Nat) (inten sweep tnew : Nat) : VSlot × Bool :=
  let d := tagDiff sweep v.sweep
  let pres := if bitOf v.pres (sweep % 4) then v.pres else v.pres + 2 ^ (sweep % 4)
  let tag := if 0 < d then sweep % 256 else v.sweep
  let tn := if 0 < d then tnew else if d = 0 then max v.tnew tnew else v.tnew
  let v' : VSlot := { v with pres := pres, imax := max v.imax inten, sweep := tag, tnew := tn }
  if !newest then v'.count off
  else if 0 < d then ({ v' with cnt := 0, sum := [0, 0, 0], sat := false }).count off
  else if d = 0 then v'.count off else (v', false)

/-- A new slot (R115). -/
def newSlot (key : List Nat) (grid : Nat) (off : List Nat) (inten sweep tnew : Nat) : VSlot :=
  { key := key, grid := grid, cnt := 1, sum := off, imax := inten, sat := false, sweep := sweep % 256, pres := 2 ^ (sweep % 4),
    tnew := tnew, fptr := 0xFFFFF }

/-- Location keys: way `w` of bucket `b`, and stash entry `i`. -/
def stashBase : Nat := 2 ^ 20

/-- Whether a bucket's STASHED bit is set (R113): a slot of the bucket lives in the stash. -/
def VhuSt.stashed (v : VhuSt) (b : Nat) : Bool := v.slots.any (fun e => stashBase ≤ e.1 && voxBucket e.2.key = b)

/-- The location of the slot that holds a key (R115). -/
def VhuSt.locate (v : VhuSt) (grid : Nat) (key : List Nat) : Option Nat :=
  (v.slots.find? (fun e => (e.1 / 8 = voxBucket key || stashBase ≤ e.1) && e.2.key = key && e.2.grid = grid)).map Prod.fst

/-- The lowest free location for a new slot of a bucket: way, then stash (R115). -/
def VhuSt.freeLoc (v : VhuSt) (b : Nat) : Option Nat :=
  ((List.range 8).map (fun w => 8 * b + w)).find? (fun l => (find l v.slots).isNone) |>.orElse (fun _ =>
    let used := (v.slots.filter (fun e => stashBase ≤ e.1)).map Prod.fst
    let i := (used.zipIdx.find? (fun e => e.1 ≠ stashBase + e.2)).map Prod.snd |>.getD used.length
    if i < 4096 then some (stashBase + i) else none)

/-- Live stash entries of a unit. -/
def VhuSt.stashOcc (v : VhuSt) : Nat := (v.slots.filter (fun e => stashBase ≤ e.1)).length

/-- Occupancy registers and stash pressure of a unit (R116, R135). -/
def State.vhuOcc (s : State) (u : Nat) : State :=
  let occ := (s.vu u).stashOcc
  let s := (s.put (VHU.OCC_SLOTS u) (s.vu u).slots.length).put (VHU.STASH_OCC_ENTRIES u) occ
  let on_ := s.on (VHU.STAT_STASH_PRESS u)
  if !on_ && s.get (VHU.STASH_WM_HI 0) ≤ occ then (s.set1 (VHU.STAT_STASH_PRESS u)).set1 (VHU.EVT_STASH_PRESS u)
  else if on_ && occ < s.get (VHU.STASH_WM_LO 0) then s.put (VHU.STAT_STASH_PRESS u) 0 else s

/-- What a slot read of a unit meets (R134). -/
def State.vhuMeet (s : State) (u : Nat) (e : EccRes) (inj : Bool) : State :=
  match e with
  | .clean => s
  | .corrected => (s.bump (VHU.ECC_CE_CNT u)).raise (VHU.EVT_ECC_CE u) 1 0 inj
  | .uncorrectable => s.raise (VHU.EVT_ECC_UE u) 2 0 inj

/-- A slot read of a unit: an injected error comes first (R134, R356). -/
def State.vhuRead (s : State) (u : Nat) (e : EccRes) : State :=
  let c := (s.vu u).inj
  if c = 0 then s.vhuMeet u e false
  else (s.setVhu u (fun v => { v with inj := 0 })).vhuMeet u (if c = 1 then .corrected else .uncorrectable) true

/-- The slot reads of a pass, as far as they meet errors (R134). -/
def State.vhuReads (s : State) (u : Nat) (es : List EccRes) : State :=
  (if es.isEmpty then [.clean] else es).foldl (fun s e => s.vhuRead u e) s

/-- A mark of OVERFLOW on a wedge, for its next frame (R106). -/
def State.markOverflow (s : State) (w : Nat) : State :=
  { s with wedges := s.wedges.modify w (fun x => { x with overflow := true, ovfCnt := satU 32 (x.ovfCnt + 1) }) }

/-- VOXEL_INSERT in the owning unit (R115, R117, R119, R120). -/
def State.insertPoint (s : State) (u : Nat) (p : VIns) (ecc : EccRes) : State :=
  match s.sweepOf p.t with
  | none => (s.bump (VHU.STALE_CNT u)).set1 (VHU.EVT_STALE_SWEEP u)
  | some (sw, at_) =>
    if sw < s.windowLo then (s.bump (VHU.STALE_CNT u)).set1 (VHU.EVT_STALE_SWEEP u)
    else
      let tnew := min 16383 ((p.t - at_).toNat / 16384)
      let newest := s.on (VHU.CTRL_SUM_MODE 0)
      let s := s.vhuRead u ecc
      match (s.vu u).locate p.grid p.key with
      | some l =>
        match find l (s.vu u).slots with
        | none => s
        | some v =>
          let (v', sat) := v.update newest p.off p.inten sw tnew
          let s := (s.setVhu u (fun x => { x with slots := ins l v' x.slots })).bump (VHU.INS_CNT u)
          if sat then s.bump (VHU.SAT_CNT u) else s
      | none =>
        match (s.vu u).freeLoc (voxBucket p.key) with
        | some l =>
          ((s.setVhu u (fun x => { x with slots := ins l (newSlot p.key p.grid p.off p.inten sw tnew) x.slots })).bump
            (VHU.INS_CNT u)).vhuOcc u
        | none =>
          (((s.bump (HP.DROP_VOXEL p.slot)).bump (VHU.DROP_FULL_CNT u)).set1 (VHU.EVT_TABLE_FULL u)).markOverflow p.mark

/-- Slots freed where `dead` says so, and the stash slot of lowest index of a bucket moved into each way freed there
(R116). Every slot is judged before any is moved (assumption 18). -/
def VhuSt.release (v : VhuSt) (dead : VSlot → Bool) : VhuSt :=
  let gone := v.slots.filter (fun e => dead e.2)
  let ways := (gone.filter (fun e => e.1 < stashBase)).map Prod.fst
  let kept := v.slots.filter (fun e => !dead e.2)
  let moved := ways.foldl (fun m l =>
      match m.find? (fun e => stashBase ≤ e.1 && voxBucket e.2.key = l / 8) with
      | none => m
      | some e => ins l e.2 (del e.1 m)) kept
  { v with slots := moved }

/-- Whether a bit of PRES survives the departure of sweep `d` (R121): the slot's tag names a sweep inside the window
congruent to `d` modulo 4. -/
def keepsBit (lo cur d tag : Nat) : Bool :=
  (List.range (cur + 1 - lo)).any (fun i => (lo + i) % 256 = tag && (lo + i) % 4 = d % 4)

/-- One slot in the ageing pass (R121). -/
def VSlot.age (v : VSlot) (aged lo cur : Nat) : VSlot :=
  { v with pres := (List.range (min 4 (lo - aged))).foldl (fun p i =>
      let d := lo - 1 - i
      if bitOf p (d % 4) && !keepsBit lo cur d v.sweep then p - 2 ^ (d % 4) else p) v.pres }

/-- The ageing pass of a unit (R121); `es` are the errors that its slot reads meet (R134). -/
def State.agePass (s : State) (u : Nat) (es : List EccRes) : State :=
  let lo := s.windowLo
  let cur := s.rev.sweep
  let pass (v : VhuSt) : VhuSt :=
    let aged : VhuSt := { v with slots := v.slots.map (fun e => (e.1, e.2.age v.aged lo cur)), aged := max v.aged lo }
    aged.release (fun x => x.pres = 0)
  let s := (s.vhuReads u es).setVhu u pass
  (s.vhuOcc u).put (VHU.STAT_AGE_PEND u) 0

/-- A recentring request of a unit still waits: for its start, or for its pass (R122). -/
def State.recWaits (s : State) (u : Nat) : Bool :=
  s.ms.pend.any (fun a => a.code = 2 && a.inst = u) || !(s.vu u).recGrids.isEmpty

/-- The recentring pass of a unit over its grids (R122 step 3); `es` are the errors that its slot reads meet (R134). -/
def State.recentrePass (s : State) (u : Nat) (es : List EccRes) : State :=
  let s := s.vhuReads u es
  let gs := (s.vu u).recGrids
  let out (x : VSlot) : Bool := gs.contains x.grid &&
    !inWindow (s.get (VHU.GRID_EXT_HXY 0 x.grid)) (s.get (VHU.GRID_EXT_HZ 0 x.grid)) (s.grids.centre.getD x.grid [0, 0, 0]) x.key
  let s := (s.setVhu u (fun v => { v.release out with recGrids := [] })).vhuOcc u
  s.put (VHU.STAT_RECENTER_PEND u) (b2n (s.recWaits u))

/-- The voxel index of a position in a grid (R122). -/
def State.posIndex (s : State) (n : Nat) (pos : List Int) : List Int := pos.map (fun p => sra ((p + 32) / 64) (s.vlog n))

/-- The recentring instance of unit `u` runs and its commit point is still to come (R122 step 1). -/
def State.recOpen (s : State) (u : Nat) : Bool := s.msRuns 2 u && !(s.vu u).recGo

/-- The scheduler starts the recentring instances that nothing keeps waiting, one a unit (R122, R374); once they run on both units
their grids are settled. -/
def State.recentreStart (s : State) : State :=
  let was := s.recOpen 0 && s.recOpen 1
  let s := [0, 1].foldl (fun s u => if s.msCanStart 2 u && !s.msRuns 2 u then s.msStart 2 u else s) s
  if s.recOpen 0 && s.recOpen 1 && !was then
    { s with grids := { s.grids with recRun := s.grids.recPend, recPend := [] } }
  else s

/-- A request of recentring grid `n` on both units (R122, R374): it merges with an instance that waits for its start, on this unit or
on the other. -/
def State.recentreRequest (s : State) (n : Nat) : State :=
  let both := s.recOpen 0 && s.recOpen 1
  let s : State := { s with grids := { s.grids with recPend := insSet n s.grids.recPend } }
  let s := [0, 1].foldl (fun s u => if s.recOpen u && !both then s else s.msRequest 2 u) s
  ((s.set1 (VHU.STAT_RECENTER_PEND 0)).set1 (VHU.STAT_RECENTER_PEND 1)).recentreStart

/-- Requests of recentring after an accepted sample (R122). -/
def State.recentreCheck (s : State) (pos : List Int) : State :=
  (List.range (s.get (VHU.CTRL_GRID_CNT 0))).foldl (fun s n =>
    let idx := s.posIndex n pos
    let step := s.get (VHU.GRID_RECT_STEP 0 n)
    if (zipI (· - ·) idx (s.grids.centre.getD n [0, 0, 0])).any (fun d => decide (step < d.natAbs)) then s.recentreRequest n
    else s) s

/-- The grid centres that move at a commit point (R122 step 1): those of the instances that have started on both units. -/
def State.commitRecentre (s : State) : State :=
  let s := s.recentreStart
  match s.pose.poses.getLast? with
  | none => s
  | some p =>
    if !(s.recOpen 0 && s.recOpen 1) then s
    else
      let gs := s.grids.recRun
      let s := gs.foldl (fun s n =>
        let idx := s.posIndex n p.pos
        let s := { s with grids := { s.grids with centre := s.grids.centre.set n idx } }
        [0, 1].foldl (fun s u => ((s.put (VHU.GRID_CTR_X_KEY u n) (lowBits 21 (ent idx 0))).put (VHU.GRID_CTR_Y_KEY u n)
          (lowBits 21 (ent idx 1))).put (VHU.GRID_CTR_Z_KEY u n) (lowBits 21 (ent idx 2))) s) s
      let s := { s with grids := { s.grids with recRun := [] } }
      [0, 1].foldl (fun s u => (s.setVhu u (fun v => { v with recGo := true, recGrids := gs, recAt := s.mono })).set1 (VHU.EVT_RECENTER u)) s

/-- The recentring instance of a unit ends with its pass (R122 step 3); a later request may start. -/
def State.recentreEnd (s : State) (u : Nat) : State :=
  ((s.msEnd 2 u).setVhu u (fun v => { v with recGo := false })).recentreStart

/-- A feature pointer stored by key in the owning unit, or lost (R131); `ecc` is what the slot read meets (R134). -/
def State.storeFptr (s : State) (grid : Nat) (key : List Nat) (fptr : Nat) (ecc : EccRes) : State :=
  let u := voxOwner key
  let s := s.vhuRead u ecc
  match (s.vu u).locate grid key with
  | some l => s.setVhu u (fun v => { v with slots := v.slots.map (fun e => if e.1 = l then (e.1, { e.2 with fptr := fptr }) else e) })
  | none => (s.bump (VHU.FPTR_LOST_CNT u)).set1 (VHU.EVT_FPTR_LOST u)


end Sys2Proof.Machine
end

