-- ==== Sys2Proof/Machine/Wedge.lean ====
section
/-! DEFINITION. The wedge scheduler and commit points (R12 to R15, R49, R71 to R73, R91, R269, R273, R291, R300). -/

namespace Sys2Proof.Machine

abbrev idNone : Nat := 0
abbrev idChallenging : Nat := 1
abbrev idTrusted : Nat := 2
abbrev idUnenrolled : Nat := 3
abbrev idFailed : Nat := 4

/-- The state of a head port. -/
def State.hd (s : State) (h : Nat) : HeadSt := s.heads.getD h {}

/-- `s` with the state of a head port changed. -/
def State.setHd (s : State) (h : Nat) (f : HeadSt → HeadSt) : State := { s with heads := s.heads.modify h f }

/-- The scheduler's state of a wedge. -/
def State.wd (s : State) (w : Nat) : WedgeSt := s.wedges.getD w {}

/-- `s` with the scheduler's state of a wedge changed. -/
def State.setWd (s : State) (w : Nat) (f : WedgeSt → WedgeSt) : State := { s with wedges := s.wedges.modify w f }

/-- The scheduler sets bits and closes wedges (R72). -/
def State.schedules (s : State) : Bool := s.dev = dsNoon || s.dev = dsMidnight

/-- Changes of identity and quarantine that take effect at a commit point (R91, R92). -/
def State.commitIds (s : State) : State :=
  (List.range 8).foldl (fun s h =>
    let s := match (s.hd h).idDue with
      | none => s
      | some o => (s.put (HP.STAT_ID_STATE h) o).setHd h (fun x => { x with idDue := none, quarDue := some (o ≠ idTrusted) })
    match (s.hd h).quarDue with
    | none => s
    | some q => (s.put (HP.STAT_QUAR h) (b2n q)).setHd h (fun x => { x with quarDue := none })) s

/-- The pending SH values of the registers that `p` picks made effective (R12, R13). -/
def State.commitShadow (s : State) (p : Nat → Bool) : State :=
  let due := s.shadow.filter (fun e => p e.1)
  let s := due.foldl (fun s e => s.setReg e.1 e.2.toNat) s
  { s with shadow := s.shadow.filter (fun e => !p e.1) }

/-- A wedge is due to close when the present evaluation step ends (R71). -/
def State.wedgeDue (s : State) (w : Nat) : State :=
  let s : State := { s with pipe := { s.pipe with dueAt := some s.mono } }
  s.setWd w (fun x => { x with due := x.due.orElse (fun _ => some s.mono) })

/-- Masks after a change of the heads they hold (R72, R73): bits of heads that left are dropped, a mask no head is left in
is discarded with its timer; answers the wedges whose masks are now complete. -/
def State.trimMasks (s : State) : State × List Nat :=
  (List.range 64).foldl (fun (p : State × List Nat) w =>
    let (s, l) := p
    let x := s.wd w
    let hs := s.maskHeads w
    if hs = 0 then (s.setWd w (fun x => { x with mask := 0, timer := none, after := none, due := none }), l)
    else
      let m := Nat.land x.mask hs
      let s := if m = x.mask then s else s.setWd w (fun x => { x with mask := m })
      (s, if m = hs && x.after.isNone && x.due.isNone then l ++ [w] else l)) (s, [])

/-- The masks at a commit point: a mask completed there closes its wedge in the next step (R72). -/
def State.masksAtCommit (s : State) : State :=
  if !s.schedules then s
  else
    let (s, l) := s.trimMasks
    l.foldl (fun s w => s.setWd w (fun x => { x with after := some s.mono })) s

/-- A commit point (R12, R49, R91, R122, R275): the apply of a due batch, version switches, SH values, steps, identity
and recentring take effect together. -/
def State.commitPoint (s : State) : State :=
  (((((s.applyBatch.switchVersions.commitShadow (fun _ => true)).commitSteps).commitIds).commitRecentre).masksAtCommit)

/-- Head angle at which head `h` enters the span of wedge `w` (R69). -/
def State.nearAngle (s : State) (h w : Nat) : Nat :=
  let ofs := s.get (AT.AZ_OFS_OFFSET h)
  if s.on (AT.CFG_DIR h) then (ofs + 2 ^ 24 - (w + 1) * 2 ^ 18 % 2 ^ 24) % 2 ^ 24 else (w * 2 ^ 18 + 2 ^ 24 - ofs) % 2 ^ 24

/-- TB_SNS (ns) of the latest entry of the head's predicted angle into the span of wedge `w`: none before its present run of events,
which recorded none (R291). -/
def State.entryAt (s : State) (h w : Nat) : Option Int :=
  let r := (s.tk h).r
  if !s.tracking h || r = 0 || s.lastPass h (s.nearAngle h w) < (s.tk h).runStart then none
  else some (s.snsNs - ((s.angle h - (s.nearAngle h w : Int) * 2 ^ 16) % 2 ^ 40) * 2 ^ 16 / r)

/-- An entry after the previous close brings the recorded one forward (R291). -/
def WedgeSt.enter (x : WedgeSt) (e : Option Int) : WedgeSt :=
  match e with
  | none => x
  | some e =>
    let late := match x.prev with | none => true | some p => decide (p < e)
    if late then { x with opened := some (match x.opened with | none => e | some o => min o e) } else x

/-- What a closing wedge is known by before the commit point of its close (R73, R291, R292): it closes at the instant at which it came
due. -/
def State.closing (s : State) (w : Nat) (timeout : Bool) : WJob :=
  let cover := s.maskHeads w
  let x := (List.range 8).foldl (fun x h => if bitOf cover h then WedgeSt.enter x (s.entryAt h w) else x) (s.wd w)
  let at_ := x.due.getD s.mono
  let now := s.time.sns.at_ at_ / 16
  let worn (h : Nat) := bitOf cover h && (s.on (HP.STAT_WORN h) || s.on (HP.STAT_LIFE_END h))
  let win := s.get (VHU.CTRL_SWEEP_WIN_M1 0) + 1
  { w := w, seq := 0, at_ := at_, tClose := now,
    tOpen := (x.opened.orElse (fun _ => x.prev)).getD x.timerSns,
    cover := cover, missing := if timeout then cover - Nat.land cover x.mask else 0, timeout := timeout,
    degraded := (List.range 8).any worn,
    partial_ := (match s.pipe.restartSweep with | none => false | some k => decide (s.rev.sweep < k + win)),
    sweep := s.rev.sweep, rev := s.rev.count }

/-- The values that a wedge latches (R12, R159, R270). -/
def State.latch (s : State) (j : WJob) : WJob :=
  { j with regs := s.regs, centre := s.grids.centre, pose := s.pose.poses.getLast?, off := s.map.off }

/-- A wedge joins the backlog (R30). -/
def State.joinBacklog (s : State) (j : WJob) : State :=
  let j := { j with seq := s.pipe.closes }
  let n := ((s.pipe.backlog ++ [j]).filter (fun j => !j.golden)).length
  { s with pipe := { s.pipe with backlog := s.pipe.backlog ++ [j], closes := s.pipe.closes + 1 },
           age := { s.age with backMax := max s.age.backMax n } }

/-- The Age Monitor's expectation of a wedge frame (R300). -/
def State.expectWedge (s : State) (j : WJob) : State :=
  { s with out := { s.out with expects := s.out.expects ++
      [{ wedge := true, slot := 0, id := j.w, tClose := j.tClose, ends := j.at_ + s.get AM.WEDGE_MISS_US * tickUs }] } }

/-- Wedges close (R71 to R73), given in ascending number, each with whether on its timeout: one commit point outside Midnight, then
each latches its values and joins the backlog. A wedge that an earlier commit point completed latches the values of that point (R72). -/
def State.closeWedges (s : State) (ws : List (Nat × Bool)) : State :=
  if ws.isEmpty then s
  else
    let js := ws.map (fun e => if (s.wd e.1).after.isSome then (s.latch (s.closing e.1 e.2), true) else (s.closing e.1 e.2, false))
    let s := js.foldl (fun s e => (s.expectWedge e.1).setWd e.1.w (fun x =>
      { x with mask := 0, timer := none, after := none, due := none, opened := none, prev := some e.1.tClose })) s
    let s := if s.dev = dsMidnight then s else s.commitPoint
    let s := js.foldl (fun s e => s.joinBacklog (if e.2 then e.1 else s.latch e.1)) s
    let noon : Bool := s.dev = dsNoon
    { s with safety := { s.safety with wedgeSeen := s.safety.wedgeSeen || noon, survive := s.safety.survive && !noon } }

/-- The wedges due to close. -/
def State.dueWedges (s : State) : List Nat := (List.range 64).filter (fun w => (s.wd w).due.isSome)

/-- The end of an evaluation step (R71): the wedges that came due in it close, on their timeout where the mask is not complete. -/
def State.closeDue (s : State) : State :=
  match s.pipe.dueAt with
  | none => s
  | some _ =>
    let u := ({ s with pipe := { s.pipe with dueAt := none } } : State).closeWedges
      (s.dueWedges.map (fun w => (w, decide (Nat.land (s.wd w).mask (s.maskHeads w) ≠ s.maskHeads w))))
    { u with pending := s.pending, mono := s.mono, safety := { u.safety with released := s.safety.released } }

/-- `s` at the instant of a command: the wedges that came due in an evaluation step that is over have closed (R71), and TB_MONO is
there. -/
def State.at_ (s : State) (t : Nat) : State :=
  match s.pipe.dueAt with
  | none => s.clock t
  | some a => if evalStep a < evalStep (max s.mono t) then s.closeDue.clock t else s.clock t

/-- The masks after heads have left or entered them outside a commit point: a mask so completed is due to close. -/
def State.masksChanged (s : State) : State :=
  if !s.schedules then s
  else
    let (s, l) := s.trimMasks
    l.foldl State.wedgeDue s

/-- Waiting identity changes take effect at once where no wedge is being processed (R13), and the masks follow (R73, R91). -/
def State.quarNow (s : State) : State := if s.noWedge then s.commitIds.masksChanged else s

/-- Every pending action of a commit point that waits for no PG_COMMIT, at once where no wedge is being processed (R13):
steps, version switches, a due batch, identity; steps and switches that survived a restart wait for the first boundary (R15). -/
def State.actNow (s : State) : State :=
  if s.noWedge && s.dev ≠ dsHold then
    let s := s.applyBatch
    let s := if s.safety.survive then s else s.switchVersions.commitSteps
    s.commitIds.commitRecentre.masksChanged
  else s

end Sys2Proof.Machine
end

