-- ==== Sys2Proof/Machine/Stops.lean ====
section
/-! DEFINITION. What ends service: flushing the output, Midnight entry, Hold entry and the entries to Ready (R133, R276,
R301, R349, R352, R433 to R437, R441). -/

namespace Sys2Proof.Machine

/-- Object records that fit fragment 0 and each later fragment (R295): an IP packet is 28 bytes of headers, 16 bytes of
datagram header, the frame or continuation header, and records of 32 bytes. -/
def fragFit (mtu : Nat) : Nat × Nat := ((mtu - 28 - 16 - 64) / 32, (mtu - 28 - 16 - 16) / 32)

/-- Fragments of a frame of `n` objects (R295). -/
def fragCount (mtu n : Nat) : Nat :=
  let (a, b) := fragFit mtu
  if n ≤ a then 1 else 1 + ceilDiv (n - a) b

/-- Bytes in use of the wedge queue (R287): blocks of wedges not golden, and frames waiting on some port. -/
def State.wedgeQueue (s : State) : Nat :=
  let gold (a : Nat) : Bool := s.pipe.flight.any (fun j => j.admNo = a && j.golden)
  let b := s.out.blocks.foldl (fun n e => if gold e.1 then n else n + e.2.2.length) 0
  let fs := s.out.frames.foldl (fun (l : List (Nat × Nat)) f =>
    if l.any (fun e => e.1 = f.job.admNo) then l else l ++ [(f.job.admNo, 64 + 32 * f.objs.length)]) []
  b + fs.foldl (fun n e => n + e.2) 0

/-- OUT.STAT: records queued and KiB of the wedge queue (R304). -/
def State.outStat (s : State) : State :=
  (s.put OUT.STAT_COL_Q s.out.colQ.length).put OUT.STAT_WEDGE_Q (satU 8 (ceilDiv s.wedgeQueue 1024))

/-- Every record and fragment that the output block holds is discarded and counted (R301). -/
def State.flushOutput (s : State) : State :=
  let mtu := s.get OUT.MTU_BYTES
  let frags := s.out.frames.foldl (fun n f => n + (fragCount mtu f.objs.length - f.frag)) 0
  let adm := (s.out.blocks.map Prod.fst).foldl (fun l a => if l.contains a then l else l ++ [a]) []
  let s := s.addCnt OUT.FLUSH_CNT (s.out.colQ.length + frags + adm.length)
  ({ s with out := { s.out with colQ := [], frames := [], reports := [], blocks := [], held := [] } } : State).outStat

/-- A tile whose program is stopped: what it keeps is its scrubbing and what is injected. -/
def TileSt.stopped (x : TileSt) : TileSt :=
  { ceq := x.ceq, ovfLine := x.ovfLine, scrubLine := x.scrubLine, sweepAt := x.sweepAt, inj := x.inj, injTag := x.injTag,
    injSeq := x.injSeq, conflictLog := x.conflictLog }

/-- Tile programs stopped and the pipeline emptied of admitted wedges (R142, R349 step 2). -/
def State.stopTiles (s : State) : State :=
  let s : State := { s with tiles := s.tiles.map TileSt.stopped }
  let s := [0, 1].foldl (fun s u => s.put (VHU.STAT_BUILD u) 0) s
  let s := { s with age := { s.age with forced := false, goldT0 := none } }
  { (s.put BIST.STAT_GOLD_INFLIGHT 0) with
    pipe := { s.pipe with flight := [], building := false, nextAdmit := 0, backlog := s.pipe.backlog.filter (fun j => !j.golden) } }

/-- A tile's page back at its reset values: the tile has lost its power (R441). -/
def State.tilePageLost (s : State) (g : Nat) : State :=
  { s with regs := s.regs.filter (fun e => e.1 / 4096 ≠ 0x100 + g), shadow := s.shadow.filter (fun e => e.1 / 4096 ≠ 0x100 + g) }

/-- The compute-die domains 0 to 19 off (R440): scratchpads, tags and tile registers lose their contents. -/
def State.tilesOff (s : State) : State :=
  let s := s.stopTiles
  let s := s.put PM.DOM_ON_ON (s.get PM.DOM_ON_ON / 2 ^ 20 * 2 ^ 20)
  { s with regs := s.regs.filter (fun e => e.1 < 0x100000), shadow := s.shadow.filter (fun e => e.1 < 0x100000),
           spd := [], tags := [], tiles := List.replicate 80 {} }

/-- The voxel tables of R133 cleared. -/
def State.clearVoxels (s : State) : State :=
  [0, 1].foldl (fun s u => (s.setVhu u (fun v => { v with slots := [], gold := [] })).vhuOcc u) s

/-- The wedge scheduler's masks and timers emptied (R72, R435). -/
def State.clearMasks (s : State) : State :=
  { s with wedges := s.wedges.map (fun x => { x with mask := 0, timer := none, after := none, due := none }),
           pipe := { s.pipe with dueAt := none } }

/-- Expectations closed without counting (R301, R437). -/
def State.closeExpects (s : State) : State := { s with out := { s.out with expects := [] } }

/-- FAULT_N as R353 states for the present device state. -/
def State.faultN (s : State) : State :=
  let low := s.dev = dsHold || (s.dev = dsMidnight && s.on SI.CTRL_FAULTN_MID) || s.dev = dsDawn
  { s with pins := { s.pins with faultN := !low } }

/-- TILE.SPD_STAT.LAT_MODE of every powered tile (R196): fixed mode in Dawn and Midnight. -/
def State.latMode (s : State) : State :=
  let v := b2n (s.dev = dsDawn || s.dev = dsMidnight)
  (List.range 80).foldl (fun s g => if s.get (TILE.ROLE_ROLE g) = 0 then s else s.put (TILE.SPD_STAT_LAT_MODE g) v) s

/-- Midnight entry (R349 steps 2 and 3, R301, R133, R276). -/
def State.enterMidnight (s : State) : State :=
  let s := s.flushOutput.stopTiles
  let s := s.put OUT.RESTARTS_COUNT ((s.get OUT.RESTARTS_COUNT + 1) % 256)
  let s := (s.setDev dsMidnight).faultN.latMode
  let s := s.clearVoxels.discardMap
  { s with pipe := { s.pipe with restartSweep := some s.rev.sweep },
           safety := { s.safety with refilled := false, noonEntry := false } }

/-- The partner link stopped (R440: partner lanes stopped in Dawn and Hold): TB_PTN is invalid (R54). -/
def State.linkStopped (s : State) : State :=
  let s := ((s.put PLK.STAT_STATE 0).put PLK.STAT_LANES 0).put PLK.STAT_FWD_SLOTS 0
  ({ s with plk := { s.plk with remote := 0 } } : State).ptnInvalid

/-- Every head port down and every tracker off, as Hold leaves them (R352, R65, R90, R108). -/
def State.headsStopped (s : State) : State :=
  (List.range 8).foldl (fun s h =>
    let s := if s.on (HP.STAT_LINK h) then (s.put (HP.STAT_LINK h) 0).set1 (HP.EVT_LINK_DOWN h) else s
    let s := (((s.put (HP.STAT_ID_STATE h) idNone).put (HP.ID_CTRL_RECHAL h) 0).put (HP.STAT_QUAR h) 1).put (AT.STAT_STATE h) atOff
    let s := s.setTk h (fun k => { k with acq := {}, bad := 0, fired := [], lastTs := none, passTs := none })
    s.setHd h (fun x => { x with sentAt := none, retryAt := none, checking := false, segs := [], chalDue := false, idDue := none,
                                 quarDue := none })) s

/-- Entry to Hold (R352, R12, R13, R276, R301, R422, R440, R444): a time step that waits takes effect at once; the device waits for no
firmware image any more. -/
def State.enterHold (s : State) (cause : Nat) : State :=
  if s.dev = dsHold then s
  else
    let s := (s.put SI.HOLD_CAUSE_CAUSE cause).set1 SI.EVT_HOLD
    let s := ({ s with out := { s.out with colQ := [], frames := [], reports := [], blocks := [], held := [] } } : State).outStat
    let s := s.closeExpects.tilesOff.clearMasks
    let s := (s.setDev dsHold).headsStopped.linkStopped.loseMap.commitSteps
    let s := (s.put PM.DOM_ON_ON 0x23100000).put MS.STAT_RUN 0
    let s := (List.range 4).foldl (fun s d => s.put (PM.VCMP_EN d) 0) s
    { s with shadow := [], pipe := {}, ms := { s.ms with run := [] }, wedges := List.replicate 64 {}, sec := { s.sec with waits := none },
             pins := { s.pins with faultN := false, hbOut := false, cmpPwrEn := false, rstOut := false },
             safety := { s.safety with holdAt := some s.mono, noonEntry := false, survive := false, handling := s.safety.handling } }

/-- Entry to Ready from Noon or Dusk (R13, R435 to R437): a commit point. -/
def State.enterReady (s : State) : State :=
  let s := s.tilesOff.clearMasks.closeExpects
  let s := { s with pipe := { s.pipe with backlog := [], flight := [], building := false } }
  let s := (s.setDev dsReady).commitPoint.faultN
  { s with ing := s.ing.map (fun _ => {}), vhu := s.vhu.map (fun v => { v with inq := [] }),
           safety := { s.safety with handling := false, wedgeSeen := false, survive := false } }

/-- Hours out of reset, continued from the log (R384). -/
def State.hours (s : State) : Nat := s.age.hours0 + s.mono / (3600 * tickS)

/-- The record of the present margins (R383). -/
def State.ageRec (s : State) : AgeRec :=
  { seq := (s.get AGE.LOG_SEQ + 1) % 2 ^ 32, hours := s.hours, ofs := (List.range 4).map (fun d => s.getI (AGE.AVS_OFS d))
    ref := (List.range 2).map (fun u => s.get (DRAM.STAT_REF_DIV u)), slack := (List.range 4).map (fun d => s.get (AGE.SLACK_PS_WORST d))
    ro := (List.range 6).map (fun i => s.get (AGE.RO_KHZ i)), ret := (List.range 2).map (fun u => s.get (DRAM.RET_MS_MS u))
    eye := s.age.eyeMin, temp := s.age.hotMax }

/-- A record written circularly, 64 to a sector: the sector after the newest is erased before it is first written (R383). -/
def State.logAppend (s : State) (r : AgeRec) : List AgeRec :=
  (if 64 * s.get AGE.LOG_SECTORS ≤ s.age.log.length then s.age.log.drop 64 else s.age.log) ++ [r]

/-- An ageing-log record written, or its write failed (R383); the Security Island refuses one below flash byte 0x0010_1000 (R420), so
every one where no log is named (DEDUCED, assumption 117). -/
def State.writeAgeLog (s : State) (failed : Bool) : State :=
  let s := s.put AGE.HOURS s.hours
  if failed || decide (s.get AGE.LOG_BASE * 4096 < 0x101000) then (({ s with age := { s.age with logDue := true } } : State).raise AGE.EVT_LOG_FAIL 0)
  else
    let r := s.ageRec
    let hot := (List.range 6).foldl (fun m i => max m (s.getI (PM.TEMP_C16 i))) 0
    ({ s with age := { s.age with log := s.logAppend r, logDue := false, hotMax := hot } } : State).put AGE.LOG_SEQ r.seq

/-- The remaining wedges and held records of an abandoned drain discarded and counted (R435). -/
def State.abandonDrain (s : State) : State :=
  let n := (s.pipe.backlog ++ s.pipe.flight).length
  (s.flushOutput).addCnt OUT.FLUSH_CNT n

/-- The end of Dusk (R435 step 3). -/
def State.endDusk (s : State) (logFail : Bool) : State := (s.enterReady).writeAgeLog logFail

/-- A drain abandoned by a C2 or its limit (R343, R435); whether the ageing-log write fails is a free value
(assumption 33). -/
def State.duskEnd (s : State) : State :=
  let (v, s) := s.random
  s.abandonDrain.endDusk (v % 2 = 1)

/-- GO_READY in Noon or Dusk (R436). -/
def State.goReady (s : State) : State := s.flushOutput.discardMap.enterReady

end Sys2Proof.Machine
end

