-- ==== Sys2Proof/Machine/Run.lean ====
section
/-! DEFINITION. The class actions of reported faults and the wrapper that every meaning goes through (R343 to R348). -/

namespace Sys2Proof.Machine

/-- Restarts begun within the last 1,000 ms (R348). -/
def State.recentRestarts (s : State) : List Nat := s.safety.restarts.filter (fun r => decide (s.mono < r + 1000 * tickMs))

/-- The whole-job restart, or Hold at the restart limit (R348, R349 steps 1 and 2). -/
def State.restart (s : State) : State :=
  if 2 ≤ s.recentRestarts.length then
    ({ s with safety := { s.safety with handling := true } }).enterHold 2
  else
    let s := { s with safety := { s.safety with restarts := s.mono :: s.recentRestarts, handling := true } }
    ((s.set1 SI.EVT_RESTART).bump SI.RST_CNT).enterMidnight

/-- The due class actions taken, C3 before C2, one restart for several C2 of a cycle (R343, R344, R347). -/
def State.settle (s : State) : State :=
  if s.safety.act = 0 then s
  else
    let a := s.safety.act
    let c := s.safety.holdCause
    let s := { s with safety := { s.safety with act := 0, holdCause := 1 } }
    if s.dev = dsHold then s
    else if a = 2 && s.safety.restarts.head? = some s.mono then s
    else if a = 3 then ({ s with safety := { s.safety with handling := true } }).enterHold c
    else if s.dev = dsNoon || s.dev = dsMidnight then s.restart
    else if s.dev = dsDusk then s.duskEnd
    else s

/-! ### Pages that raise notification (R329, R331) -/

/-- Offset of the event register of each block, by block code. -/
def evtOffsets : List (Nat × Nat) := [
  (0x01, 0x054), (0x02, 0x04C), (0x03, 0x078), (0x04, 0x048), (0x05, 0x048), (0x06, 0x048), (0x07, 0x068), (0x08, 0x048),
  (0x09, 0x044), (0x0A, 0x050), (0x0B, 0x044), (0x0C, 0x054), (0x0D, 0x048), (0x0E, 0x04C), (0x0F, 0x050), (0x10, 0x048),
  (0x11, 0x04C), (0x12, 0x044), (0x13, 0x04C), (0x14, 0x064), (0x20, 0x05C)]

/-- PG_IRQ_RAW of a page: the block's event bits, a tile's scratchpad events from bit 8 up (R215, R331). -/
def State.irqRaw (s : State) (page : Nat) : Nat :=
  let p := if page = 0x02B then 0x02A else page
  match find (blockCode p) evtOffsets with
  | none => 0
  | some o => s.reg (p * 4096 + o) + (if 0x100 ≤ p then s.reg (p * 4096 + 0x210) * 256 else 0)

/-- PG_IRQ_OUT of a page (R331). -/
def State.irqOut (s : State) (page : Nat) : Nat := Nat.land (s.irqRaw page) (s.reg (page * 4096 + 0x014))

/-- The pages whose PG_IRQ_OUT is non-zero, in ascending order. -/
def State.outPages (s : State) : List Nat :=
  ((s.regs.filter (fun e => e.1 % 4096 = 0x014)).map (fun e => e.1 / 4096)).filter (fun p => s.irqOut p ≠ 0)

/-- A page whose PG_IRQ_OUT has become non-zero raises notification where its NOTIFY_EN is 1; every host client with its MASK
bit and a frame accepted since reset is then due a NOTIFY (R329). -/
def State.notice (s : State) : State :=
  let out := s.outPages
  let raised := out.any (fun p => !s.own.wasOut.contains p && s.on (PG.CTRL_NOTIFY_EN p))
  let due (c : Nat) : Bool := s.own.notifyDue.getD c false ||
    (raised && bitOf (s.get SYS.NOTIFY_MASK) c && (s.own.last.getD c none).isSome)
  { s with own := { s.own with wasOut := out, notifyDue := [due 0, due 1] } }

/-- The end of every meaning: the actions of the faults it has raised are taken, the pages that raise notification are noted,
and what no command but PORST_N_LOW changes is as it was before it: the queue, TB_MONO, the level of PORST_N. -/
def State.finish (s0 s : State) : State :=
  let s := s.settle.notice
  { s with pending := s0.pending, mono := s0.mono,
           safety := { s.safety with released := s0.safety.released, act := 0, holdCause := 1 } }

/-- The frame of every meaning: in reset nothing happens (R448); else the command acts at its instant. -/
def run (t : Nat) (f : State → State) (s : State) : Out :=
  if s.released then .next ((s.at_ t).finish (f (s.at_ t))) else .next s

/-! ### Frames that a host port receives (R306 to R309, R312) -/

/-- A port takes the datagram's frame (R76, R306): at most one 802.1Q tag, no IP fragment, and 9,216 bytes at most with the headers
of Ethernet, IPv4 and UDP or ICMP, the frame check sequence and MACsec's 32 bytes (DESIGN CHOICE, assumption 104). -/
def frameTaken (d : Datagram) (sec : Bool) : Bool :=
  d.tags ≤ 1 && !d.frag && decide (14 + 4 * d.tags + 20 + 8 + d.payload.length + 4 + 32 * b2n sec ≤ 9216)

/-- The signature engine checks an answer of a head: it pre-empts everything else (R413). -/
def State.headCheck (s : State) : Bool := s.heads.any (fun x => x.checking)

/-- A host port's state. -/
def State.host (s : State) (p : Nat) : HostPort := s.hosts.getD p {}

/-- `s` with a host port's state changed. -/
def State.setHost (s : State) (p : Nat) (f : HostPort → HostPort) : State := { s with hosts := s.hosts.modify p f }

/-- MACsec is in force on a port (R309). -/
def State.secOn (s : State) (p : Nat) : Bool := s.on (HS.STAT_PROTECT p)

/-- The receive channel that an SCI identifies (R310). -/
def State.rxChan (s : State) (p sci : Nat) : Option Nat :=
  [0, 1].find? (fun c => s.get (HS.RXSCI_HI p c) * 2 ^ 32 + s.get (HS.RXSCI_LO p c) = sci)

/-- The receive SA that a SecTAG selects (R310, R312): its place among the six. -/
def State.rxSa (s : State) (p : Nat) (x : SecInfo) : Option Nat :=
  if 2 ≤ x.an then none else (s.rxChan p x.sci).map (fun c => 2 + 2 * c + x.an)

/-- A frame received on a host port: while MACsec is in force an unprotected one, one that fails its ICV and one outside the replay
window are discarded and counted; one whose SecTAG selects no SA counts as an ICV failure (DEDUCED, assumption 112); a protected one
without MACsec is discarded (R307, R309, R312); else `f`. -/
def State.hostRx (s : State) (p : Nat) (x : SecInfo) (f : State → State) : State :=
  if !s.on (HS.STAT_LINK p) then s
  else
    let s := s.bump (HS.RX_CNT p)
    let i := (s.rxSa p x).getD 6
    let sa := (s.host p).sas.getD i {}
    if !s.secOn p then (if x.protected_ then s else f s)
    else if !x.protected_ then (s.bump (HS.UNPROT_DROP_CNT p)).set1 (HS.EVT_UNPROT_DROP p)
    else if sa.key.isNone || !x.icvOk then (s.bump (HS.ICV_FAIL_CNT p)).set1 (HS.EVT_ICV_FAIL p)
    else if x.pn = 0 || x.pn + s.get (HS.MACSEC_REPLAY_WIN p) < sa.pn then (s.bump (HS.REPLAY_CNT p)).set1 (HS.EVT_REPLAY p)
    else f (s.setHost p (fun h => { h with sas := h.sas.modify i (fun a => { a with pn := max a.pn (x.pn + 1) }) }))

/-- A frame of the uncontrolled port counted (R309). -/
def State.rxCount (s : State) : Port → State
  | .head _ => s
  | .host p => if s.on (HS.STAT_LINK p) then s.bump (HS.RX_CNT p) else s

end Sys2Proof.Machine
end

