-- ==== Sys2Proof/Machine/PlkCore.lean ====
section
/-! DEFINITION. The partner link: sending, forwarded slots, the loss of the partner, trackers taken to OFF
(R54, R65, R90, R392, R394 to R400, R404 to R408). -/

namespace Sys2Proof.Machine

/-- The random source serves its consumers (R414). -/
def State.rngOk (s : State) : Bool := !s.sec.rngBad

/-- A head's tracker goes to OFF (R65): it leaves every mask. -/
def State.trackerOff (s : State) (h : Nat) : State :=
  if s.atState h = atOff then s
  else
    let s := s.setTk h (fun k => { k with acq := {}, bad := 0, fired := [], lastTs := none, passTs := none })
    (s.put (AT.STAT_STATE h) atOff).masksChanged

/-- `s` with the partner link changed. -/
def State.pl (s : State) (f : PlkSt → PlkSt) : State := { s with plk := f s.plk }

/-- Bytes held in the replay buffer, and the same with a further payload of `n` (R394, R396). -/
def PlkSt.held (k : PlkSt) : Nat := k.replay.foldl (fun n f => n + 20 + f.body.payload.length) 0

/-- The bytes of a frame (R394): its 16-byte header, its payload and the CRC-32 over both, little-endian (R7). -/
def LinkBody.frame (b : LinkBody) (lseq ack : Nat) : Bytes :=
  let x := leBytes 1 b.type ++ leBytes 1 b.flags ++ leBytes 2 b.payload.length ++ leBytes 4 lseq ++ leBytes 4 ack ++ leBytes 1 b.slot ++
    zeroBytes 3 ++ b.payload
  x ++ leBytes 4 (crc32 x)

/-- A sequenced frame with room in the replay buffer sent (R394, R396). -/
def State.linkPut (s : State) (b : LinkBody) : State :=
  let n := (s.plk.txSeq + 1) % 2 ^ 32
  let s := s.pl (fun k => { k with txSeq := n, lastTx := s.mono, replay := k.replay ++ [{ lseq := n, at_ := s.mono, body := b }] })
  s.emit (.link (b.frame n s.plk.rxSeq))

/-- Frames that waited sent as room appears. -/
def State.linkDrain (s : State) : Nat → State
  | 0 => s
  | n + 1 =>
    match s.plk.txWait with
    | [] => s
    | b :: rest =>
      if 2 ^ 18 < s.plk.held + 20 + b.payload.length then s
      else ((s.pl (fun k => { k with txWait := rest })).linkPut b).linkDrain n

/-- The place of a frame type in the order of transmission (R395), of those that carry a sequence number. -/
def linkRank (type : Nat) : Nat := [0x01, 0x02, 0x06, 0x04, 0x03, 0x05, 0x08, 0x09].findIdx (fun x => x = type)

/-- A frame put among those that wait: behind those of its own priority and above (R395). -/
def insLink (b : LinkBody) : List LinkBody → List LinkBody
  | [] => [b]
  | x :: l => if linkRank b.type < linkRank x.type then b :: x :: l else x :: insLink b l

/-- A sequenced frame sent (R394 to R396): it waits while the replay buffer of 256 KiB cannot hold it. -/
def State.linkSend (s : State) (b : LinkBody) : State :=
  let s := s.pl (fun k => { k with txWait := insLink b k.txWait })
  s.linkDrain s.plk.txWait.length

/-- An acknowledgement taken (R396): frames up to it leave the replay buffer. -/
def State.linkAck (s : State) (ack : Nat) : State :=
  let done (n : Nat) : Bool := decide ((ack + 2 ^ 32 - n) % 2 ^ 32 < 2 ^ 31)
  let s := s.pl (fun k => { k with replay := k.replay.filter (fun f => !done f.lseq) })
  s.linkDrain s.plk.txWait.length

/-- A frame without a sequence number sent: TIME, IDLE (R394, R396). -/
def State.linkPlain (s : State) (b : LinkBody) : State :=
  (s.pl (fun k => { k with lastTx := s.mono })).emit (.link (b.frame 0 s.plk.rxSeq))

/-- The slots that are local here: bit k is HP.CTRL.EN of slot k (R392). -/
def State.localSlots (s : State) : Nat := (List.range 8).foldl (fun m h => m + s.get (HP.CTRL_EN h) * 2 ^ h) 0

/-- FWD_SLOTS: slots local on the partner alone, while the session is UP (R25, R392). -/
def State.fwdSlots (s : State) : State :=
  s.put PLK.STAT_FWD_SLOTS (if s.linkUp then (List.range 8).foldl (fun m h =>
    if bitOf s.plk.remote h && !bitOf s.localSlots h then m + 2 ^ h else m) 0 else 0)

/-- A slot local on both devices (R392). -/
def State.slotClash (s : State) (h : Nat) : State :=
  let s := s.fwdSlots
  if s.linkUp && bitOf s.plk.remote h && bitOf s.localSlots h then s.raise PLK.EVT_SLOT_CONFLICT 0 else s

/-- A forwarded slot leaves service (R408): its tracker to OFF, its head quarantined. -/
def State.fwdDown (s : State) (h : Nat) : State :=
  let s := s.put (HP.STAT_ID_STATE h) idNone
  let s := (s.setHd h (fun x => { x with quarDue := some true, ids := 0 })).quarNow
  s.trackerOff h

/-- A session ends (R408): forwarded slots leave service, and what waits for the partner is dropped. -/
def State.sessionEnd (s : State) : State :=
  let fwd := s.get PLK.STAT_FWD_SLOTS
  let s := s.put PLK.STAT_FWD_SLOTS 0
  let s := s.pl (fun k => { k with xcOwn := [], xcPtn := [], remote := 0, replay := [], txWait := [] })
  let s := s.ptnInvalid
  let s := s.mp (fun m => { m with own := [], ptn := [] })
  (List.range 8).foldl (fun s h => if bitOf fwd h then s.fwdDown h else s) s

/-- Entry to LOST (R407, R408). -/
def State.partnerLost (s : State) : State := ((s.put PLK.STAT_STATE 4).bump PLK.LOST_CNT).sessionEnd

/-- Link states in which a session runs or is being set up. -/
def State.linkAlive (s : State) : Bool := s.get PLK.STAT_STATE = 2 || s.get PLK.STAT_STATE = 3

/-- A session starts (R397, R54). -/
def State.sessionStart (s : State) : State :=
  let s := (((s.put PLK.STAT_STATE 3).set1 PLK.EVT_LINK_UP).put TMU.STAT_PTN_VALID 0).tm (fun x => { x with ptnStart := s.mono, ptnOfs := none, ptnRun := 0 })
  s.pl (fun k => { k with txKey := List.replicate 8 true, txPrev := List.replicate 8 [], rxPrev := List.replicate 8 [],
                          rxFwd := List.replicate 8 none, xcOwn := [], xcPtn := [], lastRx := s.mono })

/-- Payload words of R398: the packet padded with zeros to u32 words. -/
def packetWords (p : Bytes) : List Nat := (List.range (ceilDiv p.length 4)).map (fun i => fieldB p (4 * i) 4)

/-- The coded words of R398: groups of eight, a control byte and the non-zero words. -/
def codeWords : Nat → List Nat → Bytes
  | 0, _ => []
  | _, [] => []
  | n + 1, ws =>
    let g := ws.take 8
    let c := (g.zipIdx).foldl (fun m e => if e.1 = 0 then m else m + 2 ^ e.2) 0
    BitVec.ofNat 8 c :: (g.filter (fun w => w ≠ 0)).flatMap (leBytes 4) ++ codeWords n (ws.drop 8)

/-- XOR of a packet's words with the previous packet's (R398). -/
def xorWords (ws prev : List Nat) : List Nat := ws.zipIdx.map (fun e => Nat.xor e.1 (prev.getD e.2 0))

/-- The words of a coded frame (R398), `n` of them; none where the code breaks off. -/
def decodeWords : Nat → Nat → Bytes → Option (List Nat)
  | 0, _, _ => some []
  | _, 0, _ => some []
  | fuel + 1, n, b =>
    match b with
    | [] => none
    | c :: rest =>
      let k := min 8 n
      let (ws, rest) := (List.range k).foldl (fun (p : List Nat × Bytes) i =>
        if bitOf c.toNat i then (p.1 ++ [leNat (p.2.take 4)], p.2.drop 4) else (p.1 ++ [0], p.2)) ([], rest)
      (decodeWords fuel (n - k) rest).map (fun l => ws ++ l)

/-- Bytes of FWD frames still queued on the one lane in service, at 25 Gb/s (R393, R400). -/
def State.fwdQueued (s : State) : Nat := (s.plk.fwdEnd - s.mono) * 100 / 512

/-- One packet of a local slot forwarded (R398, R400). `ing` is its ingress time at the MDI in TB_SNS ns, `az` the head
angles of its first and last return. -/
def State.forward (s : State) (h : Nat) (p : Bytes) (ing : Int) (az : Nat × Nat) : State :=
  if !(s.linkUp && s.on PLK.CTRL_FWD_EN) then s
  else
    let one := s.get PLK.STAT_LANES ≠ 3 && s.get PLK.STAT_LANES ≠ 5 && s.get PLK.STAT_LANES ≠ 6
    if one && decide (2 ^ 16 ≤ s.fwdQueued) then
      let s := (s.bump PLK.FWD_DROP_CNT).set1 PLK.EVT_FWD_DROP
      (s.linkSend { type := 0x02, slot := h, payload := leBytes 4 1 ++ leBytes 4 az.1 ++ leBytes 4 az.2 }).pl (fun k =>
        { k with txKey := k.txKey.set h true, txFwd := k.txFwd.modify h (fun n => (n + 1) % 2 ^ 16) })
    else
      let ws := packetWords p
      let prev := s.plk.txPrev.getD h []
      let key := s.plk.txKey.getD h true
      let base := if key || decide (prev.length < ws.length) then [] else prev
      let body := leBytes 8 (lowBits 64 ing) ++ leBytes 2 p.length ++ leBytes 2 (s.plk.txFwd.getD h 0) ++
        codeWords (ws.length + 1) (xorWords ws base)
      let s := s.linkSend { type := 0x01, flags := b2n key, slot := h, payload := body }
      let s := s.bump PLK.FWD_TX_CNT
      s.pl (fun k => { k with txPrev := k.txPrev.set h ws, txKey := k.txKey.set h false,
                              txFwd := k.txFwd.modify h (fun n => (n + 1) % 2 ^ 16),
                              fwdEnd := max k.fwdEnd s.mono + (body.length + 20) * 512 / 100 })

end Sys2Proof.Machine
end

