-- ==== Sys2Proof/Machine/Sha.lean ====
section
/-! DEFINITION. The SHA-256 digest that the manual names for a head's public key (R90) and for the held image in HELLO (R397). The
manual names the function and does not write it out: the text of FIPS 180-4 is followed (PRESUMED, assumption 17). -/

namespace Sys2Proof.Machine

/-- The eight working words of the hash. -/
structure Sha where
  a : Nat
  b : Nat
  c : Nat
  d : Nat
  e : Nat
  f : Nat
  g : Nat
  h : Nat
deriving DecidableEq, Repr

/-- The words before the first block. -/
def Sha.start : Sha :=
  { a := 0x6A09E667, b := 0xBB67AE85, c := 0x3C6EF372, d := 0xA54FF53A, e := 0x510E527F, f := 0x9B05688C, g := 0x1F83D9AB, h := 0x5BE0CD19 }

/-- The words of the hash, first word first. -/
def Sha.words (x : Sha) : List Nat := [x.a, x.b, x.c, x.d, x.e, x.f, x.g, x.h]

/-- The constants of the 64 rounds. -/
def shaK : List Nat :=
  [0x428A2F98, 0x71374491, 0xB5C0FBCF, 0xE9B5DBA5, 0x3956C25B, 0x59F111F1, 0x923F82A4, 0xAB1C5ED5,
   0xD807AA98, 0x12835B01, 0x243185BE, 0x550C7DC3, 0x72BE5D74, 0x80DEB1FE, 0x9BDC06A7, 0xC19BF174,
   0xE49B69C1, 0xEFBE4786, 0x0FC19DC6, 0x240CA1CC, 0x2DE92C6F, 0x4A7484AA, 0x5CB0A9DC, 0x76F988DA,
   0x983E5152, 0xA831C66D, 0xB00327C8, 0xBF597FC7, 0xC6E00BF3, 0xD5A79147, 0x06CA6351, 0x14292967] ++
  [0x27B70A85, 0x2E1B2138, 0x4D2C6DFC, 0x53380D13, 0x650A7354, 0x766A0ABB, 0x81C2C92E, 0x92722C85,
   0xA2BFE8A1, 0xA81A664B, 0xC24B8B70, 0xC76C51A3, 0xD192E819, 0xD6990624, 0xF40E3585, 0x106AA070,
   0x19A4C116, 0x1E376C08, 0x2748774C, 0x34B0BCB5, 0x391C0CB3, 0x4ED8AA4A, 0x5B9CCA4F, 0x682E6FF3,
   0x748F82EE, 0x78A5636F, 0x84C87814, 0x8CC70208, 0x90BEFFFA, 0xA4506CEB, 0xBEF9A3F7, 0xC67178F2]

/-- A 32-bit word turned right by `n`. -/
def rotr (x n : Nat) : Nat := Nat.lor (x >>> n) (x * 2 ^ (32 - n) % 2 ^ 32)

/-- The exclusive or of three words. -/
def xor3 (x y z : Nat) : Nat := Nat.xor (Nat.xor x y) z

/-- The message schedule, newest word first: `n` further words. -/
def shaSched : Nat → List Nat → List Nat
  | 0, w => w
  | n + 1, w =>
    let x := w.getD 1 0
    let y := w.getD 14 0
    let s1 := xor3 (rotr x 17) (rotr x 19) (x >>> 10)
    let s0 := xor3 (rotr y 7) (rotr y 18) (y >>> 3)
    shaSched n (((s1 + w.getD 6 0 + s0 + w.getD 15 0) % 2 ^ 32) :: w)

/-- One round: `kw` is its constant and its word of the schedule. -/
def Sha.round (x : Sha) (kw : Nat × Nat) : Sha :=
  let ch := Nat.xor (Nat.land x.e x.f) (Nat.land (2 ^ 32 - 1 - x.e) x.g)
  let maj := xor3 (Nat.land x.a x.b) (Nat.land x.a x.c) (Nat.land x.b x.c)
  let t1 := x.h + xor3 (rotr x.e 6) (rotr x.e 11) (rotr x.e 25) + ch + kw.1 + kw.2
  let t2 := xor3 (rotr x.a 2) (rotr x.a 13) (rotr x.a 22) + maj
  { a := (t1 + t2) % 2 ^ 32, b := x.a, c := x.b, d := x.c, e := (x.d + t1) % 2 ^ 32, f := x.e, g := x.f, h := x.g }

/-- One block of 64 bytes taken in. -/
def Sha.block (x : Sha) (b : Bytes) : Sha :=
  let w := (List.range 16).map (fun i => beNat (sliceB b (4 * i) 4))
  let y := (shaK.zip (shaSched 48 w.reverse).reverse).foldl Sha.round x
  { a := (x.a + y.a) % 2 ^ 32, b := (x.b + y.b) % 2 ^ 32, c := (x.c + y.c) % 2 ^ 32, d := (x.d + y.d) % 2 ^ 32,
    e := (x.e + y.e) % 2 ^ 32, f := (x.f + y.f) % 2 ^ 32, g := (x.g + y.g) % 2 ^ 32, h := (x.h + y.h) % 2 ^ 32 }

/-- The 32 digest bytes of a byte string. -/
def sha256 (b : Bytes) : Bytes :=
  let m := b ++ [0x80#8] ++ zeroBytes ((119 - b.length % 64) % 64) ++ beBytes 8 (8 * b.length)
  ((List.range (m.length / 64)).foldl (fun x i => x.block (sliceB m (64 * i) 64)) Sha.start).words.flatMap (beBytes 4)

end Sys2Proof.Machine
end

