-- ==== Sys2Proof/Machine/Heads.lean ====
section
/-! DEFINITION. Head ports, head identity and life (R76, R84, R88 to R94), and the tracker events SAMPLE_GAP, STOPPED
and TRACKER_ENABLE (R65 to R67). -/

namespace Sys2Proof.Machine

/-- SAMPLE_GAP (R66). -/
def execSampleGap (t : Nat) (h : Fin 8) (s : State) : Out :=
  run t (fun s => s.when (s.atState h = atLocked && decide ((s.tk h).lastArr + 2 * tickMs ≤ s.mono)) (fun s =>
    s.toFallback h (s.tk h) [AT.EVT_SAMPLE_GAP h])) s

/-- STOPPED (R65, R67). -/
def execStopped (t : Nat) (h : Fin 8) (s : State) : Out :=
  run t (fun s =>
    let k := s.tk h
    let turned := predictAt k.fbAt 0 k.r s.monoNs
    s.when (s.atState h = atFallback && decide ((s.get (AT.CFG_FB_REVS h) : Int) * 2 ^ 40 ≤ turned)) (fun s =>
      let s := (s.put (AT.STAT_STATE h) atStopped).setTk h (fun k => { k with acq := {} })
      (s.raise (AT.EVT_STOPPED h) 0).masksChanged)) s

/-- A write of AT.CTRL.EN (R65). -/
def State.trackerEnable (s : State) (h : Nat) (en : Bool) : State :=
  let s := s.put (AT.CTRL_EN h) (b2n en)
  if en then s else s.trackerOff h

/-- The head's address (R88). -/
def State.headAddr (s : State) (h : Nat) : Option Nat :=
  if s.get (HP.HEAD_IPV4_ADDR h) ≠ 0 then some (s.get (HP.HEAD_IPV4_ADDR h)) else (s.hd h).learned

/-- A challenge sent where the port can send one (R76, R88, R90): fresh sequence number and nonce, to the source MAC of the head's
last point packet, 0 before any (DESIGN CHOICE, assumption 103). `retry` keeps the count of further attempts. -/
def State.sendChallenge (s : State) (h : Fin 8) (retry : Bool) : State :=
  match s.headAddr h with
  | none => s
  | some ip =>
    if !(s.on (HP.STAT_LINK h) && s.get (HP.IPV4_ADDR h) ≠ 0 && s.rngOk) then s
    else
      let (ws, s) := s.randoms 8
      let nonce := ws.flatMap (leBytes 4)
      let seq := ((s.hd h).seq + 1) % 2 ^ 32
      let s := s.setHd h (fun x => { x with seq := seq, nonce := nonce, sentAt := some s.mono, lastChal := some s.mono,
                                            retryAt := none, tries := if retry then x.tries + 1 else 0, segs := [], segCnt := 0, checking := false,
                                            chalDue := false })
      let s := if s.get (HP.STAT_ID_STATE h) = idTrusted then s else s.put (HP.STAT_ID_STATE h) idChallenging
      let s := s.clr (HP.ID_CTRL_RECHAL h)
      let port := s.get (HP.UDP_CTL_PORT h)
      s.emit (.udp (.head h) (s.hd h).mac ip port port {}
        ([1, 0, 0, 0] ++ leBytes 4 seq ++ nonce ++ leBytes 8 (lowBits 64 s.snsNs)))

/-- CHALLENGE_SEND (R88, R90): the challenge due after link-up, by RECHAL or by a retry. -/
def execChallengeSend (t : Nat) (h : Fin 8) (s : State) : Out :=
  run t (fun s =>
    let x := s.hd h
    let retry := match x.retryAt with
      | none => false
      | some a => decide (a ≤ s.mono)
    s.when (x.chalDue || s.on (HP.ID_CTRL_RECHAL h) || retry) (fun s =>
      s.sendChallenge h (retry && !x.chalDue && !s.on (HP.ID_CTRL_RECHAL h)))) s

/-- A write of 1 to HP.ID_CTRL.RECHAL (R90): a new challenge at once; the bit stays set until one can be sent. -/
def State.rechal (s : State) (h : Fin 8) : State :=
  ((s.put (HP.ID_CTRL_RECHAL h) 1).sendChallenge h false).noteAgain (HP.ID_CTRL_RECHAL h) (s.get (HP.ID_CTRL_RECHAL h))

/-- RECHALLENGE_PERIOD (R92). -/
def execRechallengePeriod (t : Nat) (h : Fin 8) (s : State) : Out :=
  run t (fun s =>
    let p := s.get (HP.LIFE_CFG_PERIOD_S h)
    let due := match (s.hd h).lastChal with
      | none => false
      | some a => decide (a + p * tickS ≤ s.mono)
    s.when (s.get (HP.STAT_ID_STATE h) = idTrusted && p ≠ 0 && due && (s.hd h).sentAt.isNone && !(s.hd h).checking)
      (fun s => s.sendChallenge h false)) s

/-- The outcome of a challenge (R90, R92): a head that is TRUSTED takes it at the next commit point. -/
def State.idOutcome (s : State) (h : Nat) (o : Nat) : State :=
  let s := s.setHd h (fun x => { x with sentAt := none, retryAt := none, checking := false, segs := [] })
  let was := s.get (HP.STAT_ID_STATE h)
  let s := if o = idTrusted then (if was = idTrusted then s else s.raise (HP.EVT_ID_OK h) 0) else s.raise (HP.EVT_ID_FAIL h) 0
  if was = idTrusted then (s.setHd h (fun x => { x with idDue := some o })).quarNow
  else ((s.put (HP.STAT_ID_STATE h) o).setHd h (fun x => { x with quarDue := some (o ≠ idTrusted) })).quarNow

/-- CHALLENGE_TIMEOUT (R90): the attempt has failed; up to three further attempts, 1 s after the failed one. -/
def execChallengeTimeout (t : Nat) (h : Fin 8) (s : State) : Out :=
  run t (fun s =>
    match (s.hd h).sentAt with
    | none => s
    | some a =>
      s.when (decide (a + 100 * tickMs ≤ s.mono) && !(s.hd h).checking) (fun s =>
        if (s.hd h).tries < 3 then s.setHd h (fun x => { x with sentAt := none, retryAt := some (a + tickS), segs := [] })
        else s.idOutcome h idFailed)) s

/-- The answer body, its segments joined in order (R89). -/
def HeadSt.body (x : HeadSt) : Bytes := (List.range x.segCnt).flatMap (fun i => (find i x.segs).getD [])

/-- ANSWER_SEGMENT_RX (R89, R90): a segment of the outstanding attempt is collected; the last one starts the check. The 1,400 bytes of
a segment include its header (DESIGN CHOICE, assumption 103). -/
def execAnswerSegmentRx (t : Nat) (h : Fin 8) (d : Datagram) (s : State) : Out :=
  run t (fun s =>
    let p := d.payload
    let idx := fieldB p 1 1
    let cnt := fieldB p 2 1
    let live := match (s.hd h).sentAt with
      | none => false
      | some a => decide (s.mono < a + 100 * tickMs)
    s.when (s.on (HP.STAT_LINK h) && d.dstUdp = s.get (HP.UDP_CTL_PORT h) && live && !(s.hd h).checking &&
        frameTaken d false && decide (8 ≤ p.length) && decide (p.length ≤ 1400) && fieldB p 0 1 = 2 && decide (idx < cnt) && fieldB p 4 4 = (s.hd h).seq)
      (fun s => s.setHd h (fun x =>
        let segs := ins idx (p.drop 8) x.segs
        { x with segs := segs, segCnt := cnt, checking := decide (segs.length = cnt) }))) s

/-- HEAD_CHECK_DONE (R90, R93): `sigOk` is the signature engine's verdict over bytes 0 to 91 (assumption 4), `digest` the digest that
the port compares; the command comes about with the SHA-256 digest of the answer's public key only. -/
def execHeadCheckDone (t : Nat) (h : Fin 8) (sigOk : Bool) (digest : Bytes) (s : State) : Out :=
  run t (fun s => s.when ((s.hd h).checking && digest = sha256 (sliceB (s.hd h).body 4 32)) (fun s =>
    let b := (s.hd h).body
    let rated := fieldB b 52 4
    let hrs := fieldB b 56 4
    let ok := b.length = 7948 && fieldB b 0 2 = 1 && sliceB b 60 32 = (s.hd h).nonce && sigOk &&
      decide (s.get (HP.LIFE_HRS h) ≤ hrs)
    if !ok then s.idOutcome h idFailed
    else
      let s := (s.put (HP.LIFE_RATED h) rated).put (HP.LIFE_HRS h) hrs
      let worn := decide (rated * 9 ≤ hrs * 10)
      let ended := decide (rated ≤ hrs)
      let s := if worn && !s.on (HP.STAT_WORN h) then s.raise (HP.EVT_HEAD_WORN h) 0 else s
      let s := if ended && !s.on (HP.STAT_LIFE_END h) then s.raise (HP.EVT_HEAD_LIFE_END h) 0 else s
      let s := (s.put (HP.STAT_WORN h) (b2n worn)).put (HP.STAT_LIFE_END h) (b2n ended)
      let enrolled := s.on (HP.ID_CTRL_ENROL_VALID h) && (List.range 8).flatMap (fun j => leBytes 4 (s.get (HP.ENROL h j))) = digest
      s.idOutcome h (if enrolled then idTrusted else idUnenrolled))) s

/-- HEAD_LINK_UP (R44, R58, R88, R94): latencies loaded, the TB_SNS load of the first session, the challenge due. The first head-port
gPTP session starts with the first link-up of a head port (DESIGN CHOICE, assumption 102). -/
def execHeadLinkUp (t : Nat) (h : Fin 8) (s : State) : Out :=
  run t (fun s => s.when (s.on (HP.CTRL_EN h) && !s.on (HP.STAT_LINK h) && s.dev ≠ dsHold) (fun s =>
    let spd := s.get (HP.CTRL_SPEED h)
    let pg := 0x010 + h.val
    let s := ((s.set1 (HP.STAT_LINK h)).load (TS.ING_LAT_LAT pg) (Config.calIngress spd).toNat).load (TS.EGR_LAT_LAT pg)
      (Config.calEgress spd).toNat
    let s := s.setHd h (fun x => { x with linkAt := s.mono, chalDue := true, learned := none, intFilt := none, intSum := 0,
                                          intN := 0, lastChal := none })
    if s.time.snsSession then s
    else
      let s := s.tm (fun x => { x with snsSession := true })
      if s.on TMU.CTRL_COUPLE && s.vehState = vehLocked then
        (s.tm (fun x => { x with sns := (x.sns.retune s.mono x.sns.rate).step (s.veh - s.sns) })).set1 TMU.STAT_SNS_INIT_DONE
      else s)) s

/-- A head port's link goes down (R90, R91, R108). -/
def State.headDown (s : State) (h : Nat) : State :=
  if !s.on (HP.STAT_LINK h) then s
  else
    let s := (s.put (HP.STAT_LINK h) 0).set1 (HP.EVT_LINK_DOWN h)
    let s := (s.put (HP.STAT_ID_STATE h) idNone).put (HP.ID_CTRL_RECHAL h) 0
    let s := s.setHd h (fun x => { x with sentAt := none, retryAt := none, checking := false, segs := [], chalDue := false,
                                          idDue := none, quarDue := some true })
    s.quarNow.trackerOff h

/-- HEAD_LINK_DOWN (R90, R108). -/
def execHeadLinkDown (t : Nat) (h : Fin 8) (s : State) : Out := run t (fun s => s.headDown h) s

/-- The PHY bank domains 23 and 28 as R440 gives them: on while a port of the bank is enabled, outside Hold. -/
def State.phyBanks (s : State) : State :=
  let any (b : Nat) := (List.range 4).any (fun i => s.on (HP.CTRL_EN (4 * b + i)))
  let on_ := s.get PM.DOM_ON_ON
  let s := s.put PM.DOM_ON_ON (withBits (withBits on_ 23 1 (b2n (any 0 && s.dev ≠ dsHold))) 28 1 (b2n (any 1 && s.dev ≠ dsHold)))
  s

/-- A write that changes HP.CTRL.EN (R76, R84, R392): the map is checked where it is set; the link goes down where it
is cleared. -/
def State.headEnable (s : State) (h : Nat) (en : Bool) : State :=
  let was := s.on (HP.CTRL_EN h)
  let s := (s.put (HP.CTRL_EN h) (b2n en)).phyBanks
  if en && !was then
    let s := s.put (HP.STAT_MAP_ERR h) (b2n (mapInvalid (s.on (HP.CFG_TS_SRC h)) (s.fmap h)))
    s.slotClash h
  else if !en && was then s.headDown h else s

/-- INT_DRIFT (R94): the mean of the revolution over INT_REF.MEAN, filtered with weight 1/256; the next revolution sums anew. -/
def execIntDrift (t : Nat) (h : Fin 8) (s : State) : Out :=
  run t (fun s =>
    let ref := s.get (HP.INT_REF_MEAN h)
    let x := s.hd h
    let s := s.setHd h (fun x => { x with intSum := 0, intN := 0 })
    s.when (ref ≠ 0 && s.hasTwilight h && x.intN ≠ 0) (fun s =>
      let ratio := x.intSum * 2 ^ 32 / (x.intN * ref)
      let f : Nat := match x.intFilt with
        | none => ratio
        | some f => (((f : Int) + ((ratio : Int) - f) / 256)).toNat
      let lim := s.get (HP.LIFE_CFG_DRIFT_LIM h)
      let off (v : Nat) := decide (lim * 2 ^ 24 < ((v : Int) - 2 ^ 24).natAbs * 100)
      let was := match x.intFilt with
        | none => false
        | some f => off f
      let s := s.setHd h (fun x => { x with intFilt := some f })
      let s := s.put (HP.INT_DRIFT_RATIO h) (satU 16 (f / 2 ^ 16))
      if off f && !was then s.raise (HP.EVT_INT_DRIFT h) 0 else s)) s

end Sys2Proof.Machine
end

