-- ==== Sys2Proof/Machine/Approx.lean ====
section
/-! DEFINITION. The approximated functions of R228: the implementation's value where it keeps the stated largest error, else the
correctly rounded one (assumption 11). References are dyadic numbers with 120 fraction bits, 2^-100 off at most. -/

namespace Sys2Proof.Machine

/-- ln 2 and 1/√(2π) in units of 2^-120, rounded down. -/
def ln2Fix : Int := 921350637599661305226344307672478454
def rootFix : Int := 530285247811860281885121121780411960

/-- A finite value in units of 2^-120, its magnitude rounded down. -/
def Num.fix : Num → Int
  | .fin neg m e =>
    let n : Int := if 0 ≤ e + 120 then m * 2 ^ (e + 120).toNat else m / 2 ^ (-(e + 120)).toNat
    if neg then -n else n
  | _ => 0

/-- A number of units of 2^-120. -/
def ofFix (x : Int) : Num := .fin (decide (x < 0)) x.natAbs (-120)

/-- e^r for r in units of 2^-120, from 0 to ln 2: forty terms of its series. -/
def expSeries (r : Int) : Int :=
  (List.range 40).foldl (fun a i => 2 ^ 120 + r * a / (2 ^ 120 * (40 - i : Nat))) (2 ^ 120)

/-- e^v for |v| below 256, 2^-100 off at most in relation. -/
def expRef (v : Num) : Num :=
  let k := v.fix / ln2Fix
  .fin false (expSeries (v.fix - k * ln2Fix)).toNat (k - 120)

/-- `|v|` is `n` or more. -/
def Num.atLeast (v : Num) (n : Nat) : Bool := !v.abs.lt (.ofInt n)

/-- The sign of a value. -/
def Num.isNeg (v : Num) : Bool := v.lt Num.zero

/-- 1 / (1 + e^-v). -/
def sigmoidRef (v : Num) : Num :=
  let p : Int := if v.atLeast 128 then 2 ^ 120 else 2 ^ 240 / (2 ^ 120 + (expRef (v.abs.neg)).fix)
  ofFix (if v.isNeg then 2 ^ 120 - p else p)

/-- The standard normal distribution function, 0.5·(1 + erf(v/√2)): one half and the density times the sum of
v^(2n+1) / (1·3·…·(2n+1)). -/
def normalRef (v : Num) : Num :=
  let a := v.abs.fix
  let sq := a * a / 2 ^ 120
  let sum := ((List.range 640).foldl (fun (p : Int × Int) i =>
    let t := p.1 * sq / (2 ^ 120 * (2 * i + 3 : Nat))
    (t, p.2 + t)) (a, a)).2
  let dens := (expRef ((v.mul v).scale (-1)).neg).mul (ofFix rootFix)
  let p : Int := if v.atLeast 16 then 2 ^ 120 else 2 ^ 119 + (dens.mul (ofFix sum)).fix
  ofFix (if v.isNeg then 2 ^ 120 - p else p)

/-- `x` is within `bound` of the reference, what the reference is off included. -/
def Num.near (x ref bound : Num) : Bool := x.isFin && !(bound.add (.fin true 1 (-100))).lt (x.add ref.neg).abs

/-- The implementation's value at `v` where it is within the bound of the reference. -/
def approx (f : BitVec 32 → BitVec 32) (v ref bound : Num) : Num :=
  let x := fFP32.dec (f (BitVec.ofNat 32 (fFP32.enc false v))).toNat
  if x.near ref bound then x else rnd32 ref

/-- GELU (0x13), SILU (0x14) and SIGMOID (0x15) with their values at infinities and NaN (R228). -/
def actFn (c : Nat) : Num → Num
  | .nan => .nan
  | .inf false => if c = 0x15 then .fin false 1 0 else .inf false
  | .inf true => if c = 0x15 then Num.zero else .fin true 0 0
  | v =>
    if c = 0x13 then approx Config.gelu v (v.mul (normalRef v)) (.fin false 1 (-13))
    else if c = 0x14 then approx Config.silu v (v.mul (sigmoidRef v)) (.fin false 1 (-12))
    else approx Config.sigmoid v (sigmoidRef v) (.fin false 1 (-14))

/-- exp of R228 for arguments not above 0: 2^-12 in relation, and one unit of the smallest FP32 values. -/
def expF : Num → Num
  | .nan => .nan
  | .inf _ => Num.zero
  | v =>
    let ref := if v.atLeast 256 then Num.zero else expRef v
    approx Config.expNeg v ref ((ref.scale (-12)).add ((Num.fin false 1 (-149)).add (.fin false 1 (-100))))

/-- The largest `r` below 2^128 whose square is not above `n`. -/
def isqrt (n : Nat) : Nat :=
  (List.range 128).foldl (fun r i => if (r + 2 ^ (127 - i)) ^ 2 ≤ n then r + 2 ^ (127 - i) else r) 0

/-- 1/√(m·2^e) rounded to FP32. -/
def rsqrtRef (m : Nat) (e : Int) : Num :=
  let m := if e % 2 = 0 then m else 2 * m
  rnd32 (.fin false (isqrt (2 ^ 240 / m)) (-120 - e / 2))

/-- rsqrt of R228: exact at infinities, zero and the even powers of two, else the implementation's value where its square times the
argument is within (1 ± 2^-20)², the relative bound of 2^-20. -/
def rsqrtF : Num → Num
  | .nan => .nan
  | .inf neg => if neg then .nan else Num.zero
  | .fin neg m e =>
    if m = 0 then .inf false
    else if neg then .nan
    else
      let k := Nat.log2 m
      if m = 2 ^ k && (e + k) % 2 = 0 then .fin false 1 (-((e + k) / 2))
      else
        let x := fFP32.dec (Config.rsqrt (BitVec.ofNat 32 (fFP32.enc false (.fin neg m e)))).toNat
        let y := (x.mul x).mul (.fin false m e)
        let lim (a : Nat) : Num := .fin false (a * a) (-40)
        if x.isFin && !x.isNeg && !y.lt (lim (2 ^ 20 - 1)) && !(lim (2 ^ 20 + 1)).lt y then x else rsqrtRef m e

end Sys2Proof.Machine
end

