-- ==== Sys2Proof/Machine/SpdCore.lean ====
section
/-! DEFINITION. Scratchpads: bytes, full/empty tags, handles, rings and windows (R188 to R212). -/

namespace Sys2Proof.Machine

/-- A tile. -/
def State.tile (s : State) (g : Nat) : TileSt := s.tiles.getD g {}

/-- `s` with a tile changed. -/
def State.setTile (s : State) (g : Nat) (f : TileSt → TileSt) : State := { s with tiles := s.tiles.modify g f }

/-- `n` bytes of tile `g`'s scratchpad from byte `a` on. -/
def State.spdBytes (s : State) (g a n : Nat) : Bytes := Mem.bytes s.spd (g * 2 ^ 22 + a) n

/-- Bytes stored in tile `g`'s scratchpad from byte `a` on. -/
def State.spdStore (s : State) (g a : Nat) (b : Bytes) : State := { s with spd := Mem.store s.spd (g * 2 ^ 22 + a) b }

/-- The partition a tile presents (R155). -/
def State.tilePart (s : State) (g : Nat) : Nat := s.get (TILE.STAT_PART g)

/-! ### Errors of a scratchpad (R197, R199 to R201, R356) -/

/-- The address of a scratchpad error recorded. -/
def State.eccInfo (s : State) (g addr : Nat) (ue : Bool) : State :=
  ((s.put (TILE.SPD_ECC_INFO_ADDR g) (addr / 8 * 8)).put (TILE.SPD_ECC_INFO_UE g) (b2n ue)).set1 (TILE.SPD_ECC_INFO_VALID g)

/-- A corrected error of the word at `addr` (R197, R199): counted, reported, queued for write-back; a full queue starts
the overflow sweep. -/
def State.spdCe (s : State) (g addr : Nat) (inj : Bool) : State :=
  let s := ((s.bump (TILE.SPD_CE_CNT g)).eccInfo g addr false).raise (TILE.SPD_EVT_CE g) 1 0 inj
  let w := addr / 8 * 8
  let q := (s.tile g).ceq
  if q.contains w then s
  else if q.length < 32 then
    (s.setTile g (fun x => { x with ceq := x.ceq ++ [w] })).put (TILE.SPD_STAT_CEQ_OCC g) (q.length + 1)
  else
    let s := (s.setTile g (fun x => { x with ceq := [], ovfLine := 0 })).put (TILE.SPD_STAT_CEQ_OCC g) 0
    (s.set1 (TILE.SPD_STAT_SWEEP g)).raise (TILE.SPD_EVT_CEQ_OVF g) 1 0 inj

/-- A double-bit error (R200): the program stops, C2. -/
def State.spdUe (s : State) (g addr : Nat) (inj : Bool) : State :=
  ((s.eccInfo g addr true).put (TILE.STAT_STATE g) 4).raise (TILE.SPD_EVT_UE g) 2 (2 ^ s.tilePart g) inj

/-- A read of the words of bytes `a .. a + n - 1`: the injected error of the next wide read, else the error of the present command
where the read returns its word. Answers whether the read fails. -/
def State.meet (s : State) (g a n : Nat) (wide : Bool) : State × Bool :=
  let x := s.tile g
  if n = 0 then (s, false)
  else if wide && x.inj ≠ 0 then
    let s := s.setTile g (fun x => { x with inj := 0 })
    if x.inj = 1 then (s.spdCe g a true, false) else (s.spdUe g a true, true)
  else match x.soft with
    | none => (s, false)
    | some (w, ue) =>
      if decide (a / 8 * 8 ≤ w) && decide (w < a + n) then
        let s := s.setTile g (fun x => { x with soft := none })
        if ue then (s.spdUe g w false, true) else (s.spdCe g w false, false)
      else (s, false)

/-- A tag checked or set whose parity fails, injected or not (R201, R356). -/
def State.tagParity (s : State) (g : Nat) (inj : Bool) : State :=
  (s.setTile g (fun x => { x with injTag := false, softTag := false })).raise (TILE.SPD_EVT_TAG_PAR g) 2 (2 ^ s.tilePart g) inj

/-- Whether the next tag check or update of a tile meets a parity error: then the state after it. -/
def State.parity (s : State) (g : Nat) : Option State :=
  let x := s.tile g
  if x.injTag then some (s.tagParity g true) else if x.softTag then some (s.tagParity g false) else none

/-- Bytes of a tile's scratchpad (R188, R215). -/
def State.spdSize (s : State) (g : Nat) : Nat := s.get (TILE.SPD_SIZE_KIB g) * 1024

/-- The tag of a line (R202). -/
def State.full (s : State) (g line : Nat) : Bool := s.tags.contains (g * 8192 + line)

/-- The tag of a line set full or empty (R202). -/
def State.setTag (s : State) (g line : Nat) (v : Bool) : State :=
  let k := g * 8192 + line
  { s with tags := if v then insSet k s.tags else s.tags.filter (fun x => x ≠ k) }

/-- The lines that `n` bytes from byte `a` on touch. -/
def linesOf (a n : Nat) : List Nat := if n = 0 then [] else (List.range ((a + n - 1) / 512 - a / 512 + 1)).map (fun i => a / 512 + i)

/-- The lines of which `n` bytes from byte `a` on hold byte 511. -/
def linesEnd (a n : Nat) : List Nat := (linesOf a n).filter (fun l => decide (a ≤ l * 512 + 511) && decide (l * 512 + 511 < a + n))

/-! ### Rings (R209) -/

/-- Occupancy of RING[r] in lines: for RING[1] the lines landed less the lines set empty. -/
def State.ringOcc (s : State) (g r : Nat) : Nat :=
  let n := s.get (RING.SIZE_LINES g r)
  if r = 1 then (s.get (RING.TAIL_PTR_PTR g 1) + 2 ^ 16 - s.get (RING.HEAD_PTR g 1) % 2 ^ 16) % 2 ^ 16
  else
    let h := s.get (RING.HEAD_PTR_IDX g r)
    let t := s.get (RING.TAIL_PTR_PTR g r) % 2 ^ 13
    if s.get (RING.HEAD_PTR_WRAP g r) = s.get (RING.TAIL_PTR_PTR g r) / 2 ^ 15 then t - h else n - h + t

/-- A pointer with wrap bit advanced by a line. -/
def ptrNext (n p : Nat) : Nat :=
  let i := p % 2 ^ 13 + 1
  if i < n then p / 2 ^ 15 * 2 ^ 15 + i else (1 - p / 2 ^ 15 % 2) * 2 ^ 15

/-- MAX_OCC brought up to the present occupancy. -/
def State.ringMax (s : State) (g r : Nat) : State := s.putMax (RING.MAX_OCC_LINES g r) (s.ringOcc g r)

/-- The line index at a ring's tail and head. -/
def State.tailLine (s : State) (g r : Nat) : Nat := s.get (RING.BASE_ADDR g r) / 512 + s.get (RING.TAIL_PTR_PTR g r) % 2 ^ 13
def State.headLine (s : State) (g r : Nat) : Nat := s.get (RING.BASE_ADDR g r) / 512 + s.get (RING.HEAD_PTR_IDX g r)

/-- A ring enabled and full. -/
def State.ringFull (s : State) (g r : Nat) : Bool := decide (s.get (RING.SIZE_LINES g r) ≤ s.ringOcc g r)

/-- A line of RING[3] has turned full during the service in progress, or is drained (R286). -/
def State.outLine (s : State) (g r : Nat) (full : Bool) : State :=
  if r ≠ 3 then s
  else s.setTile g (fun x => { x with outSvc := if full then x.outSvc ++ [x.cur] else x.outSvc.drop 1 })

/-- The tail of a ring advances over the lines that have turned full (R209). -/
def State.tailAdvance (s : State) (g r : Nat) : Nat → State
  | 0 => s
  | n + 1 =>
    if s.full g (s.tailLine g r) && !s.ringFull g r then
      (((s.put (RING.TAIL_PTR_PTR g r) (ptrNext (s.get (RING.SIZE_LINES g r)) (s.get (RING.TAIL_PTR_PTR g r)))).ringMax g r).outLine g r
        true).tailAdvance g r n
    else s

/-- The head of a ring advances over the consecutive lines that have turned empty (R209). -/
def State.headAdvance (s : State) (g r : Nat) : Nat → State
  | 0 => s
  | n + 1 =>
    if !s.full g (s.headLine g r) && s.ringOcc g r ≠ 0 then
      (s.put (RING.HEAD_PTR g r) (ptrNext (s.get (RING.SIZE_LINES g r)) (s.get (RING.HEAD_PTR g r)))).headAdvance g r n
    else s

/-- Ring pointers after accesses that changed tags: tails of the rings that stage and column programs produce, heads of
those they consume. -/
def State.ringsMove (s : State) (g : Nat) : State :=
  [2, 3].foldl (fun s r => if s.on (RING.CFG_EN g r) then s.tailAdvance g r (s.get (RING.SIZE_LINES g r)) else s)
    (if s.on (RING.CFG_EN g 0) then s.headAdvance g 0 (s.get (RING.SIZE_LINES g 0)) else s)

/-- A line of 512 bytes put at the tail of a ring by its producer; a tag parity error stops it. -/
def State.ringPush (s : State) (g r : Nat) (b : Bytes) : State :=
  match s.parity g with
  | some s => s
  | none =>
    let l := s.tailLine g r
    ((s.spdStore g (l * 512) b).setTag g l true).tailAdvance g r 1

/-- The line at the head of a ring taken by its consumer; none where the read or its tag fails. -/
def State.ringPop (s : State) (g r : Nat) : Option Bytes × State :=
  let l := s.headLine g r
  match s.parity g with
  | some s => (none, s)
  | none =>
    match s.meet g (l * 512) 512 true with
    | (s, true) => (none, s)
    | (s, false) => (some (s.spdBytes g (l * 512) 512), ((s.setTag g l false).headAdvance g r 1).outLine g r false)

/-! ### Handles (R144, R206 to R208) -/

/-- Why an access stops the program (R156, R208). -/
inductive AccErr where
  | badDesc | bound | part
deriving DecidableEq, Repr

/-- The event of an access error (R156, R208). -/
def AccErr.event (g : Nat) : AccErr → Fld
  | .badDesc => TILE.EVT_BAD_DESC g
  | .bound => TILE.EVT_HDL_BOUND g
  | .part => TILE.SPD_EVT_PART_VIOL g

/-- A fault of an arrival in the receiving tile's scratchpad (R156, R208). -/
def State.arrivalStop (s : State) (g part : Nat) (x : AccErr) : State := (s.put (TILE.STAT_STATE g) 4).raise (x.event g) 2 (2 ^ part)

/-- The byte address of position `i` of an operand. -/
def Opnd.addr (o : Opnd) (i : Nat) : Nat := if o.wrap then o.base + (o.ofs + i) % o.len else o.base + o.ofs + i

/-- Whether `n` bytes of an operand lie within its handle (R144). -/
def Opnd.fits (o : Opnd) (n : Nat) : Bool := if o.wrap then decide (n ≤ o.len) else decide (o.ofs + n ≤ o.len)

/-- The region of a ring as an operand at its head (`rrel` 1) or tail (2) (R208, R209). -/
def State.ringPos (s : State) (g r rrel : Nat) : Nat :=
  if rrel = 1 then s.get (RING.HEAD_PTR_IDX g r) % max 1 (s.get (RING.SIZE_LINES g r)) * 512
  else if rrel = 2 then s.get (RING.TAIL_PTR_PTR g r) % 2 ^ 13 * 512 else 0

/-- The operand that a handle number and an offset name, whatever partition asks (R144, R206, R208): through a ring handle a
consumer's in CONSUME mode, a producer's in KEEP mode (R209). -/
def State.handleAt (s : State) (g hdl ofs : Nat) : Except AccErr Opnd :=
  let wide := s.get (HDL.ATTR_VIEW g hdl) = 0
  if !s.on (HDL.ATTR_VALID g hdl) then .error .badDesc
  else if ofs % (if wide then 512 else 8) ≠ 0 then .error .badDesc
  else
    let rrel := s.get (HDL.ATTR_RREL g hdl)
    let r := s.get (HDL.ATTR_RNUM g hdl)
    .ok { base := s.get (HDL.BASE_ADDR g hdl), len := s.get (HDL.LEN_BYTES g hdl), ofs := ofs + s.ringPos g r rrel,
          wrap := rrel = 1 || rrel = 2, wide := wide, fmt := s.get (HDL.ATTR_FMT g hdl),
          tagm := if rrel = 1 then 2 else if rrel = 2 then 1 else s.get (HDL.ATTR_TAGM g hdl),
          ring := if rrel = 0 then none else some r }

/-- The operand that a handle number, an offset and a presented partition name (R208). -/
def State.operand (s : State) (g hdl ofs part : Nat) : Except AccErr Opnd :=
  match s.handleAt g hdl ofs with
  | .error e => .error e
  | .ok o => if bitOf (s.get (HDL.ATTR_PARTS g hdl)) part then .ok o else .error .part

/-- A ring as the source (`rrel` 1) or the destination (2) of a MOVE (R147, R209): its lines are always tagged. -/
def State.ringOpnd (s : State) (g r rrel : Nat) : Opnd :=
  { base := s.get (RING.BASE_ADDR g r), len := s.get (RING.SIZE_LINES g r) * 512, ofs := s.ringPos g r rrel, wrap := true,
    wide := true, fmt := 0, tagm := if rrel = 1 then 2 else 1, ring := some r }

/-- `n` bytes of an operand from position `i` on. -/
def State.opRead (s : State) (g : Nat) (o : Opnd) (i n : Nat) : Bytes :=
  if o.wrap then (List.range n).map (fun k => Mem.byte s.spd (g * 2 ^ 22 + o.addr (i + k))) else s.spdBytes g (o.addr i) n

/-- Bytes written to an operand from position `i` on. -/
def State.opWrite (s : State) (g : Nat) (o : Opnd) (i : Nat) (b : Bytes) : State :=
  if o.wrap then (b.zipIdx).foldl (fun s e => s.spdStore g (o.addr (i + e.2)) [e.1]) s else s.spdStore g (o.addr i) b

/-- `n` bytes brought up to whole lines of a wide view, whole words of a narrow one: what an access of the MXE, the VXE or
the sequencer moves (R190). -/
def Opnd.whole (o : Opnd) (n : Nat) : Nat := padTo (if o.wide then 512 else 8) n

/-- `b` brought up to `n` bytes: the manual states no value for the bytes of an access beyond the data, which are free
(assumption 5). -/
def State.filled (s : State) (b : Bytes) (n : Nat) : Bytes × State :=
  let (ws, s) := s.randoms (ceilDiv (n - b.length) 4)
  (b ++ (ws.flatMap (leBytes 4)).take (n - b.length), s)

/-- A result written in whole lines (R190). -/
def State.lineWrite (s : State) (g : Nat) (o : Opnd) (i : Nat) (b : Bytes) : State :=
  let (b, s) := s.filled b (o.whole b.length)
  s.opWrite g o i b

/-- A write of the TDM, in whole 8-byte words (R190). -/
def State.wordWrite (s : State) (g : Nat) (o : Opnd) (i : Nat) (b : Bytes) : State :=
  let (b, s) := s.filled b (padTo 8 b.length)
  s.opWrite g o i b

/-- The read of `n` bytes of an operand from position `i` on, which meets what its words meet. -/
def State.opMeet (s : State) (g : Nat) (o : Opnd) (i n : Nat) : State × Bool :=
  let n1 := if o.wrap then min n (o.len - (o.ofs + i) % o.len) else n
  match s.meet g (o.addr i) n1 o.wide with
  | (s, true) => (s, true)
  | (s, false) => if n1 < n then s.meet g o.base (n - n1) o.wide else (s, false)

/-- The reads of several operands from their starts on, up to the first that fails. -/
def State.opsMeet (s : State) (g : Nat) : List (Opnd × Nat) → State × Bool
  | [] => (s, false)
  | (o, n) :: r =>
    match s.opMeet g o 0 n with
    | (s, true) => (s, true)
    | (s, false) => s.opsMeet g r

/-- The lines that `n` bytes of an operand touch, and those of which they hold byte 511. -/
def Opnd.lines (o : Opnd) (n : Nat) : List Nat :=
  if o.wrap then (linesOf o.ofs n).map (fun l => (o.base + l * 512 % o.len) / 512) else linesOf (o.addr 0) n
def Opnd.ends (o : Opnd) (n : Nat) : List Nat :=
  if o.wrap then (linesEnd o.ofs n).map (fun l => (o.base + l * 512 % o.len) / 512) else linesEnd (o.addr 0) n

/-- An access through an operand is tag-checked (R202, R203). -/
def Opnd.checked (o : Opnd) (tagchk : Bool) : Bool := o.wide && o.tagm ≠ 0 && (tagchk || o.ring.isSome)

/-- Lines set empty by a consumer (R202, R209): those of RING[1] that were full count in its HEAD_PTR. -/
def State.emptyLines (s : State) (g : Nat) (ls : List Nat) : State :=
  (ls.foldl (fun s l =>
    let b := s.get (RING.BASE_ADDR g 1) / 512
    let in1 := s.on (RING.CFG_EN g 1) && b ≤ l && decide (l < b + s.get (RING.SIZE_LINES g 1))
    let s := if in1 && s.full g l then s.put (RING.HEAD_PTR g 1) ((s.get (RING.HEAD_PTR g 1) + 1) % 2 ^ 16) else s
    s.setTag g l false) s).ringsMove g

/-- Lines set full by a writer (R202, R209): those of RING[1] count in its TAIL_PTR where `ring1`, a landing. -/
def State.fillLines (s : State) (g : Nat) (ls : List Nat) (ring1 : Bool) : State :=
  (ls.foldl (fun s l =>
    let b := s.get (RING.BASE_ADDR g 1) / 512
    let in1 := ring1 && s.on (RING.CFG_EN g 1) && b ≤ l && decide (l < b + s.get (RING.SIZE_LINES g 1))
    let s := if in1 then (s.put (RING.TAIL_PTR_PTR g 1) ((s.get (RING.TAIL_PTR_PTR g 1) + 1) % 2 ^ 16)).ringMax g 1 else s
    s.setTag g l true) s).ringsMove g

/-- The tag effect of a checked read of `n` bytes (R202). -/
def State.readTags (s : State) (g : Nat) (o : Opnd) (n : Nat) (tagchk : Bool) : State :=
  if o.checked tagchk && o.tagm = 2 then s.emptyLines g (o.ends n) else s

/-- The tag effect of a checked write of `n` bytes (R202). -/
def State.writeTags (s : State) (g : Nat) (o : Opnd) (n : Nat) (tagchk : Bool) : State :=
  if o.checked tagchk then s.fillLines g (o.ends n) false else s

/-- A wait of what tile `g` has sent, forwards or receives from the builders begins, or goes on (R205). -/
def State.hold (s : State) (g : Nat) (w : TWait) : State :=
  let same (v : TWait) : Bool := v.kind = w.kind && v.line = w.line && v.tile = w.tile
  s.setTile g (fun x => { x with xwaits := if x.xwaits.any same then x.xwaits else x.xwaits ++ [w] })

/-- The waits of a kind on a tile are over. -/
def State.holdOver (s : State) (g kind tile : Nat) : State :=
  s.setTile g (fun x => { x with xwaits := x.xwaits.filter (fun v => v.kind ≠ kind || v.tile ≠ tile) })

/-- The first line that keeps a checked read (`want` true: full) or write (`want` false: empty) waiting. -/
def State.blockedLine (s : State) (g : Nat) (o : Opnd) (n : Nat) (tagchk want : Bool) : Option Nat :=
  if o.checked tagchk then (o.lines n).find? (fun l => s.full g l ≠ want) else none

end Sys2Proof.Machine
end

