-- ==== Sys2Proof/Machine/Image.lean ====
section
/-! DEFINITION. The pipeline image: header, section table and sections, the GOLDEN section (R139, R140, R362). The byte
layouts of the GOLDEN, COLCFG, VHUCFG, MAPLAYOUT and PARTITION sections are the model's (assumption 19). -/

namespace Sys2Proof.Machine

/-- A field of the image header or of a section. -/
abbrev imgU (b : Bytes) (ofs n : Nat) : Nat := fieldB b ofs n

/-- A section table entry (R140). -/
structure Section where
  type : Nat
  target : Nat
  ofs : Nat
  len : Nat
  dest : Nat
deriving DecidableEq, Repr

/-- The section table (R139, R140). -/
def sectionsOf (b : Bytes) : List Section :=
  let b := b.take 8192
  (List.range (min 256 (imgU b 16 2))).map (fun i =>
    let o := 256 + 16 * i
    { type := imgU b o 2, target := imgU b (o + 2) 2, ofs := imgU b (o + 4) 4, len := imgU b (o + 8) 4, dest := imgU b (o + 12) 4 })

/-- The bytes of a section. -/
def Section.bytes (b : Bytes) (x : Section) : Bytes := sliceB b x.ofs x.len

/-- The first section of a type for a target. -/
def findSection (b : Bytes) (type target : Nat) : Option Bytes :=
  ((sectionsOf b).find? (fun x => x.type = type && x.target = target)).map (Section.bytes b)

/-- The device section of a type. -/
def devSection (b : Bytes) (type : Nat) : Option Bytes := findSection b type 0xFFFF

abbrev secProg : Nat := 1
abbrev secWeights : Nat := 2
abbrev secTileCfg : Nat := 3
abbrev secHandles : Nat := 4
abbrev secWindows : Nat := 5
abbrev secPartition : Nat := 6
abbrev secMapLayout : Nat := 7
abbrev secVhuCfg : Nat := 8
abbrev secGolden : Nat := 9
abbrev secColCfg : Nat := 10

/-- The column tile of a slot in COLCFG: eight u16, 0xFFFF none (assumption 19). -/
def colCfgTile (b : Bytes) (h : Nat) : Nat := imgU b (2 * h) 2

/-! ### The GOLDEN section

Layout (assumption 19): u32 returns of engine A, of engine B, u32 channels, u8 wedge number, u8 head slot, u16 halo in cm,
EXP0, EXP1 (u64), nine i64 grid centres, two pose records of 60 bytes, the channel table, the returns of A and of B of 16
bytes each, the golden map. -/

/-- Golden returns of an engine, and channels. -/
def goldN (g : Bytes) (u : Nat) : Nat := imgU g (4 * u) 4
def goldCh (g : Bytes) : Nat := imgU g 8 4
def goldWedge (g : Bytes) : Nat := imgU g 12 1 % 64
def goldHead (g : Bytes) : Nat := imgU g 13 1 % 8
def goldHalo (g : Bytes) : Nat := imgU g 14 2
def goldExp (g : Bytes) (i : Nat) : Nat := imgU g (16 + 8 * i) 8
/-- The golden grid centres A[0] to A[2] (R362). -/
def goldCentres (g : Bytes) : List (List Int) :=
  (List.range 3).map (fun n => (List.range 3).map (fun i => signedOf 64 (imgU g (32 + 24 * n + 8 * i) 8)))
/-- Start of the channel table, the returns and the golden map. -/
def goldChAt : Nat := 224
def goldRetAt (g : Bytes) : Nat := goldChAt + 8 * goldCh g
def goldMapAt (g : Bytes) : Nat := goldRetAt g + 16 * (goldN g 0 + goldN g 1)

/-- A golden pose sample: time on the offset base, position, rotation (R362, R99). -/
def goldPose (g : Bytes) (i : Nat) : Pose :=
  let r := readPose (sliceB g (104 + 60 * i) 60)
  { t := r.time, pos := r.pos, rot := quatRot (r.quat.getD 0 0) (r.quat.getD 1 0) (r.quat.getD 2 0) (r.quat.getD 3 0) }

/-- A golden return in the layout of R210. -/
def goldRet (g : Bytes) (i : Nat) : WRet :=
  let b := sliceB g (goldRetAt g + 16 * i) 16
  let az := imgU b 4 4
  { slot := bitsOf (imgU b 15 1) 4 3, rng := imgU b 0 4, az := az % 2 ^ 24, ch := az / 2 ^ 24, t := imgU b 8 4, ing := 0,
    inten := imgU b 14 1 }

/-- A golden return in the vehicle frame: golden channel table, identity mounting transform, counter-clockwise (R364,
assumption 19). -/
def goldVehicle (g : Bytes) (r : WRet) : List Int :=
  let adj := imgU g (goldChAt + 8 * r.ch + 4) 4
  let rr : Int := r.rng + signedOf 16 (adj / 2 ^ 16)
  let (se, ce) := sincos (lowBits 24 (signedOf 24 (imgU g (goldChAt + 8 * r.ch) 4)))
  let (sp, cp) := sincos (lowBits 24 ((r.az : Int) + signedOf 16 adj))
  let h := rndShift (rr * ce) 30
  [rndShift (h * cp) 30, rndShift (h * sp) 30, rndShift (rr * se) 30]

/-- The points of the golden returns (R364 step 2): engine, offset, intensity, and local coordinates with anchor 0. -/
def goldPoints (g : Bytes) : List (Nat × WRet × List Int) :=
  let a := goldPose g 0
  let b := goldPose g 1
  (List.range (goldN g 0 + goldN g 1)).filterMap (fun i =>
    let r := goldRet g i
    let sf := clampInt 0 (2 ^ 24) (((r.t - a.t) * 2 ^ 24) / (b.t - a.t))
    (toLocal (goldVehicle g r) a b sf [0, 0, 0]).map (fun q => (if i < goldN g 0 then 0 else 1, r, q)))

/-- The largest time offset of the golden returns (R132). -/
def goldLast (g : Bytes) : Int :=
  (List.range (goldN g 0 + goldN g 1)).foldl (fun m i => max m (goldRet g i).t) 0

/-- The GOLDEN section of the held image. -/
def State.golden (s : State) : Bytes := (devSection s.image secGolden).getD []

/-- A golden point inserted in the golden table of its unit (R132, R117): four ways of the bucket h[9:0]. -/
def VhuSt.goldInsert (v : VhuSt) (p : VSlot) (newest : Bool) : VhuSt :=
  let b := voxHash p.key % 1024
  match v.gold.find? (fun e => e.1 / 4 = b && e.2.key = p.key && e.2.grid = p.grid) with
  | some (l, x) => { v with gold := ins l (x.update newest p.sum p.imax p.sweep p.tnew).1 v.gold }
  | none =>
    match ((List.range 4).map (fun w => 4 * b + w)).find? (fun l => (find l v.gold).isNone) with
    | some l => { v with gold := ins l p v.gold }
    | none => v

/-- The golden tables cleared and filled from the golden returns (R132, R364 steps 1, 2); a point outside every window is counted by
the unit on its engine's die (R111). -/
def State.goldFill (s : State) : State :=
  let g := s.golden
  let s := [0, 1].foldl (fun (s : State) u => s.setVhu u (fun v => { v with gold := [] })) s
  (goldPoints g).foldl (fun s e =>
    let (i, r, q) := e
    match s.voxKey q (goldCentres g) with
    | none => (s.bump (VHU.OUT_WIN_CNT i)).set1 (VHU.EVT_OUT_WIN i)
    | some (key, n, off) =>
      let p := newSlot key n off r.inten s.rev.sweep (min 16383 (r.t.toNat / 16384))
      s.setVhu (voxOwner key) (fun v => v.goldInsert p (s.on (VHU.CTRL_SUM_MODE 0)))) s

end Sys2Proof.Machine
end

