-- ==== Sys2Proof/Machine/Ingest.lean ====
section
/-! DEFINITION. The Ingest Engines: point packets, the column copy, poses, de-skew and shedding (R76 to R87, R95 to R107,
R111, R210). -/

namespace Sys2Proof.Machine

/-- The Ingest Engine of a slot (R24). -/
def ingOf (h : Nat) : Nat := h / 4

/-- `s` with an Ingest Engine changed. -/
def State.setIng (s : State) (u : Nat) (f : IngSt → IngSt) : State := { s with ing := s.ing.modify u f }

/-- An Ingest Engine. -/
def State.ig (s : State) (u : Nat) : IngSt := s.ing.getD u {}

/-! ### Shedding -/

/-- A return shed (R105, R106). -/
def State.shedRet (s : State) (h az : Nat) : State :=
  let s := ((s.bump (HP.DROP_SHED h)).bump (HP.SECT_SHED h)).markOverflow (s.wedgeOf h az)
  if (s.hd h).shedArmed then (s.set1 (HP.EVT_SHED h)).setHd h (fun x => { x with shedArmed := false }) else s

/-- The band of a corrected range in 1/128 mm (R104). -/
def State.band (s : State) (u : Nat) (rr : Int) : Nat :=
  let ts := [s.get (ING.BAND0_T0 u), s.get (ING.BAND0_T1 u), s.get (ING.BAND1_T2 u), s.get (ING.BAND1_T3 u),
    s.get (ING.BAND2_T4 u), s.get (ING.BAND2_T5 u), s.get (ING.BAND3_T6 u)]
  (ts.zipIdx.find? (fun e => decide (rr < (e.1 : Int) * 128000))).map Prod.snd |>.getD 7

/-- Whether the level applied to its head sheds a return (R104). -/
def State.sheds (s : State) (r : WRet) : Bool :=
  let rr : Int := r.rng + (s.chan r.slot r.ch).2.2
  decide ((7 - s.band (ingOf r.slot) rr) * 8 + s.get (HP.PRIO_PRIO r.slot) < (s.hd r.slot).level)

/-- SHED_LEVEL_UPDATE (R105). -/
def execShedLevelUpdate (t : Nat) (u : Fin 2) (s : State) : Out :=
  run t (fun s =>
    let due := match (s.ig u).shedAt with
      | none => true
      | some a => decide (a + 16 * tickUs ≤ s.mono)
    s.when (due && s.dev ≠ dsHold) (fun s =>
      let s := s.setIng u (fun x => { x with shedAt := some s.mono })
      let n := (s.ig u).deskQ.length * 100
      let press := s.on (VHU.STAT_STASH_PRESS 0) || s.on (VHU.STAT_STASH_PRESS 1)
      let lv := s.get (ING.SHED_STAT_LEVEL u)
      let heads := (List.range 4).map (fun i => 4 * u.val + i)
      if decide (s.get (ING.SHED_WM_HI u) * 16384 < n) || press then
        if 64 ≤ lv then s
        else
          let s := (s.put (ING.SHED_STAT_LEVEL u) (lv + 1)).putMax (ING.SHED_STAT_MAX u) (lv + 1)
          let s := s.set1If (lv = 0) (ING.EVT_SHED_START u)
          heads.foldl (fun s h => s.setHd h (fun x => { x with level := lv + 1 })) s
      else if decide (n < s.get (ING.SHED_WM_LO u) * 16384) && lv ≠ 0 then
        let s := s.put (ING.SHED_STAT_LEVEL u) (lv - 1)
        if lv = 1 then heads.foldl (fun s h => s.setHd h (fun x => { x with shedArmed := true })) s else s
      else s)) s

/-- SECTOR_START (R68, R70, R71, R105, R106): after the wedge closes of its evaluation step. -/
def execSectorStart (t : Nat) (h : Fin 8) (k : Nat) (s : State) : Out :=
  run t (fun s =>
    let s := s.closeDue
    let n := 2 ^ s.get (AT.CFG_SECT_LOG2 h)
    let a := k * 2 ^ 24 / n
    let all := (List.range n).map (fun i => (keySector i, i * 2 ^ 24 / n))
    s.when (decide (k < n) && s.due? h (keySector k) a && s.first? h a all) (fun s =>
      let s := (s.fire h (keySector k) a).put (HP.SECT_SHED h) 0
      s.setHd h (fun x => { x with level := s.get (ING.SHED_STAT_LEVEL (ingOf h)) }))) s

/-! ### The column copy (R87, R107, R210) -/

/-- The column tile of a slot (R28). -/
def State.colTile (s : State) (h : Nat) : Option Nat :=
  (List.range 80).find? (fun g => s.get (TILE.ROLE_ROLE g) = 2 && bitOf (s.get (TILE.ROLE_SLOTS g)) h)

/-- A RING[0] entry (R210). -/
def ringEntry (r : PRet) (h col : Nat) (quar fb : Bool) : Bytes :=
  leBytes 4 r.rng ++ leBytes 4 (r.az + r.ch % 256 * 2 ^ 24) ++ leBytes 4 (lowBits 32 r.t) ++ leBytes 2 col ++ leBytes 1 r.inten ++
    leBytes 1 (r.rn + b2n quar * 4 + b2n fb * 8 + h * 16)

/-- A padding entry (R210): column 0xFFFF, its other bytes 0. -/
def padEntry : Bytes := zeroBytes 12 ++ [0xFF#8, 0xFF#8, 0#8, 0#8]

/-- A line filled up with padding entries. -/
def padLine (b : Bytes) : Bytes := b ++ (List.range ((512 - b.length) / 16)).flatMap (fun _ => padEntry)

/-- A return dropped from the column path (R107). -/
def State.colExcess (s : State) (h : Nat) : State := (s.bump (HP.COL_EXCESS h)).set1 (HP.EVT_COL_EXCESS h)

/-- The flags `m` set on a service of tile `g` and on its record, wherever it waits (R289). -/
def State.svcFlag (s : State) (g n m : Nat) : State :=
  let f (c : ColSvc) : ColSvc := if c.n = n then { c with flags := Nat.lor c.flags m } else c
  let s := s.setTile g (fun x => { x with cols := x.cols.map f, cur := x.cur.map f, outSvc := x.outSvc.map (fun c => c.map f) })
  { s with out := { s.out with colQ := s.out.colQ.map (fun r => { r with svc := f r.svc }) } }

/-- A return lost after its column's deadline flags the record of the column that has not left yet, the latest where there are
several (R107, R289). -/
def State.lateExcess (s : State) (g h col : Nat) : State :=
  let x := s.tile g
  let l := (x.cols ++ x.cur.toList ++ x.outSvc.filterMap id ++ s.out.colQ.map (fun r => r.svc)).filter (fun c => c.slot = h && c.col = col)
  let s := s.colExcess h
  if l.isEmpty then s else s.svcFlag g (l.foldl (fun m c => max m c.n) 0) 8

/-- Whether the deadline of the column that holds a return has fired (R210): the return lies on the pass nearest to the
angle predicted for its time. -/
def State.pastDeadline (s : State) (h col : Nat) (r : PRet) : Bool :=
  let k := s.tk h
  match find (keyCol col) k.fired with
  | none => false
  | some q =>
    let p := predictAt k.t0 k.pos k.r r.t
    let pos := p + wrap40 ((r.az : Int) * 2 ^ 16 - p)
    let w := 2 ^ 24 / s.columns h
    let dl := pos + (((w - r.az % w + s.get (AT.COL_DL_DL h) : Nat) : Int)) * 2 ^ 16
    decide (dl ≤ q)

/-- `s` with the open column `(h, col)` of a column tile changed; it is opened where it is not. -/
def State.setBuf (s : State) (g h col : Nat) (f : ColBuf → ColBuf) : State :=
  s.setTile g (fun x =>
    if x.bufs.any (fun b => b.slot = h && b.col = col) then
      { x with bufs := x.bufs.map (fun b => if b.slot = h && b.col = col then f b else b) }
    else { x with bufs := x.bufs ++ [f { slot := h, col := col }] })

/-- The open column `(h, col)` of a column tile. -/
def State.buf (s : State) (g h col : Nat) : ColBuf :=
  ((s.tile g).bufs.find? (fun b => b.slot = h && b.col = col)).getD { slot := h, col := col }

/-- The partly filled line of an open column written to RING[0]. -/
def State.flushBuf (s : State) (g h col : Nat) : State :=
  let b := s.buf g h col
  if b.part.isEmpty then s
  else (s.ringPush g 0 (padLine b.part)).setBuf g h col (fun b => { b with part := [] })

/-- A return on the column path (R107, R210). -/
def State.colReturn (s : State) (h : Nat) (r : PRet) : State :=
  if !(s.dev = dsNoon || s.dev = dsDusk) then s
  else match s.colTile h with
  | none => s
  | some g =>
    if !s.on (RING.CFG_EN g 0) then s
    else
      let col := s.columnOf h r.az
      let per := s.get (RING.CFG_PER_COL g 0)
      let b := s.buf g h col
      let open_ := ((s.tile g).bufs.filter (fun b => !b.part.isEmpty)).length
      if s.pastDeadline h col r then s.lateExcess g h col
      else if per ≤ b.cnt then (s.colExcess h).setBuf g h col (fun b => { b with excess := true })
      else if b.part.isEmpty && decide (s.get (RING.SIZE_LINES g 0) ≤ s.ringOcc g 0 + open_) then
        ((s.colExcess h).bump (RING.EVT_CNT g 0)).setBuf g h col (fun b => { b with excess := true })
      else
        let quar := s.get (HP.STAT_ID_STATE h) ≠ idTrusted
        let fb := s.atState h = atFallback
        let s := s.setBuf g h col (fun b => { b with cnt := b.cnt + 1,
                                                     first := if b.cnt = 0 then r.t else min b.first r.t,
                                                     last := if b.cnt = 0 then r.t else max b.last r.t,
                                                     marks := Nat.lor b.marks (b2n quar + 2 * b2n fb),
                                                     part := b.part ++ ringEntry r h col quar fb })
        if (s.buf g h col).part.length = 512 || decide (per ≤ (s.buf g h col).cnt) then s.flushBuf g h col else s

/-! ### Point packets -/

/-- A return on the wedge path, up to the de-skew queue (R91, R105, R437). -/
def State.wedgeReturn (s : State) (h : Nat) (r : PRet) (ing : Nat) : State :=
  if s.on (HP.STAT_QUAR h) then s.bump (HP.EXCL_QUAR h)
  else if !(s.dev = dsNoon || s.dev = dsDusk || s.dev = dsMidnight) then s
  else
    let u := ingOf h
    if 16384 ≤ (s.ig u).deskQ.length then s.shedRet h r.az
    else s.setIng u (fun x => { x with deskQ := x.deskQ ++
            [{ slot := h, rng := r.rng, az := r.az, ch := r.ch, t := r.t, ing := ing, inten := r.inten }] })

/-- One return of a packet kept at packet level; `first` where it is the first one read of its block (R85, R87, R94). -/
def State.oneReturn (s : State) (h : Nat) (r : PRet) (first : Bool) (ing : Nat) : State :=
  let s := if first then s.angleSample h r.t.toNat r.az else s
  if r.rng = 0 then s
  else
    let s := if s.hasTwilight h && s.inTwilight h r.az then
        s.setHd h (fun x => { x with intSum := x.intSum + r.inten, intN := x.intN + 1 }) else s
    (s.colReturn h r).wedgeReturn h r ing

/-- The returns that are the first read of their block. -/
def markFirst : Option Nat → List PRet → List (PRet × Bool)
  | _, [] => []
  | b, r :: rs => (r, b ≠ some r.blk) :: markFirst (some r.blk) rs

/-- The body of a point packet (R82 to R87): `ing` is its ingress time at the MDI in TB_SNS ns on the sender's clock,
`shift` what brings the sender's times into local sensor time (R399), `at_` its ingress on TB_MONO. Only the returns that DROP_PARSE does
not drop take part in the TS_WIN check (DESIGN CHOICE, assumption 115). -/
def State.ingestPacket (s : State) (h : Nat) (p : Bytes) (ing shift : Int) (at_ : Nat) : State :=
  let s := s.bump (HP.RX_PKT h)
  if s.on (HP.STAT_MAP_ERR h) then s.bump (HP.DROP_PARSE h)
  else match (s.headMap h).read p (ing - s.get (HP.TS_NOM_NS h)) with
  | .parse => s.bump (HP.DROP_PARSE h)
  | .rets l =>
    let l := l.map (fun e => match e with | .read r => RetRes.read { r with t := r.t - shift } | e => e)
    let rs := l.filterMap (fun e => match e with | .read r => some r | _ => none)
    let win : Int := s.get (HP.TS_WIN_US h) * 1000
    if rs.any (fun r => decide (win < (r.t - (ing - shift)).natAbs)) then (s.bump (HP.DROP_TIME h)).set1 (HP.EVT_TS_WINDOW h)
    else
      let s := s.addCnt (HP.RX_RET h) (l.filter (fun e => e ≠ .beyond)).length
      let s := s.addCnt (HP.DROP_PARSE h) (l.length - rs.length)
      (markFirst none rs).foldl (fun s e => s.oneReturn h e.1 e.2 at_) s

/-- The packet passes the MAGIC check of its map (R82, R398). -/
def State.magicOk (s : State) (h : Nat) (p : Bytes) : Bool :=
  ((s.fmap h).filter (fun d => d.kind = kMagic && d.scope = 0)).all (fun d =>
    match fieldRaw p 0 d with
    | none => false
    | some r => !badForPacket d r)

/-- Head angles of the first and last return of a packet (R400). -/
def State.packetAz (s : State) (h : Nat) (p : Bytes) : Nat × Nat :=
  match (s.headMap h).read p 0 with
  | .parse => (0, 0)
  | .rets l =>
    let as := l.filterMap (fun e => match e with | .read r => some r.az | _ => none)
    (as.head?.getD 0, as.getLast?.getD 0)

/-- POINT_PACKET (R76, R79, R85, R88, R398). -/
def execPointPacket (t : Nat) (h : Fin 8) (d : Datagram) (s : State) : Out :=
  run t (fun s => s.when (s.on (HP.STAT_LINK h) && s.dev ≠ dsHold && frameTaken d false && d.dstUdp = s.get (HP.UDP_PT_PORT h)) (fun s =>
    let s := s.setHd h (fun x => { x with mac := d.srcMac, learned := x.learned.orElse (fun _ => some d.srcIp) })
    let lat := s.get (TS.ING_LAT_LAT (portPage (.head h)))
    let ing := (s.sns - lat) / 16
    let s := if s.magicOk h d.payload && bitOf s.localSlots h then s.forward h d.payload ing (s.packetAz h d.payload) else s
    s.ingestPacket h d.payload ing 0 (s.mono - lat))) s

/-! ### De-skew (R101, R102, R111) -/

/-- The pose mark of R102 on the wedge of a return. -/
def State.markPose (s : State) (r : WRet) : State := s.setWd (s.wedgeOf r.slot r.az) (fun x => { x with pose := true })

/-- A return converted from a sample pair, and its point on its way to the owning unit (R100, R101, R111). -/
def State.convert (s : State) (r : WRet) (a b : Pose) (sf : Int) (extrap gap : Bool) : State :=
  let u := ingOf r.slot
  let s := if extrap then ((s.set1 (ING.EVT_POSE_EXTRAP u)).bump (ING.EXTRAP_CNT u)).markPose r else s
  let s := if gap then (s.set1 (ING.EVT_POSE_GAP u)).markPose r else s
  match s.pose.anchorAt r.t with
  | none => s
  | some an =>
    match toLocal (s.toVehicle r) a b sf an.at_ with
    | none => s.bump (HP.DROP_RANGE r.slot)
    | some q =>
      match s.voxKey (zipI (· + ·) q an.at_) s.grids.centre with
      | none => (s.bump (VHU.OUT_WIN_CNT u)).set1 (VHU.EVT_OUT_WIN u)
      | some (key, n, off) =>
        s.setVhu (voxOwner key) (fun v => { v with inq := v.inq ++ [{ key := key, grid := n, off := off, inten := r.inten,
                                                                       slot := r.slot, t := r.t, mark := s.wedgeOf r.slot r.az }] })

/-- A return that can wait no longer: extrapolated, or dropped before the first sample (R102). -/
def State.convertNow (s : State) (r : WRet) : State :=
  match s.pose.bracket (s.get (ING.POSE_GAP_US 0)) r.t true with
  | .found a b sf e g => s.convert r a b sf e g
  | _ => s.bump (HP.DROP_POSE r.slot)

/-- An access to the pose-wait buffer of an engine (R35, R102, R338): whether the buffer's region admits P1 and the data comes. -/
def State.poseAccess (s : State) (u i : Nat) (write : Bool) : Bool × State :=
  match s.poseRegion u with
  | none => (true, s)
  | some r =>
    let a := s.get (SI.REGION_BASE_MIB r) * 2 ^ 20 + 32 * (i % 2 ^ 20)
    if !s.dramOk u a 32 1 write false then (false, s.dramViol u a 1 write)
    else if write then (true, s)
    else
      let (e, inj, s) := s.dramInject u .clean
      match e with
      | .clean => (true, s)
      | .corrected => (true, s.dramCe u a false inj)
      | .uncorrectable => (false, (s.dramUeInfo u a false).raise (DRAM.EVT_UE u) 2 2 inj)

/-- A return taken from place `i` of the pose-wait buffer; one whose data does not come is lost. -/
def State.fromWait (s : State) (u i : Nat) (r : WRet) (f : State → WRet → State) : State :=
  let s := s.setIng u (fun x => { x with pwb := x.pwb.eraseIdx i })
  match s.poseAccess u i false with
  | (true, s) => f s r
  | (false, s) => s

/-- DESKEW (R101, R102, R104): the oldest queued return of an engine. -/
def execDeskew (t : Nat) (u : Fin 2) (s : State) : Out :=
  run t (fun s =>
    match (s.ig u).deskQ with
    | [] => s
    | r :: q =>
      let s := s.setIng u (fun x => { x with deskQ := q })
      if s.sheds r then s.shedRet r.slot r.az
      else match s.pose.bracket (s.get (ING.POSE_GAP_US 0)) r.t false with
      | .found a b sf e g => s.convert r a b sf e g
      | _ =>
        if 1048576 ≤ (s.ig u).pwb.length then (s.set1 (ING.EVT_PWB_FULL u)).convertNow r
        else match s.poseAccess u (s.ig u).pwb.length true with
          | (true, s) => s.setIng u (fun x => { x with pwb := x.pwb ++ [r] })
          | (false, s) => s) s

/-- POSE_WAIT_TIMEOUT (R102): the oldest waiting return whose wait has passed. -/
def execPoseWaitTimeout (t : Nat) (u : Fin 2) (s : State) : Out :=
  run t (fun s =>
    let lim := s.get (ING.POSE_WAIT_US 0) * tickUs
    match (s.ig u).pwb.zipIdx.find? (fun e => decide (e.1.ing + lim ≤ s.mono)) with
    | none => s
    | some (r, i) => s.fromWait u i r State.convertNow) s

/-- Returns that waited for a sample converted with it (R102). -/
def State.convertWaiting (s : State) (u : Nat) : State :=
  (s.ig u).pwb.foldl (fun s r =>
    match s.pose.bracket (s.get (ING.POSE_GAP_US 0)) r.t false with
    | .found a b sf e g => s.fromWait u ((s.ig u).pwb.idxOf r) r (fun s r => s.convert r a b sf e g)
    | _ => s) s

/-! ### Poses (R95 to R100) -/

/-- A refused sample (R99): counted on both pages, POSE_BAD but in the ordering case. -/
def State.poseBad (s : State) (order : Bool) : State :=
  [0, 1].foldl (fun s u => (s.bump (ING.POSE_BAD_CNT u)).set1If (!order) (ING.EVT_POSE_BAD u)) s

/-- ANCHOR on both pages (R109). -/
def State.showAnchor (s : State) (a : Anchor) : State :=
  [0, 1].foldl (fun s u =>
    let s := s.put (ING.STAT_ANCHOR_GEN u) a.gen
    (List.range 3).foldl (fun s i =>
      let v := lowBits 48 (ent a.at_ i)
      (s.put (ING.ANCHOR_LO u i) (v % 2 ^ 32)).put (ING.ANCHOR_HI_HI u i) (v / 2 ^ 32)) s) s

/-- The anchor after an accepted sample (R100). -/
def State.anchorStep (s : State) (t : Int) (pos : List Int) : State :=
  let set (s : State) (a : Anchor) : State :=
    (({ s with pose := { s.pose with anchors := a :: (s.pose.anchors.filter (fun b => b.gen ≠ a.gen)) } } : State)).showAnchor a
  match s.pose.anchors.head? with
  | none => set s { gen := 0, start := none, at_ := anchorOf pos }
  | some a =>
    if (zipI (fun p c => p - c * 64) pos a.at_).any (fun d => decide (2 ^ 21 * 64 < d.natAbs)) then
      let s := set s { gen := (a.gen + 1) % 4, start := some t, at_ := anchorOf pos }
      (s.set1 (ING.EVT_ANCHOR_MOVE 0)).set1 (ING.EVT_ANCHOR_MOVE 1)
    else s

/-- A sample that passed R99 joins the pose series of both engines. -/
def State.acceptPose (s : State) (t : Int) (r : PoseRec) (act : Nat) : State :=
  let q (i : Nat) := ent r.quat i
  let p : Pose := { t := t, pos := r.pos, rot := quatRot (q 0) (q 1) (q 2) (q 3) }
  let ps := s.pose.poses ++ [p]
  let s : State := { s with pose := { s.pose with poses := ps.drop (ps.length - 64) } }
  let s := [0, 1].foldl (fun s u => (s.bump (ING.POSE_RX_CNT u)).put (ING.STAT_POSE_ACT u) act) s
  let s := (s.anchorStep t r.pos).recentreCheck r.pos
  let s := (s.convertWaiting 0).convertWaiting 1
  if s.noWedge then s.commitRecentre else s

/-- A record handled as a sample of time `t` (TB_SNS ns; none: TB_VEH has no master) (R99). -/
def State.poseSample (s : State) (t : Option Int) (r : PoseRec) (act : Nat) : State :=
  match t with
  | none => s.poseBad false
  | some t =>
    if !r.ok then s.poseBad false
    else if (match s.pose.poses.getLast? with | none => false | some p => decide (t ≤ p.t)) then s.poseBad true
    else s.acceptPose t r act

/-- The time of a host record in TB_SNS ns (R99). -/
def State.poseTime (s : State) (r : PoseRec) : Option Int :=
  if !r.tbVeh then some r.time
  else if s.vehState = vehNoMaster then none
  else some ((r.time : Int) + (s.sns - s.veh) / 16)

/-- ING.CTRL.POSE_SRC, 3 treated as 0 (R98). -/
def State.poseSrc (s : State) : Nat := if s.get (ING.CTRL_POSE_SRC 0) = 3 then 0 else s.get (ING.CTRL_POSE_SRC 0)

/-- POSE_FRAME (R96, R98, R99). -/
def execPoseFrame (t : Nat) (p : Fin 2) (d : Datagram) (sec : SecInfo) (s : State) : Out :=
  run t (fun s => s.hostRx p sec (fun s =>
    let used := s.poseSrc = 0 || (s.poseSrc = 2 && !s.pose.imuHealthy)
    s.when (s.dev ≠ dsHold && frameTaken d sec.protected_ && d.dstUdp = s.get (ING.POSE_UDP_PORT 0) && used) (fun s =>
      let r := readPose d.payload
      s.poseSample (s.poseTime r) r 1))) s

/-- IMU_DRDY (R97, R465): TB_SNS captured, the SPI read started; during a read the capture waits for the next one. -/
def execImuDrdy (t : Nat) (s : State) : Out :=
  run t (fun s => s.when (s.on (ING.IMU_CFG_EN 0) && s.dev ≠ dsHold) (fun s =>
    let s : State := { s with pose := { s.pose with drdyAt := s.mono } }
    if s.pose.capture.isSome then { s with pose := { s.pose with next := some s.snsNs } }
    else ({ s with pose := { s.pose with capture := some s.snsNs } } : State).emit (.spi (s.get (ING.IMU_CFG_RD_CMD 0))))) s

/-- A read has ended: the one that waits for it starts (R465), while the unit is enabled. -/
def State.imuNext (s : State) : State :=
  let n := if s.on (ING.IMU_CFG_EN 0) && s.dev ≠ dsHold then s.pose.next else none
  let s : State := { s with pose := { s.pose with capture := n, next := none } }
  if n.isSome then s.emit (.spi (s.get (ING.IMU_CFG_RD_CMD 0))) else s

/-- The inertial unit becomes lost (R98). -/
def State.imuLost (s : State) : State :=
  let s := ({ s with pose := { s.pose with imuHealthy := false } } : State).set1 (ING.EVT_IMU_LOST 0)
  [0, 1].foldl (fun s u => if s.get (ING.STAT_POSE_ACT u) = 2 then s.put (ING.STAT_POSE_ACT u) (if s.poseSrc = 2 then 1 else 0) else s) s

/-- IMU_READ_DONE (R97 to R99, R465). -/
def execImuReadDone (t : Nat) (rec : Bytes) (s : State) : Out :=
  run t (fun s =>
    match s.pose.capture with
    | none => s
    | some c =>
      let s := s.imuNext
      let r := readPose rec
      let bad := if r.crcOk then 0 else s.pose.imuBad + 1
      let s : State := { s with pose := { s.pose with imuBad := bad } }
      let time := c - s.get (ING.IMU_LAT_NS 0)
      let late := match s.pose.poses.getLast? with
        | none => false
        | some p => decide (time ≤ p.t)
      let s := if r.ok && !late then ({ s with pose := { s.pose with imuHealthy := true } } : State) else s
      let s := if s.poseSrc = 0 then s else s.poseSample (some time) r 2
      if s.pose.imuHealthy && decide (5 ≤ bad) then s.imuLost else s) s

/-- IMU_LOST (R98). -/
def execImuLost (t : Nat) (s : State) : Out :=
  run t (fun s => s.when (s.pose.imuHealthy && (decide (s.pose.drdyAt + 5 * tickMs ≤ s.mono) || decide (5 ≤ s.pose.imuBad)))
    State.imuLost) s

/-- A write that sets ING.IMU_CFG.EN (R98): the unit counts as lost until its first valid record. -/
def State.imuEnabled (s : State) : State :=
  { s with pose := { s.pose with imuHealthy := false, imuBad := 0, drdyAt := s.mono, capture := none, next := none } }

/-- VOXEL_INSERT (R115, R134): the oldest point on its way to a unit; `ecc` is what the slot read meets. -/
def execVoxelInsert (t : Nat) (u : Fin 2) (ecc : EccRes) (s : State) : Out :=
  run t (fun s =>
    match (s.vu u).inq with
    | [] => s
    | p :: q => (s.setVhu u (fun v => { v with inq := q })).insertPoint u p ecc) s

end Sys2Proof.Machine
end

