-- ==== Sys2Proof/Machine/Events.lean ====
section
/-! DEFINITION. Angle events, wedge closes and revolution marks (R68 to R74, R119, R121, R161, R263 to R265, R300,
R302, R363 to R367, R375). -/

namespace Sys2Proof.Machine

/-- The covered far edges of a head as events: keys and angles (R70). -/
def State.farEvents (s : State) (h : Nat) : List (Nat × Nat) :=
  ((List.range 64).filter (fun w => s.covers h w)).map (fun w => (keyFar w, s.farAngle h w))

/-- FAR_EDGE_CROSSING (R68, R70 to R73, R91, R291): a mask so completed closes its wedge at the end of the evaluation step. -/
def execFarEdgeCrossing (t : Nat) (h : Fin 8) (w : Fin 64) (s : State) : Out :=
  run t (fun s =>
    let a := s.farAngle h w
    s.when (s.covers h w && s.due? h (keyFar w) a && s.first? h a (s.farEvents h)) (fun s =>
      let s := s.fire h (keyFar w) a
      let hs := s.maskHeads w
      if !s.schedules || !bitOf hs h then s
      else
        let locked := s.atState h = atLocked
        let s := s.setWd w (fun x =>
          let x := x.enter (s.entryAt h w)
          { x with mask := if locked then Nat.lor x.mask (2 ^ h.val) else x.mask,
                   timer := x.timer.orElse (fun _ => some s.mono),
                   timerSns := if x.timer.isNone then s.snsNs else x.timerSns })
        if Nat.land (s.wd w).mask hs = hs then s.wedgeDue w else s)) s

/-- WEDGE_TIMEOUT (R71, R73). -/
def execWedgeTimeout (t : Nat) (w : Fin 64) (s : State) : Out :=
  run t (fun s =>
    let due := match (s.wd w).timer with
      | none => false
      | some a => decide (a + s.get TMU.WEDGE_TO_US * tickUs ≤ s.mono)
    s.when (due && s.schedules && s.maskHeads w ≠ 0) (fun s => s.wedgeDue w)) s

/-- WEDGE_CLOSE_AFTER_COMMIT (R71, R72): in an evaluation step after that of the commit point. -/
def execWedgeCloseAfterCommit (t : Nat) (w : Fin 64) (s : State) : Out :=
  run t (fun s =>
    let next := match (s.wd w).after with
      | none => false
      | some a => decide (evalStep a < evalStep s.mono)
    s.when (next && s.schedules && s.maskHeads w ≠ 0) (fun s => s.wedgeDue w)) s

/-- The service of a column at its deadline (R288, R289): flags from the slot's state and from the column's returns. -/
def State.columnService (s : State) (g h c : Nat) : ColSvc :=
  let b := s.buf g h c
  let n := s.columns h
  let fl (i : Nat) (v : Bool) := if v then 2 ^ i else 0
  let empty := b.cnt = 0
  { n := s.out.svcN, slot := h, col := c,
    flags := fl 0 (s.get (HP.STAT_ID_STATE h) ≠ idTrusted || bitOf b.marks 0) + fl 1 (s.atState h = atFallback || bitOf b.marks 1) +
      fl 2 (s.on (HP.STAT_WORN h) || s.on (HP.STAT_LIFE_END h)) + fl 3 b.excess + fl 5 empty +
      fl 7 (bitOf (s.get PLK.STAT_FWD_SLOTS) h),
    az := s.azimuth h ((2 * c + 1) * (2 ^ 23 / n)),
    first := if empty then s.snsNs else b.first, last := if empty then s.snsNs else b.last }

/-- The Age Monitor's expectation of a column record, counted in AV_EXP (R300, R360). -/
def State.expectColumn (s : State) (h c : Nat) : State :=
  let s : State := { s with out := { s.out with expects := s.out.expects ++
      [{ wedge := false, slot := h, id := c, tClose := 0, ends := s.mono + s.get AM.COL_MISS_US * tickUs }] } }
  s.bump64 SI.AV_EXP_LO SI.AV_EXP_HI

/-- COLUMN_EMISSION_DEADLINE (R68, R70, R71, R158, R210, R300): after the wedge closes of its evaluation step, and after the deadline of
the column before it where both are due. -/
def execColumnEmissionDeadline (t : Nat) (h : Fin 8) (c : Nat) (s : State) : Out :=
  run t (fun s =>
    let s := s.closeDue
    let a := s.colAngle h c
    let before := (c + s.columns h - 1) % s.columns h
    s.when (decide (c < s.columns h) && s.due? h (keyCol c) a && s.first? h a [(keyCol before, s.colAngle h before)]) (fun s =>
      let s := s.fire h (keyCol c) a
      match s.colTile h with
      | none => s
      | some g =>
        let s := if s.dev = dsNoon || s.dev = dsMidnight then s.expectColumn h c else s
        if !(s.dev = dsNoon || s.dev = dsDusk) then s
        else
          let svc := s.columnService g h c
          let s : State := { s with out := { s.out with svcN := s.out.svcN + 1 } }
          (s.flushBuf g h c).setTile g (fun x => { x with cols := x.cols ++ [svc],
                                                          bufs := x.bufs.filter (fun b => !(b.slot = h.val && b.col = c)) }))) s

/-! ### Golden injection (R363 to R365, R367) -/

/-- Closed non-golden wedges not yet admitted (R363). -/
def State.backlogN (s : State) : Nat := (s.pipe.backlog.filter (fun j => !j.golden)).length

/-- An injection (R363, R364). -/
def State.injectGolden (s : State) (forced : Bool) : State :=
  let s := if forced then (s.set1 BIST.EVT_GOLD_FORCED).bump BIST.GOLD_FORCED_CNT else s
  let busy := s.ms.run.any (fun a => a.code = 3 || a.code = 4)
  let s := s.set1If (forced && busy) MS.EVT_PREEMPT
  let s := ((s.put BIST.STAT_GOLD_DEF 0).put BIST.STAT_GOLD_STARVED 0).set1 BIST.STAT_GOLD_INFLIGHT
  let s : State := { s with age := { s.age with forced := s.age.forced || forced, goldT0 := some s.rev.sweep, defer := 0 } }
  s.goldFill

/-- A deferral (R363): GOLD_DEF rises to DEFER_MAX, where the next injection is forced. `at_` is the count of the mark
that ends the revolution after it. -/
def State.goldDefer (s : State) (at_ : Nat) : State :=
  let d := s.get BIST.STAT_GOLD_DEF
  let m := s.get MS.GOLD_CFG_DEFER_MAX
  let s := s.bump BIST.GOLD_DEFER_CNT
  if m ≤ d then s
  else
    let s := s.put BIST.STAT_GOLD_DEF (d + 1)
    if d + 1 = m then { s with age := { s.age with defer := at_ + 1 } } else s

/-- The golden head gives opportunities: it is tracking and has a twilight arc. -/
def State.goldHeadOk (s : State) : Bool :=
  let h := s.get MS.GOLD_CFG_HEAD
  s.tracking h && s.hasTwilight h

/-- A twilight open as an injection opportunity (R363). -/
def State.goldOpportunity (s : State) (h : Nat) : State :=
  let force := decide (s.get MS.GOLD_CFG_DEFER_MAX ≤ s.get BIST.STAT_GOLD_DEF)
  if s.dev ≠ dsNoon then s
  else if h = s.get MS.GOLD_CFG_HEAD then
    let s : State := { s with age := { s.age with goldOpen := true } }
    if s.backlogN ≤ s.get MS.GOLD_CFG_DEFER_THRESH then s.injectGolden false
    else if force then s.injectGolden true
    else (s.goldDefer (s.rev.count + 2)).set1 BIST.EVT_GOLD_DEFER
  else if force && !s.goldHeadOk then s.injectGolden true
  else s

/-- TWILIGHT_SLOT_OPEN (R70, R71, R363): after the wedge closes of its evaluation step. -/
def execTwilightSlotOpen (t : Nat) (h : Fin 8) (s : State) : Out :=
  run t (fun s =>
    let s := s.closeDue
    let a := s.get (AT.TWI_START_ANGLE h)
    s.when (s.hasTwilight h && s.due? h keyTwiOpen a) (fun s => (s.fire h keyTwiOpen a).goldOpportunity h)) s

/-- TWILIGHT_SLOT_CLOSE (R70): the window's length is what `windowLeft` reads; the event itself is recorded. -/
def execTwilightSlotClose (t : Nat) (h : Fin 8) (s : State) : Out :=
  run t (fun s =>
    let s := s.closeDue
    let a := s.get (AT.TWI_END_ANGLE h)
    s.when (s.hasTwilight h && s.due? h keyTwiClose a) (fun s => s.fire h keyTwiClose a)) s

/-- The golden work of a revolution mark in Noon (R363, R367): a gap counts as a deferral, starvation is reported. A gap is a
revolution in Noon, from mark to mark, without an opportunity, at whose start or end the golden head gives none (assumption 98). -/
def State.goldMark (s : State) : State :=
  if s.dev ≠ dsNoon then s
  else
    let due := s.age.defer
    let s := if due ≠ 0 && decide (due ≤ s.rev.count + 1) && !s.on BIST.STAT_GOLD_STARVED then
        (s.set1 BIST.STAT_GOLD_STARVED).raise BIST.EVT_GOLD_STARVED 1 8 else s
    -- a forced injection that DEFER_MAX alone has made due (R363, R367)
    let force := s.age.defer = 0 && decide (s.get MS.GOLD_CFG_DEFER_MAX ≤ s.get BIST.STAT_GOLD_DEF)
    let s : State := if force then { s with age := { s.age with defer := s.rev.count + 2 } } else s
    let ok := s.goldHeadOk
    let s := if !s.age.goldOpen && !(ok && s.age.goldOk) then (s.goldDefer (s.rev.count + 1)).set1 BIST.EVT_GOLD_NOWIN else s
    { s with age := { s.age with goldOpen := false, goldOk := ok } }

/-! ### Revolution marks -/

/-- TGE.SHARD_LOAD (R265). -/
def State.shardLoads (s : State) : State :=
  [0, 1].foldl (fun s u =>
    let l := (s.tge u).shard
    let s := (List.range 32).foldl (fun s i => s.put (TGE.SHARD_LOAD u i) (satU 32 (l.getD i 0))) s
    s.setTge u (fun x => { x with shard := List.replicate 32 0 })) s

/-- What comes about at every revolution mark; a wedge marked LATE in its evaluation step counts in the new revolution (R119, R121, R161, R264, R265, R273, R302, R363, R375). -/
def State.mark (s : State) : State :=
  let n := s.rev.count + 1
  let sw := s.rev.sweep + 1
  let s : State := { s with rev := { s.rev with count := n, sweep := sw, lastMark := some s.mono,
                                                starts := (s.snsNs :: s.rev.starts).take 8 } }
  let s := [0, 1].foldl (fun s u => s.put (VHU.STAT_SWEEP_CUR u) (sw % 256)) s
  let s := [0, 1].foldl (fun (s : State) u =>
    (s.msRequest 1 u).set1 (VHU.STAT_AGE_PEND u)) s
  let period := s.get (MAP.CTRL_CACHE_PERIOD 0)
  let s := if period ≠ 0 && n % period = 0 then (s.msRequest 4 0).msRequest 4 1 else s
  let s := s.shardLoads
  let late := if s.pipe.lateNow.1 = evalStep s.mono then s.pipe.lateNow.2 else 0
  let s : State := { s with pipe := { s.pipe with lateRev := late }, ms := { s.ms with logged := [] },
                            out := { s.out with staleLog := [] },
                            tiles := s.tiles.map (fun x => { x with conflictLog := false }) }
  let s := s.goldMark
  if s.noWedge then s.applyBatch else s

/-- The revolution timer's period in 1/16 ns (R74): 50 ms until the head has been LOCKED. -/
def State.revPeriod (s : State) : Nat :=
  match s.rev.lastRate with
  | none => 50 * tickMs
  | some r => if r = 0 then 50 * tickMs else 2 ^ 56 * tickNs / r

/-- REVOLUTION_MARK (R70, R74): fired by the reference head, or by the revolution timer. -/
def execRevolutionMark (t : Nat) (s : State) : Out :=
  run t (fun s =>
    let h := s.get TMU.REF_REF_HEAD
    let a := s.get TMU.REF_REV_ANGLE
    let p := s.revPeriod
    if s.tracking h then
      s.when (s.due? h keyRev a) (fun s =>
        let s := s.fire h keyRev a
        -- a crossing nearer than half a period to the last mark fires none (R74)
        let near := match s.rev.lastMark with
          | none => false
          | some m => decide (2 * s.mono < 2 * m + p)
        if near then s
        else
          let s : State := { s with rev := { s.rev with lastHead := s.mono, lastTimer := none } }
          s.mark)
    else
      let from_ := s.rev.lastTimer.getD s.rev.lastHead
      s.when (decide (from_ + p ≤ s.mono)) (fun s =>
        let s : State := { s with rev := { s.rev with lastTimer := some s.mono } }
        s.mark)) s

end Sys2Proof.Machine
end

