-- ==== Sys2Proof/Machine/Build.lean ====
section
/-! DEFINITION. The neighbour builders: enumeration, rows, levels, rulebooks; ageing and recentring passes; the golden
close (R116, R121 to R134, R157, R159, R364). -/

namespace Sys2Proof.Machine

/-! ### Directions in the plane, exactly -/

/-- The quadrant of a vector other than 0 (0: x > 0, y ≥ 0, counter-clockwise), and the vector turned back into
quadrant 0. -/
def quadrant (x y : Int) : Nat × Int × Int :=
  if 0 < x && 0 ≤ y then (0, x, y)
  else if x ≤ 0 && 0 < y then (1, y, -x)
  else if x < 0 && y ≤ 0 then (2, -x, -y)
  else (3, -y, x)

/-- The sector of a vector in 4·2^n equal sectors that begin at +x, and whether it lies on the sector's first edge:
doubling an angle halves the sectors. -/
def sectorN : Nat → Int → Int → Nat × Bool
  | 0, x, y => let (q, _, b) := quadrant x y; (q, b = 0)
  | n + 1, x, y =>
    let (q, a, b) := quadrant x y
    let (k, e) := sectorN n (a * a - b * b) (2 * a * b)
    (q * 2 ^ (n + 1) + k, e)

/-- The wedge of an azimuth given by a vector (R5); the origin has azimuth 0 (R124). -/
def sector64 (x y : Int) : Nat × Bool := if x = 0 && y = 0 then (0, true) else sectorN 4 x y

/-- `0 ≤ A cos θ + B sin θ` for θ = 2πk/64. -/
def dirNonneg (a b : Int) (k : Nat) : Bool :=
  if a = 0 && b = 0 then true
  else
    let (m, e) := sector64 a b
    let d := (m + 128 - k % 64) % 64
    48 ≤ d || d ≤ 15 || (d = 16 && e)

/-- `C ≤ A cos θ + B sin θ` for θ = 2πk/64, decided exactly: squaring doubles the angle, and after four doublings θ is a
multiple of a quarter turn. -/
def dirGe : Nat → Int → Int → Int → Nat → Bool
  | 0, a, b, c, k =>
    decide (c ≤ (match k % 64 / 16 with | 0 => a | 1 => b | 2 => -a | _ => -b))
  | n + 1, a, b, c, k =>
    let nn := dirNonneg a b k
    let sq := fun (neg : Bool) =>
      -- neg = false: C² ≤ S²; neg = true: S² ≤ C²
      if neg then dirGe n (b * b - a * a) (-(2 * a * b)) (a * a + b * b - 2 * c * c) (2 * k)
      else dirGe n (a * a - b * b) (2 * a * b) (2 * c * c - (a * a + b * b)) (2 * k)
    if c ≤ 0 then nn || sq true else nn && sq false

/-- Whether a point lies within `d` of the half-line from the origin at azimuth 2πk/64 (R124). -/
def nearEdge (x y d : Int) (k : Nat) : Bool :=
  if dirNonneg x y k then dirGe 3 (x * x - y * y) (2 * x * y) (x * x + y * y - 2 * d * d) (2 * k)
  else decide (x * x + y * y ≤ d * d)

/-! ### Rows (R123 to R127) -/

/-- A row of a build: key field, grid, halo flag, unit, and at level 0 its slot. -/
structure Row where
  key : List Nat
  grid : Nat
  halo : Bool
  unit : Nat
  slot : Option VSlot := none
deriving DecidableEq, Repr

/-- A field in the configuration a wedge has latched (R12, R159). -/
def WJob.get (j : WJob) (f : Fld) : Nat := bitsOf (rd (regDefault f.addr) j.regs f.addr).toNat f.lo f.w

/-- The 63-bit integer IZ:IY:IX of a key (R125). -/
def keyNum (k : List Nat) : Nat := k.getD 0 0 + k.getD 1 0 * 2 ^ 21 + k.getD 2 0 * 2 ^ 42

/-- The vector from the vehicle's origin to a slot's centroid in the xy plane, scaled by `CNT · 2^30` in 1/128 mm, and
that scale (R124). -/
def centroidXy (p : Pose) (centre : List Int) (vlog : Nat) (v : VSlot) : Int × Int × Int :=
  let n : Int := v.cnt
  let d := (List.range 3).map (fun i =>
    let c := ent centre i
    let abs := c + wrap21 ((v.key.getD i 0 : Int) - c)
    (abs * 2 ^ vlog * n + (v.sum.getD i 0 : Int)) * 64 - ent p.pos i * n)
  let q := matVec (matT p.rot) d
  (ent q 0, ent q 1, n * 2 ^ 30)

/-- Own row, halo row or no row of wedge `w` (R124). -/
def rowClass (w halo : Nat) (x y sc : Int) : Option Bool :=
  if (sector64 x y).1 = w then some false
  else if nearEdge x y (halo * 1280 * sc) w || nearEdge x y (halo * 1280 * sc) ((w + 1) % 64) then some true
  else none

/-- Rows sorted by R125 within a unit: grid, bucket, key. -/
def rowLe (golden : Bool) (a b : Row) : Bool :=
  let bk (r : Row) := if golden then voxHash r.key % 1024 else voxBucket r.key
  decide (a.grid < b.grid) || (a.grid = b.grid && (decide (a.unit < b.unit) || (a.unit = b.unit &&
    (decide (bk a < bk b) || (bk a = bk b && decide (keyNum a.key ≤ keyNum b.key))))))

/-- At most `n` rows kept: halo rows go first, then own rows, each from the end (R125). -/
def cutRows (n : Nat) (l : List Row) : List Row :=
  let past := l.length - n
  let halos := (l.filter (fun r => r.halo)).length
  let keepHalo := halos - past
  let (l, _) := l.foldl (fun (p : List Row × Nat) r =>
    if r.halo then (if p.2 < keepHalo then (p.1 ++ [r], p.2 + 1) else p) else (p.1 ++ [r], p.2)) ([], 0)
  l.take n

/-- The level-0 rows of a wedge in order, before the cut (R124, R125). -/
def State.wedgeRows (s : State) (j : WJob) : List Row :=
  match j.pose with
  | none => []
  | some p =>
    let halo := if j.golden then goldHalo s.golden else j.get (VHU.HALO_CM 0)
    let rows := [0, 1].flatMap (fun u =>
      ((if j.golden then (s.vu u).gold else (s.vu u).slots).filterMap (fun e =>
        let v := e.2
        let (x, y, sc) := centroidXy p (j.centre.getD v.grid [0, 0, 0]) (j.get (VHU.GRID_CFG_VLOG 0 v.grid)) v
        (rowClass j.w halo x y sc).map (fun h => { key := v.key, grid := v.grid, halo := h, unit := u, slot := some v }))))
    rows.mergeSort (rowLe j.golden)

/-- Age of a slot's newest point at the close (R126, R132), in units of 16,384 ns. -/
def State.rowAge (s : State) (j : WJob) (v : VSlot) : Nat :=
  let units (d : Int) : Nat := (min 65535 (max 0 (d / 16384 - v.tnew))).toNat
  if j.golden then units j.sweepAt
  else match s.marks.find? (fun m => m.1 % 256 = v.sweep) with
    | some (_, at_) => units (j.tClose - at_)
    | none => 65535

/-- The 16-byte feature row (R126). -/
def State.featRow (s : State) (j : WJob) (r : Row) : Bytes :=
  match r.slot with
  | none => zeroBytes 16
  | some v =>
    let vl := j.get (VHU.GRID_CFG_VLOG 0 v.grid)
    let cen (i : Nat) : Nat := min 65535 ((v.sum.getD i 0 * 2 ^ 17 + v.cnt * 2 ^ vl) / (2 * v.cnt * 2 ^ vl))
    let pres := (List.range 4).foldl (fun m i => if bitOf v.pres ((j.sweep + 8 - i) % 4) then m + 2 ^ i else m) 0
    leBytes 2 (cen 0) ++ leBytes 2 (cen 1) ++ leBytes 2 (cen 2) ++ leBytes 2 v.cnt ++ leBytes 1 v.imax ++ leBytes 1 pres ++
      leBytes 2 (s.rowAge j v) ++ leBytes 4 (v.fptr % 2 ^ 20 + v.grid * 2 ^ 20 + b2n v.sat * 2 ^ 22 + b2n r.halo * 2 ^ 23)

/-- The 8-byte coordinate row (R126). -/
def coordRow (r : Row) : Bytes := leBytes 8 (keyNum r.key + b2n r.halo * 2 ^ 63)

/-- A coarse key (R127). -/
def coarse (k : List Nat) : List Nat := k.map (fun x => x / 2)

/-- The coarse rows of one level from the rows of the level before (R127); `used` are the level-table entries of both
units; answers the rows, the entries and the keys dropped, each once, with grid and unit. -/
def coarseRows (rows : List Row) (used : List Nat) : List Row × List Nat × List (Nat × Nat × List Nat) :=
  rows.foldl (fun (p : List Row × List Nat × List (Nat × Nat × List Nat)) r =>
    let (out, used, drop) := p
    let k := coarse r.key
    if out.any (fun c => c.grid = r.grid && c.key = k) then
      (out.map (fun c => if c.grid = r.grid && c.key = k then { c with halo := c.halo && r.halo } else c), used, drop)
    else
      let u := voxOwner k
      if used.getD u 0 < 32768 then
        (out ++ [{ key := k, grid := r.grid, halo := r.halo, unit := u }], used.modify u (fun n => n + 1), drop)
      else (out, used, if drop.contains (u, r.grid, k) then drop else drop ++ [(u, r.grid, k)])) ([], used, [])

/-- One RBQ entry (R130). -/
structure Rbq where
  kind : Nat
  grid : Nat
  lin : Nat
  lout : Nat
  hdl : Nat
deriving DecidableEq, Repr

/-- The rulebooks a wedge needs (R130). -/
def WJob.rbqs (j : WJob) : List Rbq :=
  ((List.range 16).map (fun i => Rbq.mk (j.get (VHU.RBQ_KIND_KIND 0 i)) (j.get (VHU.RBQ_KIND_GRID 0 i))
    (j.get (VHU.RBQ_KIND_LVL_IN 0 i)) (j.get (VHU.RBQ_KIND_LVL_OUT 0 i)) (j.get (VHU.RBQ_DST_HDL 0 i)))).filter
    (fun r => r.kind ≠ 0)

/-- L(n) (R127). -/
def topLevel (l : List Rbq) (n : Nat) : Nat :=
  (l.filter (fun r => r.grid = n)).foldl (fun m r => max m (max r.lin r.lout)) 0

/-- The rows of levels 0 to 3 and the coarse keys dropped per unit (R127). -/
def levelRows (q : List Rbq) (rows : List Row) : List (List Row) × List Nat :=
  let step (p : List (List Row) × List Nat × List Nat) (l : Nat) :=
    let (ls, used, drop) := p
    let src := (ls.getLast?.getD []).filter (fun r => l ≤ topLevel q r.grid)
    let (out, used, d) := coarseRows src used
    (ls ++ [out], used, List.zipWith (· + ·) drop ([0, 1].map (fun u => (d.filter (fun e => e.1 = u)).length)))
  let (ls, _, drop) := [1, 2, 3].foldl step ([rows], [0, 0], [0, 0])
  (ls, drop)

/-! ### Rulebooks (R128, R129) -/

/-- Offsets of KIND 1 and 2: displacement from the output row to the input row (R128). -/
def kernelOffsets (kind : Nat) : List (List Int) :=
  if kind = 1 then (List.range 27).map (fun k => [(k % 3 : Nat) - 1, (k / 3 % 3 : Nat) - 1, (k / 9 : Nat) - 1])
  else [[0, 0, 0], [-1, 0, 0], [1, 0, 0], [0, -1, 0], [0, 1, 0], [0, 0, -1], [0, 0, 1]]

/-- The row of a key in a level's table (R127). -/
def rowOf (rows : List Row) (grid : Nat) (key : List Nat) : Option Nat :=
  (rows.zipIdx.find? (fun e => e.1.grid = grid && e.1.key = key)).map Prod.snd

/-- A key displaced in its field, which holds 21 bits less one per level. -/
def shiftKey (level : Nat) (key : List Nat) (d : List Int) : List Nat :=
  (List.range 3).map (fun i => lowBits (21 - level) ((key.getD i 0 : Int) + ent d i))

/-- Low bits of a key as an offset index (R128). -/
def keyParity (k : List Nat) : Nat := k.getD 0 0 % 2 + 2 * (k.getD 1 0 % 2) + 4 * (k.getD 2 0 % 2)

/-- Rows of one grid with their numbers. -/
def gridRows (rows : List Row) (n : Nat) : List (Row × Nat) := rows.zipIdx.filter (fun e => e.1.grid = n)

/-- The lists of (input row, output row) of a rulebook, by offset (R128). -/
def ruleLists (lv : List (List Row)) (r : Rbq) : List (List (Nat × Nat)) :=
  let ins_ := lv.getD r.lin []
  let outs := lv.getD r.lout []
  if r.kind = 1 || r.kind = 2 then
    (kernelOffsets r.kind).map (fun d => (gridRows outs r.grid).filterMap (fun e =>
      (rowOf ins_ r.grid (shiftKey r.lin e.1.key d)).map (fun i => (i, e.2))))
  else
    let pairs : List (Nat × Nat × Nat) :=
      if r.kind = 3 then (gridRows ins_ r.grid).filterMap (fun e =>
        (rowOf outs r.grid (coarse e.1.key)).map (fun o => (keyParity e.1.key, e.2, o)))
      else (gridRows outs r.grid).filterMap (fun e =>
        (rowOf ins_ r.grid (coarse e.1.key)).map (fun i => (keyParity e.1.key, i, e.2)))
    (List.range 8).map (fun k => ((pairs.filter (fun e => e.1 = k)).map Prod.snd).mergeSort (fun a b =>
      decide (a.2 < b.2) || (a.2 = b.2 && decide (a.1 ≤ b.1))))

/-- First row of a grid in a level's table. -/
def row0 (rows : List Row) (n : Nat) : Nat := (rows.filter (fun r => decide (r.grid < n))).length

/-- The header of a rulebook (R129). -/
def ruleHeader (w : Nat) (lv : List (List Row)) (r : Rbq) (counts : List Nat) (trunc : Bool) : Bytes :=
  let ins_ := lv.getD r.lin []
  let outs := lv.getD r.lout []
  let total := counts.foldl (fun n c => n + padTo 64 c) 0
  leBytes 1 r.kind ++ leBytes 1 counts.length ++ leBytes 1 r.grid ++ leBytes 1 r.lin ++ leBytes 1 r.lout ++ leBytes 1 (b2n trunc) ++
    leBytes 2 w ++ leBytes 2 (gridRows ins_ r.grid).length ++ leBytes 2 (gridRows outs r.grid).length ++
    leBytes 2 (row0 ins_ r.grid) ++ leBytes 2 (row0 outs r.grid) ++ leBytes 4 total ++
    (List.range 27).flatMap (fun k => leBytes 2 (counts.getD k 0)) ++ zeroBytes 54

/-- The lists of a rulebook as bytes, each padded to whole blocks of 64 (R129). -/
def ruleBody (ls : List (List (Nat × Nat))) : Bytes :=
  ls.flatMap (fun l => l.flatMap (fun e => leBytes 2 e.1 ++ leBytes 2 e.2) ++
    List.replicate (4 * (padTo 64 l.length - l.length)) 0xFF#8)

/-! ### Writing the tables (R130) -/

/-- A table that a build writes: its handle, the size of an entry, the header of the cut and of the whole table, the entries. -/
structure Table where
  hdl : Nat
  unit_ : Nat
  head : Bool → Bytes := fun _ => []
  body : Bytes

/-- A table's bytes in a handle of `len` bytes, cut at the last whole entry, and whether it was cut (R130). -/
def Table.bytes (t : Table) (len : Nat) : Bytes × Bool :=
  let room := (len - (t.head false).length) / t.unit_ * t.unit_
  let cut := decide (room < t.body.length)
  (((t.head cut) ++ t.body.take room).take len, cut)

/-- A table written on one tile of the first stage through its handle, a TDM-R arrival (R202, R203, R208); answers whether it was
cut. -/
def State.writeTable (s : State) (g part : Nat) (t : Table) : State × Bool :=
  match s.operand g t.hdl 0 part with
  | .error x => (s.arrivalStop g part x, false)
  | .ok o =>
    match (if o.checked true then s.parity g else none) with
    | some s => (s, false)
    | none => let (b, cut) := t.bytes o.len; ((s.wordWrite g o 0 b).writeTags g o (padTo 8 b.length) true, cut)

/-- The line that keeps a table from being written on a tile: it is tagged and full (R202). -/
def State.tableWait (s : State) (g part : Nat) (t : Table) : Option TWait :=
  match s.operand g t.hdl 0 part with
  | .error _ => none
  | .ok o => (s.blockedLine g o (t.bytes o.len).1.length true false).map (fun l =>
      { kind := 8, line := l, port := 2, at_ := s.mono, sync := false, tile := g })

/-- The tiles of a stage. -/
def State.stageTiles (s : State) (n : Nat) : List Nat :=
  (List.range 80).filter (fun g => s.get (TILE.ROLE_ROLE g) = 1 && s.get (TILE.ROLE_STAGE g) = n)

/-- A table written on every tile of the first stage; a unit that had to cut it reports it once (R130). -/
def State.writeStage0 (s : State) (part : Nat) (t : Table) : State × Bool :=
  let (s, cuts) := (s.stageTiles 0).foldl (fun (p : State × List Nat) g =>
    let (s, c) := p
    let (s, cut) := s.writeTable g part t
    (s, if cut then g / 40 :: c else c)) (s, [])
  let s := [0, 1].foldl (fun s u => if cuts.contains u then (s.set1 (VHU.EVT_RB_OVF u)).bump (VHU.RB_OVF_CNT u) else s) s
  (s, !cuts.isEmpty)

/-- The partition a wedge presents (R155). -/
def WJob.part (j : WJob) : Nat := if j.golden then 3 else 1

/-- The rows of a build, cut at MAX_ROWS, and whether they were cut (R125, R126). -/
def State.buildRows (s : State) (j : WJob) : List Row × Bool :=
  let all := s.wedgeRows j
  let lim := min 65535 (j.get (VHU.MAX_ROWS_ROWS 0))
  if lim < all.length then (cutRows lim all, true) else (all, false)

/-- The tables of a build in the order of their production (R130): feature rows, coordinate rows of the levels, rulebooks. -/
def State.tables (s : State) (j : WJob) (rows : List Row) (lv : List (List Row)) : List Table :=
  let par := j.admNo % 2
  [{ hdl := j.get (VHU.ROWDST_FEAT 0) + par, unit_ := 16, body := rows.flatMap (s.featRow j) }] ++
    [VHU.ROWDST_COORD0 0, VHU.ROWDST_COORD1 0, VHU.ROWDST_COORD2 0, VHU.ROWDST_COORD3 0].zipIdx.filterMap (fun e =>
      let l := lv.getD e.2 []
      if e.2 ≠ 0 && l.isEmpty then none else some { hdl := j.get e.1 + par, unit_ := 8, body := l.flatMap coordRow }) ++
    j.rbqs.map (fun r =>
      let ls := ruleLists lv r
      { hdl := r.hdl + par, unit_ := 4, head := ruleHeader j.w lv r (ls.map List.length), body := ruleBody ls })

/-- The whole build of an admitted wedge (R123 to R130); answers the wedge with N_ROWS and its overflow. `es` are the errors that the
slot reads of unit A and of unit B meet (R134). -/
def State.build (s : State) (j : WJob) (es : List EccRes × List EccRes) : State × WJob :=
  let s := (s.vhuReads 0 es.1).vhuReads 1 es.2
  let (rows, past) := s.buildRows j
  let s := if past then [0, 1].foldl (fun s u => (s.set1 (VHU.EVT_ROW_OVF u)).bump (VHU.ROW_OVF_CNT u)) s else s
  let (lv, drop) := levelRows j.rbqs rows
  let s := [0, 1].foldl (fun s u => if drop.getD u 0 = 0 then s
    else (s.set1 (VHU.EVT_LEVEL_OVF u)).addCnt (VHU.LEVEL_OVF_CNT u) (drop.getD u 0)) s
  let (s, cut) := (s.tables j rows lv).foldl (fun (p : State × Bool) t =>
    let (s, c) := p.1.writeStage0 j.part t
    (s, p.2 || c)) (s, false)
  (s, { j with nRows := rows.length, ovf := past || drop.any (fun n => n ≠ 0) || cut })

/-- The first wait of a build's tables, on any tile of the first stage (R202, R203). -/
def State.buildWait (s : State) (j : WJob) : Option TWait :=
  let rows := (s.buildRows j).1
  (s.tables j rows (levelRows j.rbqs rows).1).findSome? (fun t => (s.stageTiles 0).findSome? (fun g => s.tableWait g j.part t))

/-- The first stage can take a wedge of admission number `a`: its buffers of that parity are free (R31, R158). -/
def State.stage0Free (s : State) (a : Nat) : Bool := a < 2 || s.stageDone 0 (a - 2)

/-- WEDGE_BUILD_START (R31, R123 to R130, R157, R159): the wedge at the head of the backlog is admitted and built, once the tagged lines
that its tables take are empty; that wait is timed at their tile (R202, R205, assumption 107). The golden wedge takes the values in
effect at its admission. -/
def execWedgeBuildStart (t : Nat) (s : State) (ea : List EccRes := []) (eb : List EccRes := []) : Out :=
  run t (fun s =>
    match s.pipe.backlog with
    | [] => s
    | j :: rest =>
      s.when ((s.dev = dsNoon || s.dev = dsDusk) && !s.pipe.building && s.stage0Free s.pipe.nextAdmit) (fun s =>
        let j := { j with admNo := s.pipe.nextAdmit }
        let j := if j.golden then { j with regs := s.regs, off := s.map.off, centre := goldCentres s.golden,
                                            pose := some (goldPose s.golden 1) } else j
        match s.buildWait j with
        | some w => s.hold w.tile w
        | none =>
        let s := (s.stageTiles 0).foldl (fun s g => s.holdOver g 8 g) s
        let (s, j) := s.build j (ea, eb)
        let s := [0, 1].foldl (fun s u => s.set1 (VHU.STAT_BUILD u)) s
        { s with pipe := { s.pipe with backlog := rest, flight := s.pipe.flight ++ [j], nextAdmit := s.pipe.nextAdmit + 1,
                                       building := true, buildAt := s.mono } })) s

/-- WEDGE_BUILD_DONE (R130): BUILD_CYC in cycles of the unit's 1 GHz clock. -/
def execWedgeBuildDone (t : Nat) (s : State) : Out :=
  run t (fun s => s.when s.pipe.building (fun s =>
    let n := (s.mono - s.pipe.buildAt) / tickNs
    let s := [0, 1].foldl (fun s u => (s.put (VHU.STAT_BUILD u) 0).put (VHU.BUILD_CYC_CYC u) (satU 24 n)) s
    { s with pipe := { s.pipe with building := false, flight := s.pipe.flight.map (fun j => { j with built := true }) } })) s

/-- GOLDEN_WEDGE_CLOSE (R364 step 4): it joins the backlog; it is no wedge boundary (assumption 20). -/
def execGoldenWedgeClose (t : Nat) (s : State) : Out :=
  run t (fun s =>
    match s.age.goldT0 with
    | none => s
    | some sw =>
      s.when (s.dev = dsNoon || s.dev = dsDusk) (fun s =>
        let g := s.golden
        let j : WJob := { w := goldWedge g, seq := 0, golden := true, at_ := s.mono, tClose := s.snsNs, tOpen := s.snsNs,
                          sweep := sw, sweepAt := goldLast g, rev := s.rev.count }
        let s : State := { s with age := { s.age with goldT0 := none } }
        s.joinBacklog j)) s

/-! ### Ageing and recentring passes -/

/-- AGEING_PASS_START (R121, R374). -/
def execAgeingPassStart (t : Nat) (u : Fin 2) (s : State) (es : List EccRes := []) : Out :=
  run t (fun s => s.when (s.msCanStart 1 u) (fun s => (s.msStart 1 u).agePass u es)) s

/-- AGEING_PASS_DONE (R121, R374): a recentring that waited for it starts. -/
def execAgeingPassDone (t : Nat) (u : Fin 2) (s : State) : Out := run t (fun s => (s.msEnd 1 u).recentreStart) s

/-- RECENTRING_PASS_START (R122 steps 2, 3). -/
def execRecentringPassStart (t : Nat) (u : Fin 2) (s : State) (es : List EccRes := []) : Out :=
  run t (fun s =>
    let v := s.vu u
    let waits := s.pipe.backlog.any (fun j => !j.golden && decide (j.at_ < v.recAt))
    s.when (s.msRuns 2 u && v.recGo && !v.recGrids.isEmpty && !waits) (fun s => s.recentrePass u es)) s

/-- RECENTRING_PASS_DONE (R122 step 3). -/
def execRecentringPassDone (t : Nat) (u : Fin 2) (s : State) : Out :=
  run t (fun s => s.when (s.msRuns 2 u && (s.vu u).recGo && (s.vu u).recGrids.isEmpty) (fun s => s.recentreEnd u)) s

end Sys2Proof.Machine
end

