-- ==== Sys2Proof/Machine/MapRead.lean ====
section
/-! DEFINITION. Map lookups and row deltas: corners, rows, pooling, the gather path, the Map Update Buffer, DRAM errors in
map reads (R254 to R264, R270 to R274, R278 to R280, R378). -/

namespace Sys2Proof.Machine

/-! ### Errors (R279, R280) -/

/-- The slot of a level turned off (R279). -/
def State.levelOff (s : State) (l v : Nat) : State :=
  (if s.map.off.contains (l, v) then s else s.mp (fun m => { m with off := m.off ++ [(l, v)] })).set1 (MAP.EVT_LEVEL_OFF 0)

/-- An uncorrectable DRAM error in a map row (R279): listed as bad, or its slot turned off; C2. -/
def State.mapUe (s : State) (u : Nat) (k : RowKey) (inj : Bool) : State :=
  let free := (List.range 16).find? (fun i => !s.on (TGE.BADROW_KEY_VALID u i))
  let s := match free with
    | none => s.levelOff k.level k.slot
    | some i =>
      if k.row = 0 then s.levelOff k.level k.slot
      else if s.badRow u k then s
      else
        let s := (s.put (TGE.BADROW_ROW_ROW u i) k.row).put (TGE.BADROW_KEY_LEVEL u i) k.level
        ((s.put (TGE.BADROW_KEY_SLOT u i) k.slot).put (TGE.BADROW_KEY_TABLE u i) k.table).set1 (TGE.BADROW_KEY_VALID u i)
          |>.set1 (MAP.EVT_BAD_ROW 0)
  s.raise (TGE.EVT_MAP_UE u) 2 0 inj

/-- A byte of the map region, after the remap, read from DRAM with what the read meets (R279, R378): whether its data came; `ue` handles an
uncorrectable error. -/
def State.mapByteRead (s : State) (u a : Nat) (ecc : EccRes) (ue : State → Bool → State) : Bool × State :=
  let (e, inj, s) := s.dramInject u ecc
  match e with
  | .clean => (true, s)
  | .corrected => (true, s.dramCe u (s.mapDieAddr u a) false inj)
  | .uncorrectable => (false, ue (s.dramUeInfo u (s.mapDieAddr u a) false) inj)

/-- The place of a row in its map region, after the remap (R253, R266). -/
def State.rowAddr (s : State) (u : Nat) (k : RowKey) : Nat := s.mapAddr u (s.rowByte k) % 2 ^ 30

/-- A stored row read from DRAM with what the read meets (R279). -/
def State.rowRead (s : State) (u : Nat) (k : RowKey) (ecc : EccRes) : Bool × State :=
  s.mapByteRead u (s.rowAddr u k) ecc (fun s inj => s.mapUe u k inj)

/-- Bytes of a stored row (R252). -/
def State.rowLen (s : State) (k : RowKey) : Nat := 2 * partB (s.lvlFp16 k.level) (partFeat s.get k.level)

/-- An access of the maintenance engine to a row (R35, R267, R338): none where P2 is not admitted, with the violation reported. -/
def State.rowAccess (s : State) (u : Nat) (k : RowKey) (part : Nat) (write : Bool) : Bool × State :=
  match s.mapAccess u (s.rowAddr u k) (s.rowLen k) part write with
  | some s => (true, s)
  | none => (false, s.dramViol u (s.mapDieAddr u (s.rowAddr u k)) part write)

/-! ### Corners and rows (R254 to R257, R278) -/

/-- MAP.ORIGIN as the wedge latched it; 0 for the golden wedge. -/
def WJob.origin (j : WJob) (i : Nat) : Int :=
  if j.golden then 0 else signedOf 48 (j.get (MAP.ORIGIN_LO_LO 0 i) + j.get (MAP.ORIGIN_HI_HI 0 i) * 2 ^ 32)

/-- The eight corner cells and weights of a coordinate row (R255). -/
def WJob.corners (j : WJob) (q grid l : Nat) : List (List Int × Num) :=
  let vl := j.get (VHU.GRID_CFG_VLOG 0 grid)
  let ml := j.get (MAP.LVL_CFG_MLOG 0 l)
  let ax (i : Nat) : Int × Int :=
    let key := bitsOf q (21 * i) 21
    let a := ent (j.centre.getD grid [0, 0, 0]) i
    let p := (a + wrap21 ((key : Int) - a)) * 2 ^ vl + 2 ^ (vl - 1)
    let m := p - j.origin i
    let c := sra m ml
    let f := m - c * 2 ^ ml
    let w := if ml ≤ 12 then f * 2 ^ (12 - ml) else sra (f + 2 ^ (ml - 13)) (ml - 12)
    if w = 4096 then (c + 1, 0) else (c, w)
  let xs := [ax 0, ax 1, ax 2]
  (List.range 8).map (fun k =>
    let b (i : Nat) : Int := ((k / 2 ^ i % 2 : Nat) : Int)
    let cell := xs.zipIdx.map (fun e => e.1.1 + b e.2)
    let w := xs.zipIdx.foldl (fun p e => p * (if b e.2 = 1 then e.1.2 else 4096 - e.1.2)) 1
    (cell, rnd32 (.fin false w.toNat (-36))))

/-- The hashes of R256. -/
def mapHash (m : List Nat) (cell : List Int) (l : Nat) : Nat :=
  let x (i : Nat) := lowBits 32 (ent cell i) * m.getD i 0 % 2 ^ 32
  Nat.xor (Nat.xor (Nat.xor (x 0) (x 1)) (x 2)) (l * m.getD 3 0 % 2 ^ 32)
def hashA : List Nat := [0x9E3779B1, 0x85EBCA77, 0xC2B2AE3D, 0x27D4EB2F]
def hashB : List Nat := [0x165667B1, 0xD3A2646D, 0xFD7046C5, 0x1B873593]
def rowIdx (h n : Nat) : Nat := 1 + h * (n - 1) / 2 ^ 32

/-- Rows of one table as a wedge reads it: 256 in all for the golden map (R278). -/
def WJob.rows (j : WJob) (l : Nat) : Nat :=
  if j.golden then (if j.get (MAP.LVL_CFG_COMPOSE 0 l) = 1 then 128 else 256) else tableRows j.get l

/-- A corner is valid (R256): its components are taken as i32. -/
def WJob.valid (j : WJob) (l : Nat) (cell : List Int) : Bool :=
  let e : Int := j.get (MAP.LVL_EXT_CELLS 0 l)
  cell.all (fun x => decide (-e ≤ signedOf 32 (lowBits 32 x)) && decide (signedOf 32 (lowBits 32 x) < e))

/-- The slot of a level that the wedge sampled (R270). -/
def WJob.slotOf (j : WJob) (l : Nat) : Nat := bitsOf (j.get (MAP.STAT_ACTIVE 0)) l 1

/-- The rows of a valid corner, or the default rows (R256, R257). -/
def WJob.cornerRows (j : WJob) (l : Nat) (cell : List Int) (dflt : Bool) : List RowKey :=
  let v := j.slotOf l
  let n := j.rows l
  let row (h : List Nat) := if dflt then 0 else rowIdx (mapHash h cell l) n
  { level := l, slot := v, table := 0, row := row hashA } ::
    (if j.get (MAP.LVL_CFG_COMPOSE 0 l) = 1 then [{ level := l, slot := v, table := 1, row := row hashB }] else [])

/-- A level reads as empty for a wedge (R257, R279): never committed, or its slot turned off. -/
def State.levelEmpty (s : State) (j : WJob) (l : Nat) : Bool :=
  !j.golden && (bitOf (j.get (MAP.STAT_EMPTY 0)) l || s.map.off.contains (l, j.slotOf l) || j.off.contains (l, j.slotOf l))

/-- Byte of a part in the golden map (R278, assumption 19). -/
def WJob.goldPart (j : WJob) (g : Bytes) (d : Nat) (k : RowKey) : Bytes :=
  let pb (l : Nat) := partB (j.get (MAP.LVL_CFG_FMT 0 l) = 1) (partFeat j.get l)
  let size (l : Nat) := if j.get (MAP.LVL_CFG_EN 0 l) = 0 then 0 else 1024 * pb l * (if j.get (MAP.LVL_CFG_COMPOSE 0 l) = 1 then 2 else 1)
  let base := (List.range k.level).foldl (fun n l => n + size l) 0
  sliceB g (goldMapAt g + base + ((k.table * 256 + k.row) * 4 + d) * pb k.level) (pb k.level)

/-! ### The gather path (R259, R260, R263, R264) -/

/-- The sampled rows after a sample (R264), the more frequent first, equal ones in the order in which they came to their count. -/
def hotSample (h : List (RowKey × Nat)) (k : RowKey) : List (RowKey × Nat) :=
  let n := ((h.find? (fun e => e.1 = k)).map Prod.snd).getD 0 + 1
  let rest := h.filter (fun e => e.1 ≠ k)
  rest.takeWhile (fun e => decide (n ≤ e.2)) ++ (k, n) :: rest.dropWhile (fun e => decide (n ≤ e.2))

/-- A DRAM row read issued on behalf of partition `part` (R260, R264, R265); whether its data comes: the map region may not admit it
(R339). -/
def State.issueRead (s : State) (u part : Nat) (k : RowKey) : Bool × State :=
  let sh := bitsOf (s.rowAddr u k) 12 5
  match s.rowAccess u k part false with
  | (false, s) => (false, s)
  | (true, s) =>
  let s := s.setTge u (fun x => { x with reads := x.reads + 1, shard := x.shard.modify sh (fun n => n + 1),
                                         hot := if (x.reads + 1) % 64 = 0 then hotSample x.hot k else x.hot,
                                         outst := x.outst ++ [(k, 1)] })
  (true, (s.bump (TGE.DRAM_READ_CNT u)).put (TGE.STAT_OUTST u) (s.tge u).outst.length)

/-- A corner read that neither the golden map nor a shadow serves: coalescer, cache, DRAM (R259, R260, R263, R280); whether its data
comes. -/
def State.gather (s : State) (u part : Nat) (k : RowKey) : Bool × State :=
  let o := (s.tge u).outst
  let n := o.length
  match o.zipIdx.find? (fun e => decide (n ≤ e.2 + 64) && e.1.1 = k && decide (e.1.2 < 64)) with
  | some (_, i) =>
    (true, (s.setTge u (fun x => { x with outst := x.outst.modify i (fun e => (e.1, e.2 + 1)) })).bump (TGE.COALESCE_CNT u))
  | none =>
    if (s.tge u).pins.contains k then
      let c := (s.tge u).inj
      let inj := decide (c < 3)
      if c = 0 then (true, s.bump (TGE.CACHE_HIT_CNT u))
      else if c = 1 || c = 3 then
        let s := (s.setTge u (fun x => { x with inj := 0 })).bump (TGE.CACHE_HIT_CNT u)
        (true, (s.bump (TGE.ECC_CE_CNT u)).raise (TGE.EVT_CACHE_CE u) 1 0 inj)
      else
        let s := s.setTge u (fun x => { x with inj := 0, pins := x.pins.filter (fun p => p ≠ k) })
        let s := s.put (TGE.CACHE_OCC_ENTRIES u) (s.tge u).pins.length
        (s.raise (TGE.EVT_CACHE_UE u) 1 0 inj).issueRead u part k
    else s.issueRead u part k

/-- The previous stored value that a wedge reads from a shadow (R274): from the oldest of those whose apply came after its close. -/
def State.shadowPart (s : State) (j : WJob) (d : Nat) (k : RowKey) : Option Bytes :=
  (s.map.banks.reverse.filter (fun b => b.phase ≠ 0 && decide (j.seq < b.before))).findSome? (fun b =>
    (b.entries.find? (fun e => e.die = d && e.key = k)).map (fun e => e.old))

/-- One corner read of die `d` (R259): the values of the part; none where no data comes (R339). -/
def State.readPart (s : State) (j : WJob) (d : Nat) (k : RowKey) : Option (List Num) × State :=
  let fp16 := s.lvlFp16 k.level
  let n := partFeat s.get k.level
  if j.golden then (some (decPart fp16 n (j.goldPart s.golden d k)), s)
  else match s.shadowPart j d k with
  | some b => (some (decPart fp16 n b), s)
  | none => let (ok, t) := s.gather (d / 2) j.part k; (if ok then some (decPart fp16 n (s.partBytes d k)) else none, t)

/-- A value per feature of a corner: the row, or the rounded sum of the two rows of a composed level (R256). -/
def State.readCorner (s : State) (j : WJob) (d : Nat) : List RowKey → Option (List Num) × State
  | [] => (some [], s)
  | k :: ks =>
    match s.readPart j d k with
    | (none, s) => (none, s)
    | (some v, s) =>
      let (w, s) := s.readCorner j d ks
      (w.map (fun w => if w.isEmpty then v else List.zipWith fadd v w), s)

/-- One lookup pooled (R257, R258, R279): the map mark for a listed row; none where a row's data does not come. -/
def State.lookup (s : State) (j : WJob) (d q grid l : Nat) : Option (List Num) × State :=
  let u := d / 2
  let n := partFeat s.get l
  let zero := List.replicate n Num.zero
  let s := s.bump (TGE.LOOKUP_CNT u)
  if s.levelEmpty j l then (some zero, s.bump (TGE.EMPTY_CNT u))
  else
    let native := j.get (MAP.CTRL_IDX_MODE 0) = 0
    (j.corners q grid l).foldl (fun (p : Option (List Num) × State) e =>
      let (acc, s) := p
      if acc.isNone then p else
      let ks := j.cornerRows l e.1 false
      let inside := j.valid l e.1
      let bad := inside && !j.golden && ks.any (s.badRow u)
      let s := if bad then ((s.bump (TGE.BADROW_HIT_CNT u)).set1 (TGE.EVT_BADROW_HIT u)).setWd j.w (fun x => { x with map := true }) else s
      let add (s : State) (ks : List RowKey) : Option (List Num) × State :=
        let (v, s) := s.readCorner j d ks
        (v.map (List.zipWith (fun a x => fadd a (fmul e.2 x)) (acc.getD [])), s)
      if inside && !bad then add s ks
      else if native then add (s.bump (TGE.INVALID_CNT u)) (j.cornerRows l e.1 true)
      else (acc, (s.bump (TGE.IDX_DROP_CNT u)).set1 (TGE.EVT_IDX_DROP u))) (some zero, s)

/-! ### The Map Update Buffer (R271, R272, R274) -/

/-- The bank that collects a revolution's deltas; none where both banks are taken (R273, R274). -/
def State.bankFor (s : State) (rev : Nat) : Option State :=
  if s.map.banks.any (fun b => b.phase = 0 && b.rev = rev) then some s
  else if s.map.banks.length < 2 then some (s.mp (fun m => { m with banks := m.banks ++ [{ rev := rev, phase := 0 }] }))
  else none

/-- Deltas of one part of a row added to its entry, which the first one allocates (R272). -/
def State.addDelta (s : State) (j : WJob) (d : Nat) (k : RowKey) (v : List Num) : State :=
  match s.map.banks.find? (fun b => b.phase = 0 && b.rev = j.rev) with
  | none => s
  | some b =>
    let code (x : Num) : BitVec 32 := BitVec.ofNat 32 (fFP32.enc false x)
    if b.entries.any (fun e => e.die = d && e.key = k) then
      s.mp (fun m => { m with banks := m.banks.map (fun b => if b.phase = 0 && b.rev = j.rev then
        { b with entries := b.entries.map (fun e => if e.die = d && e.key = k then
            { e with sums := List.zipWith (fun o x => code (fadd (fFP32.dec o.toNat) x)) e.sums v } else e) } else b) })
    else if b.part d < 8192 then
      s.mp (fun m => { m with banks := m.banks.map (fun b => if b.phase = 0 && b.rev = j.rev then
        { b with entries := b.entries ++ [{ die := d, key := k, sums := v.map (fun x => code (fadd Num.zero x)) }] } else b) })
    else ((s.addCnt (TGE.MUB_DROP_CNT (d / 2)) v.length).set1 (MAP.EVT_MUB_FULL 0)).setWd j.w (fun x => { x with map := true })

/-- The deltas of one coordinate row at one level (R271). -/
def State.updateLevel (s : State) (j : WJob) (d q grid l : Nat) (delta : List Num) : State :=
  let u := d / 2
  if s.levelEmpty j l then s.addCnt (TGE.UPD_INV_CNT u) (8 * delta.length)
  else
    (j.corners q grid l).foldl (fun s e =>
      if !j.valid l e.1 then s.addCnt (TGE.UPD_INV_CNT u) delta.length
      else
        let ks := j.cornerRows l e.1 false
        let v := delta.map (fun x =>
          let p := fmul e.2 x
          if ks.length = 2 then fmul (.fin false 1 (-1)) p else p)
        ks.foldl (fun s k => s.addDelta j d k v) s) s

end Sys2Proof.Machine
end

