-- ==== Sys2Proof/Machine/MapCmds.lean ====
section
/-! DEFINITION. The commands of the map store: DRAM reads, the end of an apply, shadow and busy slots, migration, cache
refresh (R259 to R269, R273, R274, R277, R279). -/

namespace Sys2Proof.Machine

/-- MAP_DRAM_READ_DONE (R259, R279, R378): the oldest outstanding row read of a unit. -/
def execMapDramReadDone (t : Nat) (u : Fin 2) (ecc : EccRes) (s : State) : Out :=
  run t (fun s =>
    match (s.tge u).outst with
    | [] => s
    | (k, _) :: rest =>
      let s := s.setTge u (fun x => { x with outst := rest })
      ((s.put (TGE.STAT_OUTST u) rest.length).rowRead u k ecc).2) s

/-- This device owns the map (R277). -/
def State.mapOwner (s : State) : Bool := s.get SYS.STATE_PAIR_ROLE = s.get (MAP.PAIR_OWNER_SEL 0)

/-- The CRC records of an apply (R277): the touched blocks and SCAN_BLOCKS further ones, the next of the rotating order;
none for a block that the map region does not let P2 read. -/
def State.crcRecords (s : State) : State × List MapRec :=
  let all := s.allBlocks
  let order := (List.range all.length).map (fun i => (s.map.scan + i) % all.length)
  let more := (order.filter (fun i => !s.map.touched.contains (all.getD i (0, 0, 0)))).take (s.get (MAP.PAIR_SCAN_BLOCKS 0))
  let blocks := s.map.touched ++ more.map (fun i => all.getD i (0, 0, 0))
  let (recs, s) := [(0 : Fin 2), 1].foldl (fun (p : List MapRec × State) (u : Fin 2) => blocks.foldl (fun (p : List MapRec × State) b =>
    match p.2.rowAccess u { level := b.1, slot := p.2.activeSlot b.1, table := b.2.1, row := b.2.2 * 4096 } 2 false with
    | (false, s) => (p.1, s)
    | (true, s) =>
      (p.1 ++ [({ unit := u, epoch := s.get (MAP.EPOCH_EPOCH 0), level := b.1, table := b.2.1, block := b.2.2,
                  serial := s.get (MAP.LVL_SERIAL_SERIAL 0 b.1), crc := s.blockCrc u b, owner := s.mapOwner } : MapRec)], s)) p)
    (([] : List MapRec), s)
  (s.mp (fun m => { m with scan := match more.getLast? with | none => m.scan | some i => (i + 1) % all.length }), recs)

/-- A MAPCK record as sent, in the order in which R277 names its fields; the unit that formed it and its sender's ownership stand last
(DESIGN CHOICE, assumption 114). -/
def MapRec.bytes (r : MapRec) : Bytes :=
  leBytes 4 r.epoch ++ leBytes 1 r.level ++ leBytes 1 r.table ++ leBytes 2 r.block ++ leBytes 4 r.serial ++ leBytes 8 r.crc ++
    leBytes 1 r.unit.val ++ leBytes 1 (b2n r.owner)

/-- An error in a Map Update Buffer or a remap table (R280). -/
def State.tgeErr (s : State) (u : Nat) (e : TgeErr) : State :=
  match e with
  | .mubCe => (s.bump (TGE.ECC_CE_CNT u)).raise (TGE.EVT_MUB_CE u) 1
  | .mubUe => s.raise (TGE.EVT_MUB_UE u) 2
  | .remapCe => (s.bump (TGE.ECC_CE_CNT u)).raise (TGE.EVT_REMAP_CE u) 1
  | .remapUe => s.plain (0x028 + u) 3
  | _ => s

/-- A shadow that no wedge reads any more (R274). -/
def State.shadowFree (s : State) (b : MubBank) : Bool :=
  b.phase = 2 && !(s.before (s.get (MAP.STAGES_LOOK_LAST 0))).any (fun j => decide (j.seq < b.before))

/-- SHADOW_BANK_CLEAR (R274). -/
def execShadowBankClear (t : Nat) (s : State) : Out :=
  run t (fun s => s.when (s.map.banks.any s.shadowFree) (fun s =>
    (s.mp (fun m => { m with banks := m.banks.filter (fun b => !s.shadowFree b) })).tgeStat)) s

/-- SLOT_BUSY_END (R268): slots whose last sampling wedge has left stage LOOK_LAST. -/
def execSlotBusyEnd (t : Nat) (s : State) : Out :=
  run t (fun s =>
    let open_ := s.before (s.get (MAP.STAGES_LOOK_LAST 0))
    let keep := s.map.busy.filter (fun e => open_.any (fun j => decide (j.seq < e.2.2)))
    let bits (v : Nat) := (List.range 16).foldl (fun m l => if keep.any (fun e => e.1 = l && e.2.1 = v) then m + 2 ^ l else m) 0
    ((s.mp (fun m => { m with busy := keep })).put (MAP.BUSY_SLOT0 0) (bits 0)).put (MAP.BUSY_SLOT1 0) (bits 1)) s

/-- The row that holds a byte of the map region (R253, before the remap). -/
def State.rowAt (s : State) (a : Nat) : Option RowKey :=
  (List.range 16).findSome? (fun l =>
    if !s.on (MAP.LVL_CFG_EN 0 l) then none
    else (List.range 2).findSome? (fun v =>
      let k : RowKey := { level := l, slot := v, table := 0, row := 0 }
      let b := s.rowByte k
      let rowB := 2 * partB (s.lvlFp16 l) (partFeat s.get l)
      let n := tableRows s.get l
      let i := (a - b) / rowB
      if b ≤ a && decide (i < n * (if s.on (MAP.LVL_CFG_COMPOSE 0 l) then 2 else 1)) then
        some { k with table := i / n, row := i % n } else none))

/-- A unit of the region moved: copied, and its entry switched (R266). -/
def State.moveUnit (s : State) (u a : Nat) (to_ : Option Nat) : State :=
  let b := Mem.bytes s.map.mem (s.mapAddr u (a * 4096)) 4096
  let dst := u * 2 ^ 30 + (to_.getD a) * 4096
  let s := s.mp (fun m => { m with mem := Mem.store m.mem dst b })
  let s := s.setTge u (fun x => { x with remap := match to_ with | some v => ins a v x.remap | none => del a x.remap, mig := x.mig + 1 })
  (s.bump (TGE.MIGRATE_CNT u)).put (TGE.REMAP_OCC_ENTRIES u) (s.tge u).remap.length

/-- A migration run ends (R266, R269). -/
def State.migEnd (s : State) (u : Nat) : State := (((s.msEnd 3 u).put (TGE.STAT_MIGRATE u) 0)).actNow

/-! ### The maintenance engine's order (R267) -/

/-- An apply is running (R273). -/
def State.applying (s : State) : Bool := s.map.banks.any (fun b => b.phase = 1)

/-- Migration and pin loads wait (R267): behind an apply, and behind map-load writes of the front ERAP frame; in a state that does not
let them run (R376). -/
def State.maintWaits (s : State) (code : Nat) : Bool :=
  s.applying || s.erapQ.head?.any (fun f => f.type = 6 && f.target = 1) || !s.msAllowed code

/-- Whether a move can be made (R266): a unit of the slots that has an entry to free, or goes to a spare unit not in use. -/
def State.moveOk (s : State) (u a : Nat) (to_ : Option Nat) : Bool :=
  let r := (s.tge u).remap
  match to_ with
  | none => (find a r).isSome
  | some v =>
    decide (a < 2 ^ 18) && ((find a r).isSome || decide (r.length < 65536)) && !(r.any (fun e => e.2 = v)) &&
      s.get (MAP.SPARE_UNIT 0) ≤ v && decide (v < s.get (MAP.SPARE_UNIT 0) + s.get (MAP.SPARE_N_UNITS 0))

/-- No further unit can move to the spare area (R266): every entry of the table, or every spare unit, is in use. -/
def State.moveFull (s : State) (u a : Nat) (to_ : Option Nat) : Bool :=
  let r := (s.tge u).remap
  to_.isSome && (((find a r).isNone && decide (65536 ≤ r.length)) || decide (s.get (MAP.SPARE_N_UNITS 0) ≤ r.length))

/-- A unit read for a move (R266, R279, R339): none of its data comes where the read is not admitted or meets an uncorrectable error. -/
def State.unitRead (s : State) (u a : Nat) (errs : List (Nat × EccRes)) : Bool × State :=
  let b := s.mapAddr u (a * 4096) % 2 ^ 30
  match s.mapAccess u b 4096 2 false with
  | none => (false, s.dramViol u (s.mapDieAddr u b) 2 false)
  | some s =>
    let e := (errs.find? (fun e => e.1 / 4096 = a)).getD (a * 4096, .clean)
    s.mapByteRead u (b + e.1 % 4096) e.2 (fun s inj =>
      match s.rowAt e.1 with
      | some k => s.mapUe u k inj
      | none => s.raise (TGE.EVT_MAP_UE u) 2 0 inj)

/-- The moves of a running migration in order (R266), MIG.UNITS units at most: it ends after these, where the table or the spare area is
full, and where a unit's read fails, whose entry stays (R279). A move that cannot be made otherwise is passed over. -/
def State.migrate (s : State) (u : Nat) (errs : List (Nat × EccRes)) : List (Nat × Option Nat) → State
  | [] => if s.get (MAP.MIG_UNITS 0) ≤ (s.tge u).mig then s.migEnd u else s
  | (a, to_) :: rest =>
    if s.get (MAP.MIG_UNITS 0) ≤ (s.tge u).mig then s.migEnd u
    else if s.moveFull u a to_ then (s.set1 (MAP.EVT_REMAP_FULL 0)).migEnd u
    else if !s.moveOk u a to_ then s.migrate u errs rest
    else
      match s.unitRead u a errs with
      | (false, s) => s.migEnd u
      | (true, s) => (s.moveUnit u a to_).migrate u errs rest

/-- MIGRATION_RUN (R266, R267, R365, R373, R374): the firmware's moves; the first command of a run starts the activity, one
without moves ends it. `errs` are the bytes, before the remap, whose read meets an error. -/
def execMigrationRun (t : Nat) (u : Fin 2) (moves : List (Nat × Option Nat)) (errs : List (Nat × EccRes)) (s : State) : Out :=
  run t (fun s =>
    if s.age.forced then s.set1If (s.msRuns 3 u) MS.EVT_PREEMPT
    else if s.msRuns 3 u then
      (if moves.isEmpty then s.migEnd u else if s.maintWaits 3 then s else s.migrate u errs moves)
    else if moves.isEmpty || s.get (MAP.COMMIT_LEVELS 0) ≠ 0 then s
    else
      let s := s.msRequest 3 u
      if !s.msCanStart 3 u then s
      else
        let s := (s.msStart 3 u).put (TGE.STAT_MIGRATE u) 1
        let s := s.setTge u (fun x => { x with mig := 0 })
        if s.maintWaits 3 then s else s.migrate u errs moves) s

/-! ### Cache refresh (R263, R264) -/

/-- The map has a row (R251, R253). -/
def State.rowExists (s : State) (k : RowKey) : Bool :=
  decide (k.level < 16) && decide (k.slot < 2) && s.on (MAP.LVL_CFG_EN 0 k.level) &&
    decide (k.table < 1 + s.get (MAP.LVL_CFG_COMPOSE 0 k.level)) && decide (k.row < tableRows s.get k.level)

/-- A pin load (R263, R264, R279): the row is read from DRAM, and its entry serves from then on; a listed bad row is skipped. -/
def State.pinLoad (s : State) (u : Nat) (k : RowKey) (ecc : EccRes) : State :=
  if !s.rowExists k || s.badRow u k || (s.tge u).pins.contains k || decide (65536 ≤ (s.tge u).pins.length) then s
  else match s.rowAccess u k 2 false with
    | (false, s) => s
    | (true, s) =>
      match s.rowRead u k ecc with
      | (false, s) => s
      | (true, s) => s.setTge u (fun x => { x with pins := x.pins ++ [k] })

/-- CACHE_REFRESH (R263, R264, R267, R279, R365): the first command of a refresh starts it; each unpins the rows that the firmware no
longer chooses and loads some that it chooses, of either slot; one with neither ends it and clears the hot-row table. -/
def execCacheRefresh (t : Nat) (u : Fin 2) (unpin : List RowKey) (s : State) (loads : List (RowKey × EccRes) := []) : Out :=
  run t (fun s =>
    let work (s : State) : State :=
      if s.maintWaits 4 then s
      else
        let s := s.setTge u (fun x => { x with pins := x.pins.filter (fun k => !unpin.contains k) })
        let s := loads.foldl (fun s e => s.pinLoad u e.1 e.2) s
        s.put (TGE.CACHE_OCC_ENTRIES u) (s.tge u).pins.length
    if s.age.forced then s.set1If (s.msRuns 4 u) MS.EVT_PREEMPT
    else if s.msRuns 4 u then
      (if unpin.isEmpty && loads.isEmpty then
        ((s.setTge u (fun x => { x with hot := [] })).put (TGE.STAT_REFRESH u) 0).msEnd 4 u
      else work s)
    else if s.msCanStart 4 u then work ((s.msStart 4 u).put (TGE.STAT_REFRESH u) 1)
    else s) s

end Sys2Proof.Machine
end

