-- ==== Sys2Proof/Machine/Desc.lean ====
section
/-! DEFINITION. The Tile Sequencer: fetching, issuing and completing descriptors, operand references, what stops a program
(R143, R144, R152 to R156, R197, R199 to R205, R208, R356). -/

namespace Sys2Proof.Machine

/-- Fields of a descriptor. -/
abbrev dU8 (b : Bytes) (o : Nat) : Nat := fieldB b o 1
abbrev dU16 (b : Bytes) (o : Nat) : Nat := fieldB b o 2
abbrev dU32 (b : Bytes) (o : Nat) : Nat := fieldB b o 4

/-- KIND, FENCE, TAGCHK, END and SEQ of the header (R143). -/
def dKind (b : Bytes) : Nat := bitsOf (dU8 b 0) 0 4
def dFence (b : Bytes) : Bool := bitOf (dU8 b 0) 4
def dTagchk (b : Bytes) : Bool := bitOf (dU8 b 0) 5
def dEnd (b : Bytes) : Bool := bitOf (dU8 b 0) 6
def dSeq (b : Bytes) : Nat := dU16 b 2

/-- What executing a descriptor comes to. -/
inductive DRes where
  /-- It completes. -/
  | ok (s : State)
  /-- It waits with its operands kept, done up to `phase`, with the rows of a map lookup that it holds. -/
  | wait (s : State) (w : TWait) (phase : Nat) (ops : List Opnd) (acc : List (List (BitVec 32)) := [])
  /-- It stops the program (R156, R208). -/
  | stop (s : State) (e : AccErr)
  /-- The program has been stopped with its own report. -/
  | halt (s : State)

/-- The wedge in progress on a stage tile (R157). -/
def State.tileJob (s : State) (g : Nat) : Option WJob := s.pipe.flight.find? (fun j => j.admNo = (s.tile g).doneN)

/-- Whether a tile's program runs: powered with a program, in Noon or Dusk, past its ACCEPT. -/
def State.tileRuns (s : State) (g : Nat) : Bool :=
  (s.dev = dsNoon || s.dev = dsDusk) && (s.get (TILE.STAT_STATE g) = 2 || s.get (TILE.STAT_STATE g) = 3)

/-- The descriptor at an index of a tile's program. -/
def State.descAt (s : State) (g i : Nat) : Bytes := s.spdBytes g ((s.get (TILE.PROG_START g) + i) * 64) 64

/-- The handle and offset of an operand reference (R144) in the loops of its descriptor (R152); none where the descriptor
names no operand. -/
def State.oprefAt (s : State) (g : Nat) (e : QEnt) (o : Nat) : Option (Nat × Int) :=
  let v := dU32 e.desc o
  if v = 0xFFFFFFFF then none
  else
    let h := v % 64
    let adv : Int := e.loops.foldl (fun n l => (l.adv.filter (fun a => a.1 = h)).foldl (fun n a => n + l.j * a.2) n) 0
    some (if bitOf v 6 then h + (s.tile g).doneN % 2 else h, (v / 256 : Nat) + adv)

/-- The operands that the references at some places name, as they were found when the descriptor started (`ops`, R208); `true` marks
one that need not be there. -/
def State.refsFrom (s : State) (g : Nat) (e : QEnt) : List (Nat × Bool) → List Opnd → Except AccErr (List (Option Opnd))
  | [], _ => .ok []
  | (o, opt) :: r, ops => do
    match s.oprefAt g e o with
    | none => if opt then return none :: (← s.refsFrom g e r ops) else throw .badDesc
    | some (h, ofs) =>
      let x ← match ops with
        | x :: _ => pure x
        | [] => if ofs < 0 then throw .bound else s.operand g h ofs.toNat (s.tilePart g)
      return some x :: (← s.refsFrom g e r ops.tail)

/-- The operands of a descriptor. -/
def State.refs (s : State) (g : Nat) (e : QEnt) (l : List (Nat × Bool)) : Except AccErr (List (Option Opnd)) := s.refsFrom g e l e.ops

/-- An operand of a list that must be there. -/
def needAt (l : List (Option Opnd)) (i : Nat) : Except AccErr Opnd :=
  match l.getD i none with
  | none => .error .badDesc
  | some o => .ok o

/-- A bound check (R144). -/
def Opnd.check (o : Opnd) (n : Nat) : Except AccErr Unit := if o.fits n then .ok () else .error .bound

/-- The wait of an access through a port (R191, R205). -/
def tagWait (s : State) (line port : Nat) (full : Bool) : TWait :=
  { kind := if full then 0 else 1, line := line, port := port, at_ := s.mono, sync := false }

/-- TILE.PC: the oldest descriptor not completed; TILE.STAT.STATE: running or stalled on a wait (R167). -/
def State.tileShow (s : State) (g : Nat) : State :=
  let x := s.tile g
  let pc := x.queue.foldl (fun m e => min m e.idx) x.next
  let waits := x.wait.isSome || x.queue.any (fun e => e.wait.isSome)
  let s := s.put (TILE.PC_IDX g) pc
  if s.get (TILE.STAT_STATE g) = 2 || s.get (TILE.STAT_STATE g) = 3 then s.put (TILE.STAT_STATE g) (if waits then 3 else 2) else s

/-- A program stopped by a fault of a descriptor (R156). -/
def State.tileStop (s : State) (g : Nat) (e : QEnt) (f : Fld) (inj : Bool := false) : State :=
  let s := ((s.put (TILE.ERR_DESC_IDX g) e.idx).put (TILE.ERR_DESC_KIND g) (dKind e.desc)).put (TILE.STAT_STATE g) 4
  s.raise f 2 (2 ^ s.tilePart g) inj

/-- The loops and the index after the descriptor before `p` has been issued (R152). -/
def loopNext : List LoopCtx → Nat → List LoopCtx × Nat
  | [], p => ([], p)
  | l :: ls, p =>
    if p = l.start + 1 + l.body then
      (if l.j + 1 < l.count then ({ l with j := l.j + 1 } :: ls, l.start + 1) else loopNext ls p)
    else (l :: ls, p)

/-- Issue moves on past a descriptor. -/
def State.issued (s : State) (g : Nat) : State :=
  s.setTile g (fun x => let (l, p) := loopNext x.loops (x.next + 1); { x with loops := l, next := p, issues := x.issues + 1 })

/-- The queue of a kind (R154): 0 MXE, 1 VXE, 2 TDM, 3 the sequencer. -/
def queueOf (b : Bytes) : Nat :=
  match dKind b with
  | 1 => if bitsOf (dU8 b 38) 0 4 = 0 then 1 else 0
  | 2 => 2
  | 3 => 2
  | 4 => 1
  | 5 => 2
  | 7 => if dU8 b 4 = 2 then 2 else 3
  | _ => 3

/-- Where the operand references of a kind stand (R145 to R149, R151). -/
def refsOf (b : Bytes) : List Nat :=
  match dKind b with
  | 1 => [4, 8, 12, 16, 20, 24, 28]
  | 2 => [4, 8, 12]
  | 3 => [4, 8, 32]
  | 4 => [4, 8, 12, 16, 20]
  | 5 => [4, 8, 12]
  | 7 => if dU8 b 4 = 2 then [8, 12] else []
  | _ => []

/-- Executing a descriptor checks or sets tags: TAGCHK, a ring as an end of a MOVE, a landing from DRAM, from the map or from the
ring of dies, or a ring handle (R203). -/
def State.tagged (s : State) (g : Nat) (e : QEnt) : Bool :=
  let b := e.desc
  dTagchk b
    || (dKind b = 3 && (dU8 b 16 ≠ 0 || dU8 b 17 = 2 || decide (4 ≤ dU8 b 18)))
    || (dKind b = 5 && dU8 b 20 = 0)
    || (refsOf b).any (fun o => (s.oprefAt g e o).any (fun r => s.get (HDL.ATTR_RREL g r.1) ≠ 0))

/-- A bank conflict (R193, R194): counted; the first since the last clear is recorded, logged once per revolution, and is C2
under CONF_SEV = 1. -/
def State.conflict (s : State) (g : Nat) (c : Nat × Nat × Nat) : State :=
  let first := !s.on (TILE.SPD_CONF_INFO_VALID g)
  let s := (s.set1 (TILE.SPD_EVT_CONFLICT g)).bump (TILE.SPD_CONFLICT_CNT g)
  let s := if first then ((s.put (TILE.SPD_CONF_INFO_BANK g) c.1).put (TILE.SPD_CONF_INFO_WINNER g) c.2.1).put (TILE.SPD_CONF_INFO_LOSER g) c.2.2
    |>.set1 (TILE.SPD_CONF_INFO_VALID g) else s
  if first && s.on (TILE.SPD_CFG_CONF_SEV g) then s.raise (TILE.SPD_EVT_CONFLICT g) 2 (2 ^ s.tilePart g)
  else if (s.tile g).conflictLog then s
  else (s.setTile g (fun x => { x with conflictLog := true })).raise (TILE.SPD_EVT_CONFLICT g) 0 (2 ^ s.tilePart g)

/-- What an operation meets made ready for its reads and tag checks: codes 3 and 4 of an armed error of DRAM or of a cache stand for
errors that are not injected. -/
def State.softOn (s : State) (g : Nat) (x : Soft) : State :=
  let code : EccRes → Nat := fun e => match e with
    | .clean => 0
    | .corrected => 3
    | .uncorrectable => 4
  let arm (old : Nat) (new : Nat) := if old = 0 then new else old
  let tc := match x.tge with
    | .cacheCe => 3
    | .cacheUe => 4
    | _ => 0
  let soft := if x.spd = .clean then none else some (x.spdAt / 8 * 8, decide (x.spd = .uncorrectable))
  let s := s.setTile g (fun k => { k with soft := soft, softTag := x.tag })
  let s : State := { s with age := { s.age with dramInj := s.age.dramInj.modify (g / 40) (fun o => arm o (code x.dram)) } }
  let s := s.setTge (g / 40) (fun k => { k with inj := arm k.inj tc })
  if s.get (TILE.STAT_STATE g) = 0 then s else x.conf.foldl (fun s c => s.conflict g c) s

/-- What was not met is over with the command. -/
def State.softOff (s : State) (g : Nat) : State :=
  let off (o : Nat) := if 3 ≤ o then 0 else o
  let s := s.setTile g (fun k => { k with soft := none, softTag := false })
  let s : State := { s with age := { s.age with dramInj := s.age.dramInj.modify (g / 40) off } }
  s.setTge (g / 40) (fun k => { k with inj := off k.inj })

/-- An operation of a tile with what it meets. -/
def softRun (t : Nat) (g : Fin 80) (x : Soft) (f : State → State) (s : State) : Out :=
  run t (fun s => (f (s.softOn g x)).softOff g) s

/-- A descriptor's entry with the wait it is in; a wait that goes on keeps its first instant (R205). -/
def QEnt.waiting (e : QEnt) (w : TWait) (phase : Nat) (ops : List Opnd) (acc : List (List (BitVec 32))) : QEnt :=
  let old := e.wait.filter (fun v => v.kind = w.kind && v.line = w.line && v.tile = w.tile)
  { e with wait := some (old.getD w), phase := phase, ops := ops, acc := acc }

/-- A producer that begins to wait on a full RING[2] or RING[3] counts in its EVT_CNT (R216). -/
def State.ringWait (s : State) (g : Nat) (e : QEnt) (w : TWait) : State :=
  let new := w.kind = 1 && (match e.wait with | none => true | some v => v.kind ≠ 1 || v.line ≠ w.line)
  if !new then s
  else [2, 3].foldl (fun s r =>
    let b := s.get (RING.BASE_ADDR g r) / 512
    if s.on (RING.CFG_EN g r) && b ≤ w.line && decide (w.line < b + s.get (RING.SIZE_LINES g r)) then s.bump (RING.EVT_CNT g r)
    else s) s

/-- The outcome of a queued descriptor applied: completed ones leave the queue, others stay and wait. -/
def applyRes (g : Nat) (e : QEnt) (r : DRes) : State :=
  let keep (s1 : State) (w : TWait) (ph : Nat) (ops : List Opnd) (acc : List (List (BitVec 32))) : State :=
    let e' := e.waiting w ph ops acc
    ((s1.ringWait g e w).setTile g (fun x =>
      if x.queue.any (fun q => q.n = e.n) then { x with queue := x.queue.map (fun q => if q.n = e.n then e' else q) }
      else { x with queue := x.queue ++ [e'] })).tileShow g
  match r with
  | .ok s1 => (s1.setTile g (fun x => { x with queue := x.queue.filter (fun q => q.n ≠ e.n) })).tileShow g
  | .wait s1 w ph ops acc => keep s1 w ph ops acc
  | .stop s1 err => s1.tileStop g e (err.event g)
  | .halt s1 => s1

/-- The next descriptor of a program fetched (R154, R190, R197): none where the fetch or what it brings has stopped the program
(R156). -/
def State.fetch (s : State) (g : Nat) : State × Option QEnt :=
  let x := s.tile g
  let b := s.descAt g x.next
  let e : QEnt := { n := x.issues, idx := x.next, desc := b, loops := x.loops, q := queueOf b }
  match s.meet g ((s.get (TILE.PROG_START g) + x.next) * 64) 64 false with
  | (s, true) => (s, none)
  | (s, false) =>
    if x.injSeq then ((s.setTile g (fun x => { x with injSeq := false })).tileStop g e (TILE.EVT_SEQ_ERR g) true, none)
    else if dSeq b ≠ x.next then (s.tileStop g e (TILE.EVT_SEQ_ERR g), none)
    else if dKind b = 0 || decide (8 < dKind b) then (s.tileStop g e (TILE.EVT_BAD_DESC g), none)
    else (s, some e)

/-- FENCE lets a descriptor be issued (R143, R154). -/
def State.fenceOk (s : State) (g : Nat) (e : QEnt) : Bool := !dFence e.desc || (s.tile g).queue.isEmpty

/-- `body` on a descriptor, unless it meets a tag parity error (R201). -/
def State.execOr (s : State) (g : Nat) (e : QEnt) (body : State → QEnt → DRes) : DRes :=
  match (if s.tagged g e then s.parity g else none) with
  | some s => .halt s
  | none => body s e

/-- The next descriptor issued where it is of a row (R154): it runs at once where its queue is empty. -/
def State.issueNext (s : State) (g : Nat) (mine : Bytes → Bool) (body : State → QEnt → DRes) : State :=
  if (s.tile g).wait.isSome then s
  else match s.fetch g with
    | (s, none) => s
    | (s, some e) =>
      let n := ((s.tile g).queue.filter (fun q => q.q = e.q)).length
      if !mine e.desc || !s.fenceOk g e then s
      else if n = 0 then
        match s.execOr g e body with
        | .stop s err => s.tileStop g e (err.event g)
        | .halt s => s
        | r => ((applyRes g e r).issued g).tileShow g
      else if n < 4 then ((s.setTile g (fun x => { x with queue := x.queue ++ [e] })).issued g).tileShow g
      else s

/-- A descriptor of a row that the queues execute (R143, R154, R156): the oldest of its queue that is of this row goes on; where
there is none, or it still waits, the next of the program is issued. `mine` says whether a descriptor is of the row; `body`
executes it. -/
def State.descStep (s : State) (g : Nat) (mine : Bytes → Bool) (body : State → QEnt → DRes) : State :=
  if !s.tileRuns g then s
  else
    let x := s.tile g
    match x.queue.find? (fun e => mine e.desc && !x.queue.any (fun q => q.q = e.q && decide (q.n < e.n))) with
    | none => s.issueNext g mine body
    | some e =>
      let s := applyRes g e (s.execOr g e body)
      if s.tileRuns g && (s.tile g).queue.any (fun q => q.n = e.n) then s.issueNext g mine body else s

/-- A descriptor of a row that the sequencer itself executes (R154). -/
def State.seqStep (s : State) (g : Nat) (mine : Bytes → Bool) (body : State → QEnt → State) : State :=
  if !s.tileRuns g || (s.tile g).wait.isSome then s
  else match s.fetch g with
    | (s, none) => s
    | (s, some e) => if !mine e.desc || !s.fenceOk g e then s else (body s e).tileShow g

end Sys2Proof.Machine
end

