-- ==== Sys2Proof/Machine/Chain.lean ====
section
/-! DEFINITION. Fusion chains: operands, prologue, products, epilogue, row statistics, final write (R138, R145, R179 to R184,
R219 to R236). -/

namespace Sys2Proof.Machine

/-! ### Tensors in a scratchpad (R169, R174, R220) -/

/-- Bytes of `n` elements of a format, its scale bytes included. -/
def tensorBytes (c n : Nat) : Nat :=
  let d := ceilDiv (n * elemBits c) 8
  if isBlock c then padTo 512 d + ceilDiv n 32 else d

/-- A tensor as read: its format, its bytes, where its scale bytes begin. -/
structure Tensor where
  fmt : Nat
  data : Array Byte
  scaleAt : Nat

/-- The storage bits of element `i`. -/
def Tensor.raw (t : Tensor) (i : Nat) : Nat :=
  let w := elemBits t.fmt
  if w < 8 then (t.data.getD (i * w / 8) 0).toNat / 2 ^ (i * w % 8) % 2 ^ w
  else leNat ((List.range (w / 8)).map (fun k => t.data.getD (i * (w / 8) + k) 0))

/-- The scale byte of the block that holds element `i`. -/
def Tensor.scale (t : Tensor) (i : Nat) : Nat := (t.data.getD (t.scaleAt + i / 32) 0).toNat

/-- The value of element `i`. -/
def Tensor.val (t : Tensor) (i : Nat) : Num :=
  if isBlock t.fmt then decBlockElem t.fmt (t.raw i) (t.scale i) else decElem t.fmt (t.raw i)

/-- A tensor of `n` elements read through an operand (R144). -/
def State.tensor (s : State) (g : Nat) (o : Opnd) (fmt n : Nat) : Except AccErr Tensor :=
  let len := tensorBytes fmt n
  if o.fits len then .ok { fmt := fmt, data := (s.opRead g o 0 len).toArray, scaleAt := padTo 512 (ceilDiv (n * elemBits fmt) 8) }
  else .error .bound

/-- Storage bits of elements packed into bytes (R169). -/
def packBits (w : Nat) (l : List Nat) : Bytes :=
  if 8 ≤ w then l.flatMap (leBytes (w / 8))
  else
    let n := 8 / w
    (List.range (ceilDiv l.length n)).map (fun i =>
      BitVec.ofNat 8 (((l.drop (i * n)).take n).zipIdx.foldl (fun m e => m + e.1 % 2 ^ w * 2 ^ (e.2 * w)) 0))

/-- A row stride in elements: block formats pad a row to whole blocks (R173). -/
def rowStride (fmt n : Nat) : Nat := if isBlock fmt then padTo 32 n else n

/-! ### Values in a chain (R225) -/

/-- A value: INT32, or FP32. -/
inductive Val where
  | i (x : Int)
  | f (x : Num)

/-- Conversion to FP32 (R225). -/
def Val.num : Val → Num
  | .i x => rnd32 (.ofInt x)
  | .f x => x

/-- An INT32 result: saturated or wrapped (R225). -/
def int32 (sat : Bool) (x : Int) : Int := if sat then clampInt (-2147483648) 2147483647 x else signedOf 32 (lowBits 32 x)

/-- The smaller and the larger of two values; NaN if either is NaN (R226). -/
def Num.min2 (a b : Num) : Num := if a.isNan || b.isNan then .nan else if b.lt a then b else a
def Num.max2 (a b : Num) : Num := if a.isNan || b.isNan then .nan else if a.lt b then b else a

/-- One operation of a list: code and operand selector (R221). -/
structure ChainOp where
  code : Nat
  sel : Nat
  words : List Nat := []                -- its parameter words (R224)

/-- The operations of PRO or EPI up to the first 0 (R221). -/
def chainOps (b : Bytes) (o n : Nat) : List ChainOp :=
  ((List.range n).map (fun i => ({ code := dU8 b (o + i) % 64, sel := dU8 b (o + i) / 64 } : ChainOp))).takeWhile (fun x => x.code ≠ 0)

/-- Parameter words an operation with SEL = 3 takes (R224). -/
def opWords (c : Nat) : Nat := if c = 0x01 || c = 0x03 || c = 0x11 then 1 else if c = 0x02 || c = 0x12 || c = 0x0A then 2 else 0

/-- Parameter words handed out in list order (R224). -/
def giveWords : List ChainOp → List Nat → List ChainOp
  | [], _ => []
  | x :: xs, ws =>
    let n := if x.sel = 3 then opWords x.code else 0
    { x with words := ws.take n } :: giveWords xs (ws.drop n)

/-- What the operations of a chain read besides the value: the streams X0 to X2, eps, and the row statistics. -/
structure ChainEnv where
  sat : Bool
  sround : Bool
  seed : Nat
  die : Nat
  n : Nat
  xs : List (Option Tensor)
  raws : List Bytes
  stats : Nat → Num × Num               -- (mu, rstd) of a row for NORM

/-- Entry `k` of a stream or parameter (R222, R224): value `j` of a group of `grp`. -/
def ChainEnv.operand (v : ChainEnv) (x : ChainOp) (grp k j : Nat) (int : Bool) : Num :=
  if x.sel = 3 then (if int then .ofInt (signedOf 32 (x.words.getD j 0)) else fFP32.dec (x.words.getD j 0))
  else match v.xs.getD x.sel none with
    | none => Num.zero
    | some t => t.val (k * grp + j)

/-- One operation on an FP32 value; `k` is the channel, `el` the element of a RESID stream (R222, R226). -/
def fpOp (v : ChainEnv) (x : ChainOp) (r k el : Nat) (a : Num) : Num :=
  match x.code with
  | 0x01 => fmul a (v.operand x 1 k 0 false)
  | 0x02 => fmul (fadd a (v.operand x 2 k 1 false).neg) (v.operand x 2 k 0 false)
  | 0x03 => fadd a (v.operand x 1 k 0 false)
  | 0x05 => let (mu, rs) := v.stats r; fmul (fadd a mu.neg) rs
  | 0x08 => fadd a (v.operand x 1 el 0 false)
  | 0x10 => if a.isNan then .nan else if Num.zero.lt a then a else Num.zero
  | 0x11 => if a.isNan then .nan else if a.lt Num.zero then fmul a (v.operand x 1 k 0 false) else a
  | 0x12 => (a.max2 (v.operand x 2 k 0 false)).min2 (v.operand x 2 k 1 false)
  | 0x0A => fadd (fmul a (v.operand x 2 k 0 false)) (v.operand x 2 k 1 false)
  | 0x09 => a
  | c => actFn c a

/-- An integer from a value that is one. -/
def Num.toInt (x : Num) : Int := x.rne

/-- An integer REQ (R227): (M, S, Z) from the record or the words. -/
def reqInt (v : ChainEnv) (x : ChainOp) (r k : Nat) (a : Int) : Int :=
  let rec_ := sliceB (v.raws.getD x.sel []) (8 * k) 8
  let (m, sh, z) : Int × Nat × Int := if x.sel = 3 then
      (signedOf 32 (x.words.getD 0 0), bitsOf (x.words.getD 1 0) 0 6, signedOf 16 (x.words.getD 1 0 / 2 ^ 16))
    else (signedOf 32 (leNat (rec_.take 4)), bitsOf (fieldB rec_ 4 1) 0 6, signedOf 16 (fieldB rec_ 6 2))
  let p : Num := (Num.ofInt (a * m)).scale (-(sh : Int))
  let q := if v.sround then (sroundTo 0 (srBits v.seed ((r * 4 * v.n + v.die * v.n + k) % 2 ^ 32)) p).rne else p.rne
  q + z

/-- One epilogue operation (R225): INT32 while the value is INT32 and the operation is in the INT32 set. Answers the value
and whether an integer REQ has been applied. -/
def epiOp (v : ChainEnv) (r c el : Nat) (x : ChainOp) (a : Val) : Val :=
  match a with
  | .f y => .f (fpOp v x r c el y)
  | .i y =>
    let intRes := x.code = 0x08 && (match v.xs.getD x.sel none with | some t => (intFmt t.fmt).isSome | none => false)
    if x.code = 0x03 then .i (int32 v.sat (y + (v.operand x 1 c 0 true).toInt))
    else if x.code = 0x10 then .i (max y 0)
    else if x.code = 0x12 then .i (min (max y (v.operand x 2 c 0 true).toInt) (v.operand x 2 c 1 true).toInt)
    else if intRes then .i (int32 v.sat (y + (v.operand x 1 el 0 true).toInt))
    else if x.code = 0x0A then .i (reqInt v x r c y)
    else if x.code = 0x09 then .f (Val.num (.i y))
    else .f (fpOp v x r c el (Val.num (.i y)))

/-- The final write of one element to a format that is not block-scaled (R183, R184, R227). -/
def finalBits (v : ChainEnv) (fmt r c : Nat) (a : Val) : Nat :=
  let n := match a with | .i x => Num.ofInt x | .f x => x
  if v.sround then encStoch fmt v.sat (srBits v.seed ((r * 4 * v.n + v.die * v.n + c) % 2 ^ 32)) n else encElem fmt v.sat n

/-! ### Row statistics (R233, R234) -/

/-- The record of one row over its first `nreal` values (R233). -/
def statRecord (nreal : Nat) (vs : List Num) : Bytes :=
  let l := vs.take nreal
  let sum := l.foldl fadd Num.zero
  let sq := l.foldl (fun a x => fadd a (fmul x x)) Num.zero
  let mx := match l with | [] => Num.zero | x :: xs => xs.foldl Num.max2 x
  let w (x : Num) := leBytes 4 (fFP32.enc false x)
  w sum ++ w sq ++ w mx ++ leBytes 4 l.length

/-- A plane of statistics: whole, records beyond the rows zero (R233). -/
def statPlane (nreal rows : Nat) (vals : List (List Num)) : Bytes :=
  let b := vals.flatMap (statRecord nreal)
  b ++ zeroBytes (16 * padTo 64 rows - b.length)

/-- The lines of the four planes that hold the records of rows `32·k` to `32·k + 31`, for each `k` from `k0` on, `n` of them (R233,
R234): their places in the stream. -/
def statLines (rows k0 n : Nat) : List Nat :=
  (List.range n).flatMap (fun k => (List.range 4).map (fun d => d * 16 * padTo 64 rows + 512 * (k0 + k)))

/-- Bytes of a statistics stream that reads of every row reach. -/
def statSpan (rows : Nat) : Nat := 48 * padTo 64 rows + 512 * ceilDiv rows 32

/-- row_stats of R234 from the four planes, a plane every `16 * pad64(rows)` bytes. -/
def rowStats (planes : Bytes) (rows : Nat) (eps : Num) (r : Nat) : Num × Num :=
  let rec_ (d : Nat) := sliceB planes (d * 16 * padTo 64 rows + 16 * r) 16
  let (s, q, n) := (List.range 4).foldl (fun (p : Num × Num × Nat) d =>
    let b := rec_ d
    let k := fieldB b 12 4
    if k = 0 then p else (fadd p.1 (fFP32.dec (fieldB b 0 4)), fadd p.2.1 (fFP32.dec (fieldB b 4 4)), (p.2.2 + k) % 2 ^ 32))
    (Num.zero, Num.zero, 0)
  if n = 0 then (Num.zero, rsqrtF (fadd Num.zero eps))
  else
    let nn := Num.ofInt n
    let mu := fFP32.div s nn
    let var := fadd (fFP32.div q nn) (fmul mu mu).neg
    let var := if var.lt Num.zero then Num.zero else var
    (mu, rsqrtF (fadd var eps))

/-! ### Products (R180, R181, R220) -/

/-- A matrix entry as the MXE takes it: an integer or float value, or a block element with its scale byte. -/
structure MxVal where
  v : Num
  m : Int
  e : Nat

/-- The term sum of one output element over K (R180, R181), added to an accumulator. -/
def mxDot (fmtA fmtB : Nat) (acc : Val) (as bs : List MxVal) : Val :=
  if isBlock fmtA then
    let rec go : Nat → Num → List MxVal → List MxVal → Num
      | 0, acc, _, _ => acc
      | k + 1, acc, as, bs =>
        let a := as.take 32
        let b := bs.take 32
        match a.head?, b.head? with
        | some x, some y =>
          let t : Num := if x.e = 255 || y.e = 255 then .nan
            else
              let sum := (List.zipWith (fun p q => p.m * q.m) a b).foldl (· + ·) 0
              rnd32 (.fin (decide (sum < 0)) sum.natAbs
                ((x.e : Int) - 127 - blockFb fmtA + (y.e : Int) - 127 - blockFb fmtB))
          go k (fadd acc t) (as.drop 32) (bs.drop 32)
        | _, _ => acc
    .f (go (as.length / 32) acc.num as bs)
  else match intFmt fmtA with
    | some _ =>
      let x := match acc with | .i x => x | .f _ => 0
      .i (int32 false ((List.zipWith (fun a b => a.v.toInt * b.v.toInt) as bs).foldl (· + ·) x))
    | none =>
      .f ((List.zip as bs).foldl (fun acc p =>
        if fmtA = 0x9 then fadd acc (fmul p.1.v p.2.v) else ffma p.1.v p.2.v acc) acc.num)

/-- The matrix entry of a tensor's element. -/
def Tensor.mx (t : Tensor) (i : Nat) : MxVal :=
  if isBlock t.fmt then { v := Num.zero, m := signedOf (elemBits t.fmt) (t.raw i), e := t.scale i }
  else { v := t.val i, m := 0, e := 0 }

/-- Values brought into FMT_MXA after a prologue (R225). -/
def toMx (fmt : Nat) (vs : List Num) : List MxVal :=
  if isBlock fmt then
    let rec go : Nat → List Num → List MxVal
      | 0, _ => []
      | k + 1, l =>
        let (m, e) := toBlock fmt (l.take 32)
        m.map (fun x => { v := Num.zero, m := x, e := e }) ++ go k (l.drop 32)
    go (ceilDiv vs.length 32) vs
  else vs.map (fun x => { v := decElem fmt (encElem fmt true x), m := 0, e := 0 })

/-- The widened value of a matrix entry (MAIN 0: R225). -/
def MxVal.wide (fmt : Nat) (x : MxVal) : Val :=
  if isBlock fmt then .f (decBlockElem fmt (lowBits 8 x.m) x.e)
  else if (floatFmt fmt).isSome then .f x.v else .i x.v.toInt

/-- A rulebook as read (R129). -/
structure Rule where
  k : Nat
  nIn : Nat
  nOut : Nat
  rIn : Nat
  rOut : Nat
  counts : List Nat
  body : Bytes

/-- The entries (input row, output row) of offset `o`, relative to the grid's first rows; padding left out (R129). -/
def Rule.entries (r : Rule) (o : Nat) : List (Nat × Nat) :=
  let at_ := (r.counts.take o).foldl (fun n c => n + padTo 64 c) 0
  (List.range (padTo 64 (r.counts.getD o 0))).filterMap (fun i =>
    let w := fieldB r.body (4 * (at_ + i)) 4
    if w = 0xFFFFFFFF then none else some (w % 2 ^ 16 - r.rIn, w / 2 ^ 16 - r.rOut))

/-- A rulebook read through its operand. -/
def State.rule (s : State) (g : Nat) (o : Opnd) : Except AccErr Rule :=
  if !o.fits 128 then .error .bound
  else
    let h := s.opRead g o 0 128
    let k := fieldB h 1 1
    let counts := (List.range (min k 27)).map (fun i => fieldB h (20 + 2 * i) 2)
    let total := counts.foldl (fun n c => n + padTo 64 c) 0
    let n := min (4 * total) (o.len - 128)
    .ok { k := k, nIn := fieldB h 8 2, nOut := fieldB h 10 2, rIn := fieldB h 12 2, rOut := fieldB h 14 2, counts := counts,
          body := s.opRead g o 128 n }

/-! ### The chain -/

/-- The fields of a CHAIN (R145, R219). -/
structure ChainD where
  main : Nat
  fmtMx : Nat
  fmtA : Nat
  fmtB : Nat
  fmtOut : Nat
  m : Nat
  k : Nat
  n : Nat
  sat : Bool
  sround : Bool
  stat : Nat
  seed : Nat
  pro : List ChainOp
  epi : List ChainOp
  nreal : Nat
  eps : Num

/-- A CHAIN descriptor read. -/
def chainD (b : Bytes) : ChainD :=
  let main := dU8 b 38
  let fl := dU8 b 41
  let p0 := dU32 b 56
  let p1 := dU32 b 60
  let pro := chainOps b 42 4
  let epi := chainOps b 46 6
  let stat := bitsOf fl 3 2
  let hasStat := epi.any (fun x => x.code = 0x09)
  let hasNorm := (pro ++ epi).any (fun x => x.code = 0x05) || stat = 1
  let ws := (if hasStat then [] else [p0]) ++ (if hasNorm then [] else [p1])
  let l := giveWords (pro ++ epi) ws
  { main := main % 16, fmtMx := main / 16, fmtA := dU8 b 39 % 16, fmtB := dU8 b 39 / 16, fmtOut := dU8 b 40 % 16,
    m := dU16 b 32, k := dU16 b 34, n := dU16 b 36, sat := bitOf fl 0, sround := bitOf fl 1, stat := stat, seed := dU32 b 52,
    pro := l.take pro.length, epi := l.drop pro.length, nreal := p0, eps := fFP32.dec p1 }

/-- The first tag that keeps a checked operand access waiting. -/
def State.blocked (s : State) (g : Nat) (o : Opnd) (n port : Nat) (tagchk full : Bool) : Option TWait :=
  (s.blockedLine g o n tagchk full).map (fun l => tagWait s l port full)

/-- An integer REQ is reached with the value still INT32 (R225): `ints` says which streams hold integers. -/
def ChainD.reqInts (d : ChainD) (ints : Nat → Bool) : Bool :=
  d.stat ≠ 1 && !isBlock d.fmtMx && (floatFmt d.fmtMx).isNone &&
    d.epi.all (fun x => x.code = 0x03 || x.code = 0x10 || x.code = 0x12 || x.code = 0x0A || (x.code = 0x08 && ints x.sel))

/-- The operation of a list that names a stream; format of the stream's values and how many it holds (R222). -/
def streamLen (d : ChainD) (rOut : Nat) (fmt : Nat) (inPro : Bool) (x : ChainOp) : Nat :=
  let ch := if inPro then (if d.main = 0 then d.n else d.k) else d.n
  match x.code with
  | 0x05 => 0
  | 0x09 => 0
  | 0x08 => rOut * rowStride fmt d.n
  | 0x02 => 2 * ch
  | 0x12 => 2 * ch
  | 0x0A => 2 * ch
  | _ => ch

/-- Rows of A, and rows of the result. -/
def ChainD.rows (d : ChainD) (r : Option Rule) : Nat × Nat :=
  match r with
  | some r => (r.nIn, r.nOut)
  | none => (d.m, d.m)

/-- Elements of the A operand (R220). -/
def ChainD.elemsA (d : ChainD) (rowsA : Nat) : Nat :=
  if d.main = 3 then padTo 64 d.m * d.k else if d.main = 0 then rowsA * rowStride d.fmtA d.n else rowsA * d.k

/-- The index of element `(r, k)` of A (R220). -/
def ChainD.idxA (d : ChainD) (r k : Nat) : Nat :=
  if d.main = 3 then let q := d.k / 4; (k / q) * padTo 64 d.m * q + r * q + k % q
  else if d.main = 0 then r * rowStride d.fmtA d.n + k else r * d.k + k

/-- A row of A as it enters the main operation: prologue applied (R225). -/
def ChainD.rowA (d : ChainD) (v : ChainEnv) (a : Tensor) (r : Nat) : List MxVal :=
  let w := if d.main = 0 then d.n else d.k
  if d.pro.isEmpty then (List.range w).map (fun k => a.mx (d.idxA r k))
  else
    toMx d.fmtMx ((List.range w).map (fun k =>
      d.pro.foldl (fun x op => fpOp v op r k 0 x) (rnd32 (a.val (d.idxA r k)))))

/-- The accumulator of every output element, row by row (R181, R220). -/
def ChainD.product (d : ChainD) (v : ChainEnv) (a : Tensor) (b : Option Tensor) (rule : Option Rule) (rows : Nat) : List (List Val) :=
  let init : Val := if (intFmt d.fmtMx).isSome && !isBlock d.fmtMx then .i 0 else .f Num.zero
  match b with
  | none => (List.range rows).map (fun r => (d.rowA v a r).map (MxVal.wide d.fmtMx))
  | some b =>
    let col (o c : Nat) : List MxVal := (List.range d.k).map (fun k => b.mx ((o * padTo 32 d.n + c) * d.k + k))
    match rule with
    | none =>
      let cols := (List.range d.n).map (col 0)
      (List.range rows).map (fun r => let as := d.rowA v a r; cols.map (fun bs => mxDot d.fmtMx d.fmtB init as bs))
    | some ru =>
      let start := List.replicate rows (List.replicate d.n init)
      (List.range ru.counts.length).foldl (fun acc o =>
        let cols := (List.range d.n).map (col o)
        (ru.entries o).foldl (fun acc e =>
          let as := d.rowA v a e.1
          acc.modify e.2 (fun row => List.zipWith (fun x bs => mxDot d.fmtMx d.fmtB x as bs) row cols)) acc) start

/-- The rows a result is written as, the first being row `r0` (R220, R227). -/
def ChainD.outBytes (d : ChainD) (v : ChainEnv) (r0 : Nat) (rows : List (List Val)) : Bytes :=
  if isBlock d.fmtOut then
    let blocks := rows.flatMap (fun row =>
      let vs := row.map Val.num ++ List.replicate (padTo 32 d.n - d.n) Num.zero
      (List.range (vs.length / 32)).map (fun i => toBlock d.fmtOut ((vs.drop (32 * i)).take 32)))
    let el := packBits (elemBits d.fmtOut) (blocks.flatMap (fun p => p.1.map (lowBits (elemBits d.fmtOut))))
    el ++ zeroBytes (padTo 512 el.length - el.length) ++ blocks.map (fun p => BitVec.ofNat 8 p.2)
  else
    packBits (elemBits d.fmtOut) (rows.zipIdx.flatMap (fun e => e.1.zipIdx.map (fun x => finalBits v d.fmtOut (r0 + e.2) x.2 x.1)))

/-- Operations of the epilogue over rows, the first being row `r0`. -/
def epiRun (d : ChainD) (v : ChainEnv) (ops : List ChainOp) (r0 : Nat) (rows : List (List Val)) : List (List Val) :=
  rows.zipIdx.map (fun e => e.1.zipIdx.map (fun x => ops.foldl (fun a op =>
    epiOp v (r0 + e.2) x.2 ((r0 + e.2) * rowStride (match v.xs.getD op.sel none with | some t => t.fmt | none => 0) d.n + x.2) op a) x.1))

/-- What a staged chain holds in its staging area (R230): 4 bytes an element, zeros past the rows. -/
def ChainD.staging (d : ChainD) (rows : List (List Val)) : Bytes :=
  let b := rows.flatMap (fun row => row.flatMap (fun x => match x with
    | .i x => leBytes 4 (lowBits 32 x)
    | .f x => leBytes 4 (fFP32.enc false x)))
  b ++ zeroBytes (4 * d.n * padTo 64 rows.length - b.length)

/-- The operations up to and including ROWSTAT, and the rest. -/
def splitStat (l : List ChainOp) : List ChainOp × List ChainOp :=
  let a := l.takeWhile (fun x => x.code ≠ 0x09)
  (l.take (a.length + 1), l.drop (a.length + 1))

/-- MXE rows issued and useful (R167, R38). -/
def ChainD.mxeRows (d : ChainD) (r : Option Rule) : Nat × Nat :=
  match r with
  | some r => (r.counts.foldl (fun n c => n + padTo 64 c) 0, r.counts.foldl (· + ·) 0)
  | none => if d.main = 0 then (0, 0) else (padTo 64 d.m, d.m)

/-- What the execution of a CHAIN works on: the tile, TAGCHK, the port, the operands found, with their lengths, the rulebook, the rows of
A and of the result. -/
structure ChainRun where
  g : Nat
  chk : Bool
  port : Nat
  out : Opnd
  lenOut : Nat
  xs : List (Option Opnd)
  rule : Option Rule
  rowsA : Nat
  rows : Nat

/-- The operation that names stream `i`. -/
def ChainD.opOf (d : ChainD) (i : Nat) : Option ChainOp := (d.pro ++ d.epi).find? (fun x => x.sel = i)

/-- Stream `i` holds row statistics (R222, R236). -/
def ChainD.isStat (d : ChainD) (i : Nat) : Bool :=
  if d.stat = 1 && i = 0 then true else (d.opOf i).any (fun x => x.code = 0x05 || x.code = 0x09)

/-- The rows that the statistics of stream `i` stand for. -/
def ChainD.statRows (d : ChainD) (c : ChainRun) (i : Nat) : Nat := if d.pro.any (fun x => x.sel = i) then c.rowsA else c.rows

/-- Bytes of stream `i` that the chain reads (R222, R236): a value or pair per channel, a residual per element, an integer REQ's
records of 8 bytes, cs in FP32. -/
def ChainD.lenX (d : ChainD) (c : ChainRun) (i : Nat) (o : Opnd) : Nat :=
  if d.isStat i then statSpan (d.statRows c i)
  else if d.stat = 1 && i = 1 then 4 * d.n
  else match d.opOf i with
    | none => 0
    | some x =>
      let ints (j : Nat) : Bool := (c.xs.getD j none).any (fun o => (intFmt o.fmt).isSome)
      if x.code = 0x0A && d.reqInts ints then 8 * d.n
      else tensorBytes o.fmt (streamLen d c.rows o.fmt (d.pro.any (fun x => x.sel = i)) x)

/-- The pieces in which stream `i` is read: the lines of statistics that hold rows' records, else the whole (R222, R234). -/
def ChainD.pieces (d : ChainD) (c : ChainRun) (i : Nat) (o : Opnd) : List (Opnd × Nat) :=
  if d.isStat i then (statLines (d.statRows c i) 0 (ceilDiv (d.statRows c i) 32)).map (fun p => ({ o with ofs := o.ofs + p }, 512))
  else [(o, d.lenX c i o)]

/-- The first of some checked reads that has to wait. -/
def State.blockedAny (s : State) (c : ChainRun) (l : List (Opnd × Nat)) : Option TWait :=
  l.findSome? (fun p => s.blocked c.g p.1 p.2 c.port c.chk true)

/-- The tag effects of some checked reads. -/
def State.readAll (s : State) (c : ChainRun) (l : List (Opnd × Nat)) : State :=
  l.foldl (fun s p => s.readTags c.g p.1 (p.1.whole p.2) c.chk) s

/-- The streams as the operations read them (R222), the statistics that `planes` hold. -/
def State.chainEnv (s : State) (d : ChainD) (c : ChainRun) (planes : Bytes) (r : Nat) : ChainEnv :=
  { sat := d.sat, sround := d.sround, seed := d.seed, die := c.g / 20, n := d.n, stats := rowStats planes r d.eps,
    raws := c.xs.map (fun x => match x with | some o => s.opRead c.g o 0 o.len | none => []),
    xs := c.xs.zipIdx.map (fun p => match p.1 with
      | some o => if d.stat = 1 && p.2 = 1 then (s.tensor c.g o 0xA d.n).toOption
          else (s.tensor c.g o o.fmt (match d.opOf p.2 with
            | some x => streamLen d c.rows o.fmt (d.pro.any (fun y => y.sel = p.2)) x
            | none => 0)).toOption
      | none => none) }

/-- The statistics of this die's slice written in plane `die` of their stream (R233). -/
def State.putStats (s : State) (d : ChainD) (c : ChainRun) (o : Opnd) (vals : List (List Val)) : State :=
  let pl := statPlane d.nreal c.rows (vals.map (fun row => row.map Val.num))
  let o := { o with ofs := o.ofs + c.g / 20 * 16 * padTo 64 c.rows }
  (s.opWrite c.g o 0 pl).writeTags c.g o pl.length c.chk

/-- The stream a NORM or ROWSTAT names, 3 for none. -/
def statSel (l : List ChainOp) (c : Nat) : Nat := ((l.find? (fun x => x.code = c)).map (fun x => x.sel)).getD 3

/-- The values that a HOLD chain's first pass has stored for rows `r0 .. r0 + n - 1` (R230). -/
def State.stagedRows (s : State) (d : ChainD) (c : ChainRun) (r0 n : Nat) : List (List Val) :=
  let b := s.opRead c.g c.out (4 * d.n * r0) (4 * d.n * n)
  (List.range n).map (fun r => (List.range d.n).map (fun k => .f (fFP32.dec (fieldB b (4 * (d.n * r + k)) 4))))

/-- The second final pass of a HOLD chain (R235): lines of 32 rows ascending from line `k` on, each once its records are there in the
four planes; the operations after ROWSTAT, and each row in FMT_OUT at its own place. -/
def State.holdPass (d : ChainD) (c : ChainRun) (st : Opnd) (later : List (Opnd × Nat)) (ops : List Opnd) : Nat → State → Nat → DRes
  | 0, s, _ => .ok s
  | fuel + 1, s, k =>
    if ceilDiv c.rows 32 ≤ k then .ok (s.readAll c later)
    else
      let recs := (statLines c.rows k 1).map (fun p => ({ st with ofs := st.ofs + p }, 512))
      match s.blockedAny c (recs ++ if k = 0 then later else []) with
      | some w => .wait s w (k + 1) ops
      | none =>
        let n := min 32 (c.rows - 32 * k)
        match s.opsMeet c.g (recs ++ [({ c.out with ofs := c.out.ofs + 128 * d.n * k }, 4 * d.n * n)] ++ if k = 0 then later else []) with
        | (s, true) => .halt s
        | (s, false) =>
          let v := s.chainEnv d c (s.opRead c.g st 0 (statSpan c.rows)) c.rows
          let vals := epiRun d v (splitStat d.epi).2 (32 * k) (s.stagedRows d c (32 * k) n)
          let b := d.outBytes v (32 * k) vals
          let o := { c.out with ofs := c.out.ofs + ceilDiv (32 * k * d.n * elemBits d.fmtOut) 8 }
          let last := ceilDiv c.rows 32 ≤ k + 1
          let s := (s.readAll c recs).opWrite c.g o 0 b
          let n := if last then c.out.whole c.lenOut - (o.ofs - c.out.ofs) else b.length
          State.holdPass d c st later ops fuel (s.writeTags c.g o n c.chk) (k + 1)

/-- Execution of a CHAIN with its operands found (R219 to R236): the product, the deferred normalisation, the epilogue up to ROWSTAT,
its statistics, the staging of a staged chain, the rest of the epilogue and the final write. -/
def State.chainRun (s : State) (g : Nat) (e : QEnt) (d : ChainD) (os : List (Option Opnd)) : Except AccErr DRes := do
  let ops := os.filterMap id
  let linked := e.idx ≠ 0 && (let p := s.descAt g (e.idx - 1); dKind p = 1 && bitOf (dU8 p 41) 2)
  let a0 ← needAt os 0
  let a := if linked then { a0 with tagm := 0 } else a0
  let b := if d.main = 0 then none else os.getD 1 none
  let out ← needAt os 2
  let rb := if d.main = 2 then os.getD 3 none else none
  let rule ← match rb with
    | none => pure none
    | some o => (s.rule g o).map some
  let (rowsA, rows) := d.rows rule
  let c : ChainRun := { g := g, chk := dTagchk e.desc, port := (if d.main = 0 then 1 else 0), out := out, lenOut := tensorBytes d.fmtOut (rows * rowStride d.fmtOut d.n), xs := os.drop 4, rule := rule, rowsA := rowsA, rows := rows }
  let nA := d.elemsA rowsA
  let nB := (match rule with | some r => r.counts.length | none => 1) * padTo 32 d.n * d.k
  let ta ← s.tensor g a d.fmtA nA
  let tb ← match b with
    | none => pure none
    | some o => (s.tensor g o d.fmtB nB).map some
  let xi := c.xs.zipIdx.filterMap (fun p => p.1.map (fun o => (o, p.2)))
  let statI := statSel d.epi 0x09
  if xi.any (fun p => !p.1.fits (max (d.lenX c p.2 p.1) (if p.2 = statI then (g / 20 + 1) * 16 * padTo 64 rows else 0))) then throw .bound
  let staged := d.main = 2 || d.main = 3 || d.stat = 2
  if !out.fits (if staged then max c.lenOut (4 * d.n * padTo 64 rows) else c.lenOut) then throw .bound
  let hold := d.stat = 2
  let (first, rest) := splitStat d.epi
  -- operands that the first pass reads, and streams that only the second pass of HOLD reads
  let late (i : Nat) : Bool := hold && rest.any (fun x => x.sel = i && x.code ≠ 0x05) && !(d.pro ++ first).any (fun x => x.sel = i)
  let lenR := match rb, rule with
    | some o, some r => min (128 + 4 * r.counts.foldl (fun n k => n + padTo 64 k) 0) o.len
    | _, _ => 0
  let ins_ : List (Opnd × Nat) := [(a, tensorBytes d.fmtA nA)] ++ (b.map (fun o => (o, tensorBytes d.fmtB nB))).toList
    ++ (rb.map (fun o => (o, lenR))).toList
    ++ xi.flatMap (fun p => if p.2 = statI || late p.2 then [] else d.pieces c p.2 p.1)
  let later := xi.flatMap (fun p => if late p.2 then d.pieces c p.2 p.1 else [])
  let stat := c.xs.getD statI none
  let plane := stat.map (fun o => ({ o with ofs := o.ofs + g / 20 * 16 * padTo 64 rows } : Opnd))
  if e.phase ≠ 0 then
    match stat with
    | some st => return State.holdPass d c st later ops (rows + 1) s (e.phase - 1)
    | none => throw .badDesc
  match (s.blockedAny c ins_).orElse (fun _ =>
      (plane.bind (fun o => s.blocked g o (16 * padTo 64 rows) c.port c.chk false)).orElse (fun _ =>
        s.blocked g out c.lenOut c.port c.chk false)) with
  | some w => return .wait s w 0 ops
  | none =>
    let (s, ue) := s.opsMeet g (ins_.map (fun p => (p.1, p.1.whole p.2)))
    if ue then return .halt s
    let v0 := s.chainEnv d c [] rows
    let acc := d.product (s.chainEnv d c (v0.raws.getD (statSel d.pro 0x05) []) rowsA) ta tb rule rows
    let acc := if d.stat ≠ 1 then acc
      else acc.zipIdx.map (fun p =>
        let (mu, rs) := rowStats (v0.raws.getD 0 []) rows d.eps p.2
        p.1.zipIdx.map (fun x => Val.f (fmul (fadd x.1.num (fmul mu (((v0.xs.getD 1 none).map (fun t => t.val x.2)).getD Num.zero)).neg) rs)))
    let v1 := epiRun d v0 first 0 acc
    let (iss, use) := d.mxeRows rule
    let s := (s.setTile g (fun x => { x with issued := x.issued + iss, useful := x.useful + use })).readAll c ins_
    let s := match stat with
      | some o => s.putStats d c o v1
      | none => s
    if hold then
      match stat with
      | some st =>
        let s := s.opWrite g out 0 (d.staging (v1.map (fun row => row.map (fun x => Val.f x.num))))
        return State.holdPass d c st later ops (rows + 1) s 0
      | none => throw .badDesc
    else
      let b := d.outBytes v0 0 (epiRun d v0 rest 0 v1)
      let b := if staged then b ++ (d.staging acc).drop b.length else b
      return .ok ((s.lineWrite g out 0 b).writeTags g out (out.whole c.lenOut) c.chk)

/-- A CHAIN descriptor (R145): its operands found, then run. -/
def State.chain (s : State) (g : Nat) (e : QEnt) : DRes :=
  let d := chainD e.desc
  let r : Except AccErr DRes := do
    let os ← s.refs g e [(4, false), (8, d.main = 0), (12, false), (16, d.main ≠ 2), (20, true), (24, true), (28, true)]
    s.chainRun g e d os
  match r with
  | .ok x => x
  | .error x => .stop s x

/-- A CHAIN with main operation `m` (R219). -/
def isChain (m : Nat) (b : Bytes) : Bool := dKind b = 1 && bitsOf (dU8 b 38) 0 4 = m

/-- CHAIN_NONE (R219, R225). -/
def execChainNone (t : Nat) (g : Fin 80) (x : Soft) (s : State) : Out := softRun t g x (fun s => s.descStep g (isChain 0) (fun s e => s.chain g e)) s

/-- CHAIN_DENSE (R180, R181, R219, R220). -/
def execChainDense (t : Nat) (g : Fin 80) (x : Soft) (s : State) : Out := softRun t g x (fun s => s.descStep g (isChain 1) (fun s e => s.chain g e)) s

/-- CHAIN_SPARSE (R129, R219, R220, R230). -/
def execChainSparse (t : Nat) (g : Fin 80) (x : Soft) (s : State) : Out := softRun t g x (fun s => s.descStep g (isChain 2) (fun s e => s.chain g e)) s

/-- CHAIN_DENSE_SM (R219, R220, R232). -/
def execChainDenseSm (t : Nat) (g : Fin 80) (x : Soft) (s : State) : Out := softRun t g x (fun s => s.descStep g (isChain 3) (fun s e => s.chain g e)) s

end Sys2Proof.Machine
end

