-- ==== Sys2Proof/Machine/Select.lean ====
section
/-! DEFINITION. The Select Unit: selection and merge (R148, R239 to R248). -/

namespace Sys2Proof.Machine

/-- A key that takes part: its value, its FP32 value x (R243), its code as OUT holds it, its payload. -/
structure SelKey where
  v : Num
  x : Num
  code : Nat
  pay : Nat
deriving DecidableEq, Repr

/-- Equality of values that are no NaN (R240): zeros are equal. -/
def Num.same (a b : Num) : Bool := !a.isNan && !b.isNan && !a.lt b && !b.lt a

/-- A key of format `c` (R239, R241); none for a NaN. -/
def selKey (c raw pay : Nat) : Option SelKey :=
  let v := decElem c raw
  if v.isNan then none
  else if c = 0x5 then some { v := v, x := rnd32 v, code := raw % 2 ^ 32, pay := pay }
  else some { v := v, x := v, code := fFP32.enc false v, pay := pay }

/-- The sentinel key of a format (R241). -/
def sentinel (c : Nat) : Nat := if c = 0x5 then 0x80000000 else 0xFF800000

/-- Merging two ranked lists, the first holding the earlier keys (R240). -/
def rankMerge : Nat → List SelKey → List SelKey → List SelKey
  | 0, as, bs => as ++ bs
  | _, [], bs => bs
  | _, as, [] => as
  | n + 1, a :: as, b :: bs => if a.v.lt b.v then b :: rankMerge n (a :: as) bs else a :: rankMerge n as (b :: bs)

/-- Keys in rank order, highest first, the earlier of equal keys first (R240); `n` bounds the depth. -/
def rank : Nat → List SelKey → List SelKey
  | 0, l => l
  | n + 1, l =>
    if l.length ≤ 1 then l
    else rankMerge l.length (rank n (l.take (l.length / 2))) (rank n (l.drop (l.length / 2)))

/-- The term of a key (R243). -/
def selTerm (exp : Bool) (vmax : Num) (k : SelKey) : Num :=
  if !exp then k.x else if k.x.same vmax then .fin false 1 0 else expF (fadd k.x vmax.neg)

/-- The fields of a SELECT (R148). -/
structure SelD where
  n : Nat
  k : Nat
  fmt : Nat
  merge : Bool
  exp : Bool
  lists : Nat
  stride : Nat

/-- A SELECT descriptor read. -/
def selD (b : Bytes) : SelD :=
  let m := dU8 b 29
  { n := dU32 b 24, k := dU8 b 28, fmt := m % 16, merge := bitOf m 4, exp := bitOf m 5, lists := dU8 b 30, stride := dU32 b 32 }

/-- OUT (R241): K entries in rank order, sentinels after the last valid one. -/
def selOut (d : SelD) (sel : List SelKey) : Bytes :=
  (sel.flatMap (fun k => leBytes 4 k.code ++ leBytes 4 k.pay)) ++
    (List.replicate (d.k - sel.length) (leBytes 4 (sentinel d.fmt) ++ leBytes 4 0xFFFFFFFF)).flatten

/-- STAT (R242). -/
def selStat (d : SelD) (sel rest : List SelKey) (total vmax : Num) (nDup nIn flags : Nat) : Bytes :=
  let sum := sel.foldl (fun a k => fadd a (selTerm d.exp vmax k)) Num.zero
  let tie := if sel.length = d.k then
      (match sel.getLast? with | some l => (rest.filter (fun r => r.v.same l.v)).length | none => 0) else 0
  let w (x : Num) := leBytes 4 (fFP32.enc false x)
  leBytes 4 sel.length ++ w sum ++ w (fadd total sum.neg) ++ leBytes 4 tie ++
    leBytes 4 (b2n (decide (0 < tie)) + b2n (nIn = 0) * 2 + b2n d.exp * 4 + flags) ++ w vmax ++ leBytes 4 nDup ++ leBytes 4 nIn

/-- The largest value of ranked keys, minus infinity where there is none (R242). -/
def topX (l : List SelKey) : Num := ((l.head?).map (fun k => k.x)).getD (.inf true)

/-- A selection over keys, payloads and mask (R239 to R243): OUT and STAT. -/
def selection (d : SelD) (keys pays mask : Option Bytes) : Bytes × Bytes :=
  let w := elemBits d.fmt / 8
  let ka := (keys.getD []).toArray
  let raw (i : Nat) := leNat ((List.range w).map (fun k => ka.getD (i * w + k) 0))
  let pa := (pays.getD []).toArray
  let pay (i : Nat) := match pays with
    | none => i
    | some _ => leNat ((List.range 4).map (fun k => pa.getD (i * 4 + k) 0))
  let ma := (mask.getD []).toArray
  let masked (i : Nat) := bitOf (ma.getD (i / 8) 0).toNat (i % 8)
  let valid := (List.range d.n).filterMap (fun i => if masked i then none else selKey d.fmt (raw i) (pay i))
  let ranked := rank 17 valid
  let vmax := topX ranked
  let total := valid.foldl (fun a k => fadd a (selTerm d.exp vmax k)) Num.zero
  let sel := ranked.take d.k
  (selOut d sel, selStat d sel (ranked.drop d.k) total vmax 0 valid.length 0)

/-- A list's record (R245). -/
structure ListRec where
  nValid : Nat
  sumSel : Num
  sumRest : Num
  flags : Nat
  vmax : Num
  nIn : Nat

/-- The record of a partial list read. -/
def listRec (b : Bytes) : ListRec :=
  let f (o : Nat) := fFP32.dec (fieldB b o 4)
  { nValid := fieldB b 0 4, sumSel := f 4, sumRest := f 8, flags := fieldB b 16 4, vmax := f 20, nIn := fieldB b 28 4 }

/-- Candidates that stay (true) and that are dropped as duplicates (false), by their place: of the candidates of one
payload that of highest rank stays (R246). -/
def keepCand (cand : List SelKey) : List (SelKey × Bool) :=
  let ranked := rank 17 (cand.zipIdx.map (fun e => { e.1 with code := e.2 }))
  let firsts := ranked.foldl (fun (p : List Nat × List Nat) k => if p.1.contains k.pay then p else (k.pay :: p.1, k.code :: p.2)) ([], [])
  cand.zipIdx.map (fun e => (e.1, firsts.2.contains e.2))

/-- A merge of partial lists (R245 to R247): OUT and STAT. -/
def mergeLists (d : SelD) (lists : List (Bytes × Bytes)) : Bytes × Bytes :=
  let recs := lists.map (fun l => listRec l.2)
  let vmax := match recs with
    | [] => Num.inf true
    | r :: rs => rs.foldl (fun m x => m.max2 x.vmax) r.vmax
  let total := recs.foldl (fun t r =>
    let f : Num := if !d.exp || r.vmax.same vmax then .fin false 1 0 else expF (fadd r.vmax vmax.neg)
    fadd (fadd t (fmul r.sumSel f)) (fmul r.sumRest f)) Num.zero
  let cand := (lists.zip recs).flatMap (fun e => (List.range (min e.2.nValid d.n)).filterMap (fun j =>
    selKey d.fmt (fieldB e.1.1 (8 * j) 4) (fieldB e.1.1 (8 * j + 4) 4)))
  let kept := keepCand cand
  let dropped := (kept.filter (fun e => !e.2)).map Prod.fst
  let total := dropped.foldl (fun t k => fadd t (selTerm d.exp vmax k).neg) total
  let ranked := rank 17 ((kept.filter (fun e => e.2)).map Prod.fst)
  let flags := 8 + b2n (recs.any (fun r => bitOf r.flags 0)) * 16 + b2n (recs.any (fun r => bitOf r.flags 2 != d.exp)) * 32
  let nIn := satU 32 (recs.foldl (fun n r => n + r.nIn) 0 - dropped.length)
  (selOut d (ranked.take d.k), selStat d (ranked.take d.k) (ranked.drop d.k) total vmax dropped.length nIn flags)

/-- A SELECT descriptor (R148): the inputs, in a merge list by list, are read before the outputs are written. -/
def State.select (s : State) (g : Nat) (e : QEnt) : DRes :=
  let d := selD e.desc
  let tagchk := dTagchk e.desc
  let span := padTo 512 (8 * d.n) + 32
  let r : Except AccErr DRes := do
    let os ← s.refs g e [(4, false), (8, true), (12, false), (16, false), (20, true)]
    let ops := os.filterMap id
    let key ← needAt os 0
    let pay := os.getD 1 none
    let out ← needAt os 2
    let stat ← needAt os 3
    let mask := os.getD 4 none
    let list (i : Nat) : Opnd := { key with ofs := key.ofs + i * d.stride }
    let keys : List (Opnd × Nat) := if d.merge then (List.range d.lists).map (fun i => (list i, span)) else [(key, d.n * (elemBits d.fmt / 8))]
    let ins_ := keys ++ (pay.map (fun o => (o, 4 * d.n))).toList ++ (mask.map (fun o => (o, ceilDiv d.n 8))).toList
    let lenO := if out.wide then padTo 512 (8 * d.k) else 8 * d.k
    let lenS := if stat.wide then 512 else 32
    let outs : List (Opnd × Nat) := [(out, lenO), (stat, lenS)]
    if (ins_ ++ outs).any (fun p => !p.1.fits p.2) then throw .bound
    -- inputs are read before outputs are written, so an output over an input waits for the line that reading empties
    match ins_.findSome? (fun p => s.blocked g p.1 p.2 1 tagchk true) with
    | some w => return .wait s w 0 ops
    | none =>
      let (s, ue) := s.opsMeet g (ins_.map (fun p => (p.1, p.1.whole p.2)))
      if ue then return .halt s
      let rd (o : Opnd) (n : Nat) := s.opRead g o 0 n
      let (o, st) := if d.merge then mergeLists d ((List.range d.lists).map (fun i =>
            (rd (list i) (8 * d.n), s.opRead g (list i) (padTo 512 (8 * d.n)) 32)))
        else selection d (some (rd key (d.n * (elemBits d.fmt / 8)))) (pay.map (fun p => rd p (4 * d.n))) (mask.map (fun p => rd p (ceilDiv d.n 8)))
      let s1 := ins_.foldl (fun s p => s.readTags g p.1 (p.1.whole p.2) tagchk) s
      match outs.findSome? (fun p => s1.blocked g p.1 p.2 1 tagchk false) with
      | some w => return .wait s w 0 ops
      | none =>
        let fill (b : Bytes) (n : Nat) := b ++ zeroBytes (n - b.length)
        let s := (s1.opWrite g out 0 (fill o lenO)).writeTags g out lenO tagchk
        return .ok ((s.opWrite g stat 0 (fill st lenS)).writeTags g stat lenS tagchk)
  match r with
  | .ok x => x
  | .error x => .stop s x

/-- A SELECT, with or without MERGE (R148). -/
def isSelect (merge : Bool) (b : Bytes) : Bool := dKind b = 4 && bitOf (dU8 b 29) 4 = merge

/-- SELECT (R239 to R244). -/
def execSelect (t : Nat) (g : Fin 80) (x : Soft) (s : State) : Out := softRun t g x (fun s => s.descStep g (isSelect false) (fun s e => s.select g e)) s

/-- MERGE (R245 to R248). -/
def execMerge (t : Nat) (g : Fin 80) (x : Soft) (s : State) : Out := softRun t g x (fun s => s.descStep g (isSelect true) (fun s e => s.select g e)) s

end Sys2Proof.Machine
end

