-- ==== Sys2Proof/Machine/Move.lean ====
section
/-! DEFINITION. GATHER and MOVE: local copies, DRAM regions, rings, remote windows, conversions, the exchange between dies, and
the arrivals they cause (R146, R147, R164 to R166, R190, R202, R209, R211 to R213, R338, R339). -/

namespace Sys2Proof.Machine

/-! ### Accesses of a tile to DRAM (R338, R339) -/

/-- A tile's read of `n` bytes of DRAM (R338, R339, R378); none where it returns no data. -/
def State.dramRead (s : State) (die addr n part : Nat) : Option Bytes × State :=
  if !s.dramOk die addr n part false false then (none, s.dramViol die addr part false)
  else
    let (e, inj, s) := s.dramInject die .clean
    match e with
    | .clean => (some (Mem.bytes s.dram (die * 2 ^ 31 + addr) n), s)
    | .corrected => (some (Mem.bytes s.dram (die * 2 ^ 31 + addr) n), s.dramCe die addr false inj)
    | .uncorrectable => (none, (s.dramUeInfo die addr false).raise (DRAM.EVT_UE die) 2 (2 ^ part) inj)

/-- A tile's write of DRAM. -/
def State.dramWrite (s : State) (die addr part : Nat) (b : Bytes) : State :=
  if s.dramOk die addr b.length part true false then { s with dram := Mem.store s.dram (die * 2 ^ 31 + addr) b }
  else s.dramViol die addr part true

/-! ### Ends of a transfer (R147) -/

/-- An end of a MOVE: an operand or ring of the tile and whether it is checked, an address of a DRAM die, a window of a tile
with the offset in it. -/
inductive MEnd where
  | opnd (o : Opnd) (chk : Bool) (port : Nat)
  | dram (die addr : Nat)
  | win (tile w ofs : Nat)

/-- An operand from position `p` on. -/
def Opnd.from_ (o : Opnd) (p : Nat) : Opnd := { o with ofs := o.ofs + p }

/-- The wait of `n` bytes from position `i` on at an end, read (`full`) or written. -/
def State.endWait (s : State) (g : Nat) (m : MEnd) (i n : Nat) (full : Bool) : Option TWait :=
  match m with
  | .opnd o chk port => s.blocked g (o.from_ i) n port chk full
  | .dram _ _ => none
  | .win t w ofs =>
    let ln := (s.get (WIN.BASE_ADDR t w) + ofs + i) / 512
    let busy := s.full t ln || (s.tile t).win.any (fun p =>
      (linesOf (s.get (WIN.BASE_ADDR t p.win) + p.ofs) p.data.length).contains ln)
    if s.get (WIN.ATTR_TAGM t w) ≠ 0 && busy then
      some { kind := 6, line := ln % 2 ^ 13, port := 2, at_ := s.mono, sync := false, tile := t }
    else none

/-- `n` bytes read from position `i` on, and the tag effect; none where no data comes; `true` where the program has been
stopped. -/
def State.endRead (s : State) (g : Nat) (m : MEnd) (i n : Nat) : Option Bytes × Bool × State :=
  match m with
  | .opnd o chk _ =>
    let p := o.from_ i
    match s.opMeet g p 0 n with
    | (s, true) => (none, true, s)
    | (s, false) => (some (s.opRead g p 0 n), false, s.readTags g p n chk)
  | .dram die addr => let (b, s) := s.dramRead die (addr + i) n (s.tilePart g); (b, false, s)
  | .win _ _ _ => (none, false, s)

/-- Bytes written from position `i` on, and the tag effect; a remote write is sent as a piece. -/
def State.endWrite (s : State) (g : Nat) (e : QEnt) (m : MEnd) (i : Nat) (b : Bytes) : State :=
  match m with
  | .opnd o chk _ => ((s.wordWrite g (o.from_ i) 0 b).writeTags g (o.from_ i) (padTo 8 b.length) chk)
  | .dram die addr => s.dramWrite die (addr + i) (s.tilePart g) b
  | .win t w ofs => s.setTile t (fun x =>
      { x with win := x.win ++ [{ src := g, xfer := e.n, win := w, ofs := ofs + i, part := s.tilePart g, data := b }] })

/-- Bytes from position `i` on that lie in one line at an end. -/
def State.endRoom (s : State) (m : MEnd) (i : Nat) : Nat :=
  match m with
  | .opnd o _ _ => 512 - o.addr i % 512
  | .dram _ addr => 512 - (addr + i) % 512
  | .win t w ofs => 512 - (s.get (WIN.BASE_ADDR t w) + ofs + i) % 512

/-- A linear transfer from byte `i` on, a line at a time (R147, R204). -/
def State.moveGo (g : Nat) (e : QEnt) (src dst : MEnd) (len : Nat) (ops : List Opnd) : Nat → State → Nat → DRes
  | 0, s, _ => .ok s
  | fuel + 1, s, i =>
    if len ≤ i then .ok s
    else
      let n := min (len - i) (min (s.endRoom src i) (s.endRoom dst i))
      match (s.endWait g src i n true).orElse (fun _ => s.endWait g dst i n false) with
      | some w => .wait s w i ops
      | none =>
        match s.endRead g src i n with
        | (_, true, s) => .halt s
        | (none, _, s) => .ok s
        | (some b, _, s) => State.moveGo g e src dst len ops fuel (s.endWrite g e dst i b) (i + n)

/-! ### Conversions of MOVE (R147, R175, R183) -/

/-- Values to BS8 blocks: the elements and the scale bytes. -/
def toBs8 (v : List Num) : Bytes × Bytes :=
  let blocks := (List.range (ceilDiv v.length 32)).map (fun i =>
    let l := (v.drop (32 * i)).take 32
    toBlock 0xC (l ++ List.replicate (32 - l.length) Num.zero))
  (blocks.flatMap (fun p => p.1.map (fun x => BitVec.ofNat 8 (lowBits 8 x))), blocks.map (fun p => BitVec.ofNat 8 p.2))

/-- The values of a byte string in FP32 (`conv` 1) or FP16 (2). -/
def fromFp (conv : Nat) (b : Bytes) : List Num :=
  let w := if conv = 1 then 4 else 2
  let f := if conv = 1 then fFP32 else fFP16
  (List.range (b.length / w)).map (fun i => f.dec (fieldB b (w * i) w))

/-- The values of BS8 elements and their scale bytes. -/
def fromBs8 (el sc : Bytes) : List Num :=
  el.zipIdx.map (fun e => decBlockElem 0xC e.1.toNat (sc.getD (e.2 / 32) 0).toNat)

/-- Bytes that `n` source bytes become, and their scale bytes, under a conversion. -/
def convLen (conv n : Nat) : Nat × Nat :=
  match conv with
  | 1 => (padTo 32 (n / 4), ceilDiv (n / 4) 32)
  | 2 => (padTo 32 (n / 2), ceilDiv (n / 2) 32)
  | 3 => (4 * n, ceilDiv n 32)
  | 4 => (2 * n, ceilDiv n 32)
  | _ => (n, 0)

/-- Source bytes converted; `sc` holds the scale bytes read. -/
def convBytes (conv : Nat) (b sc : Bytes) : Bytes × Bytes :=
  match conv with
  | 1 => toBs8 (fromFp 1 b)
  | 2 => toBs8 (fromFp 2 b)
  | 3 => ((fromBs8 b sc).flatMap (fun x => leBytes 4 (fFP32.enc true x)), [])
  | 4 => ((fromBs8 b sc).flatMap (fun x => leBytes 2 (fFP16.enc true x)), [])
  | _ => (b, [])

/-- Writing a whole byte string at an end: one wait, or the state after it. -/
def State.putAll (s : State) (g : Nat) (e : QEnt) (m : MEnd) (b : Bytes) : Nat → Nat → State
  | 0, _ => s
  | fuel + 1, i =>
    if b.length ≤ i then s
    else
      let n := min (b.length - i) (s.endRoom m i)
      (s.endWrite g e m i (sliceB b i n)).putAll g e m b fuel (i + n)

/-- The first wait of `n` bytes at an end. -/
def State.waitAll (s : State) (g : Nat) (m : MEnd) (n : Nat) (full : Bool) : Option TWait :=
  (List.range (ceilDiv n 512 + 1)).findSome? (fun k => if k * 512 < n then s.endWait g m (k * 512) (min 512 (n - k * 512)) full else none)

/-- A transfer of whole segments (position, length) of a source, converted on the way (R147, R175, R213): it starts when every
line is there. `re` arranges the bytes read. -/
def State.moveWhole (s : State) (g : Nat) (e : QEnt) (src dst : MEnd) (segs : List (Nat × Nat)) (conv : Nat) (scl : Option Opnd)
    (chk : Bool) (re : Bytes → Bytes) (ops : List Opnd) : DRes :=
  let total := segs.foldl (fun n p => n + p.2) 0
  let (dl, sl) := convLen conv total
  let swrite := conv = 1 || conv = 2
  let sEnd : Option MEnd := scl.map (fun o => .opnd o chk 3)
  let wait := (segs.findSome? (fun p => s.endWait g src p.1 p.2 true)).orElse (fun _ =>
    (sEnd.bind (fun m => s.endWait g m 0 sl (!swrite))).orElse (fun _ => s.waitAll g dst dl false))
  match wait with
  | some w => .wait s w 0 ops
  | none =>
    let (b, halt, s) := segs.foldl (fun (p : Option Bytes × Bool × State) q =>
      if p.2.1 then p else
      match p.1 with
      | none => p
      | some acc =>
        let (r, h, s) := p.2.2.endRead g src q.1 q.2
        (r.map (fun x => acc ++ x), h, s)) (some [], false, s)
    if halt then .halt s
    else match b with
      | none => .ok s
      | some b =>
        let (sc, halt, s) := if swrite || sEnd.isNone then (([] : Bytes), false, s)
          else match s.endRead g (sEnd.getD src) 0 sl with | (r, h, s) => (r.getD [], h, s)
        if halt then .halt s
        else
          let (out, osc) := convBytes conv (re b) sc
          let s := s.putAll g e dst out (out.length + 1) 0
          .ok (match sEnd with
            | some m => if swrite then s.endWrite g e m 0 osc else s
            | none => s)

/-- Block `b` of a transposed move (R213): `n` rows of `n` values of `w` bytes, each row `n·w` bytes of the string. -/
def transposeBlocks (n w cnt : Nat) (b : Bytes) : Bytes :=
  let a := b.toArray
  (List.range cnt).flatMap (fun k => (List.range n).flatMap (fun j => (List.range n).flatMap (fun i =>
    (List.range w).map (fun x => a.getD (k * n * n * w + i * n * w + j * w + x) 0))))

/-- The segments of a strided or transposed move (R213). -/
def moveSegs (mode len stride cnt : Nat) : List (Nat × Nat) :=
  if mode = 1 then (List.range cnt).map (fun b => (b * stride, len))
  else
    let rows := if mode = 2 then 32 else 16
    (List.range cnt).flatMap (fun b => (List.range rows).map (fun i => (b * 32 + i * stride, 32)))

/-- The source and destination of a MOVE of modes 0 to 3 found (R147, R208). -/
def State.moveEnds (s : State) (g : Nat) (e : QEnt) (span dl : Nat) : Except AccErr (MEnd × MEnd × List Opnd) := do
  let b := e.desc
  let chk := dTagchk b
  let ssp := dU8 b 16
  let dsp := dU8 b 17
  let r := dU8 b 26 % 4
  let region := dU8 b 30
  let dram : MEnd := .dram (region / 16 % 2) ((if region < 32 then s.get (SI.REGION_BASE_MIB region) * 2 ^ 20 else 2 ^ 31) + dU32 b 36)
  let kept (i : Nat) (fresh : Except AccErr Opnd) : Except AccErr Opnd :=
    match e.ops[i]? with
    | some o => .ok o
    | none => fresh
  let need (o : Nat) : Except AccErr Opnd := (s.refsFrom g e [(o, false)] []).bind (fun l => needAt l 0)
  let so ← if ssp = 0 then kept 0 (need 4)
    else if ssp = 2 then kept 0 (if s.on (RING.CFG_EN g r) then .ok (s.ringOpnd g r 1) else .error .badDesc) else pure (s.ringOpnd g 0 1)
  let doo ← if dsp = 0 then kept 1 (need 8)
    else if dsp = 2 then kept 1 (if s.on (RING.CFG_EN g r) then .ok (s.ringOpnd g r 2) else .error .badDesc) else pure (s.ringOpnd g 0 1)
  if ssp = 0 && !so.fits span then throw .bound
  if dsp = 0 && !doo.fits dl then throw .bound
  if ssp = 1 && dsp = 0 && doo.tagm = 0 then throw .badDesc
  let wofs := match s.oprefAt g e 8 with
    | some (_, o) => o.toNat
    | none => 0
  if dsp = 3 && decide (80 ≤ dU16 b 28) then throw .badDesc
  let src : MEnd := if ssp = 1 then dram else .opnd so chk 3
  let dst : MEnd := if dsp = 1 then dram else if dsp = 3 then .win (dU16 b 28) (dU8 b 27 % 8) wofs
    else .opnd doo (chk || ssp = 1) (if ssp = 1 then 2 else 3)
  return (src, dst, [so, doo])

/-- MOVE in modes 0 to 3 (R147, R213). -/
def State.move (s : State) (g : Nat) (e : QEnt) : DRes :=
  let b := e.desc
  let mode := dU8 b 18
  let conv := dU8 b 19
  let len := dU32 b 12
  let segs := if mode = 0 then [(0, len)] else moveSegs mode len (dU32 b 20) (dU16 b 24)
  let span := segs.foldl (fun m p => max m (p.1 + p.2)) 0
  let total := segs.foldl (fun n p => n + p.2) 0
  let (dl, sl) := convLen conv total
  let kept (i o : Nat) : Except AccErr Opnd :=
    match e.ops[i]? with
    | some x => .ok x
    | none => (s.refsFrom g e [(o, false)] []).bind (fun l => needAt l 0)
  let scl : Except AccErr (Option Opnd) :=
    if conv = 0 || decide (4 < conv) then .ok none
    else match kept 2 32 with
      | .error x => .error x
      | .ok o => if o.fits sl then .ok (some o) else .error .bound
  let r : Except AccErr DRes := do
    let (src, dst, ops) ← s.moveEnds g e span dl
    let sc ← scl
    let ops := ops ++ sc.toList
    if mode = 0 && conv = 0 then return State.moveGo g e src dst len ops (len + 1) s e.phase
    let re : Bytes → Bytes := if mode = 2 then transposeBlocks 32 1 (dU16 b 24) else if mode = 3 then transposeBlocks 16 2 (dU16 b 24) else id
    return s.moveWhole g e src dst segs conv sc (dTagchk b) re ops
  match r with
  | .ok x => x
  | .error x => .stop s x

/-- A MOVE of a mode (R147). -/
def isMove (mode : Nat) (b : Bytes) : Bool := dKind b = 3 && dU8 b 18 = mode

/-- MOVE_LINEAR (R147, R211). -/
def execMoveLinear (t : Nat) (g : Fin 80) (x : Soft) (s : State) : Out := softRun t g x (fun s => s.descStep g (isMove 0) (fun s e => s.move g e)) s

/-- MOVE_STRIDED (R213). -/
def execMoveStrided (t : Nat) (g : Fin 80) (x : Soft) (s : State) : Out := softRun t g x (fun s => s.descStep g (isMove 1) (fun s e => s.move g e)) s

/-- MOVE_TRANSPOSED_INT8 (R213). -/
def execMoveTransposedInt8 (t : Nat) (g : Fin 80) (x : Soft) (s : State) : Out := softRun t g x (fun s => s.descStep g (isMove 2) (fun s e => s.move g e)) s

/-- MOVE_TRANSPOSED_FP16 (R213). -/
def execMoveTransposedFp16 (t : Nat) (g : Fin 80) (x : Soft) (s : State) : Out := softRun t g x (fun s => s.descStep g (isMove 3) (fun s e => s.move g e)) s

/-! ### GATHER (R146) -/

/-- Index `i` of a GATHER, none for all ones. -/
def gatherIdx (form : Nat) (b : Bytes) : Option Nat :=
  let w := if form = 0 then fieldB b 0 2 else fieldB b 0 4
  let v := match form with
    | 2 => w % 2 ^ 16
    | 3 => w / 2 ^ 16
    | _ => w
  if v = (if form = 1 then 2 ^ 32 - 1 else 2 ^ 16 - 1) then none else some v

/-- Rows of a GATHER from index `k` on, in index order. -/
def State.gatherGo (g : Nat) (src idx dst : Opnd) (form rowB count : Nat) (chk : Bool) (ops : List Opnd) : Nat → State → Nat → DRes
  | 0, s, _ => .ok s
  | fuel + 1, s, k =>
    if count ≤ k then .ok s
    else
      let iw := if form = 0 then 2 else 4
      let ix := idx.from_ (k * iw)
      let out := dst.from_ (k * rowB)
      match s.blocked g ix iw 3 chk true with
      | some w => .wait s w k ops
      | none =>
        match s.opMeet g ix 0 iw with
        | (s, true) => .halt s
        | (s, false) =>
          match gatherIdx form (s.opRead g ix 0 iw) with
          | none =>
            match s.blocked g out rowB 3 chk false with
            | some w => .wait s w k ops
            | none =>
              let s := s.readTags g ix iw chk
              State.gatherGo g src idx dst form rowB count chk ops fuel ((s.opWrite g out 0 (zeroBytes rowB)).writeTags g out rowB chk) (k + 1)
          | some i =>
            let row := src.from_ (i * rowB)
            if decide (src.len / rowB ≤ i) || !src.fits ((i + 1) * rowB) then .stop s .bound
            else match (s.blocked g row rowB 3 chk true).orElse (fun _ => s.blocked g out rowB 3 chk false) with
              | some w => .wait s w k ops
              | none =>
                match s.opMeet g row 0 rowB with
                | (s, true) => .halt s
                | (s, false) =>
                  let b := s.opRead g row 0 rowB
                  let s := (s.readTags g ix iw chk).readTags g row rowB chk
                  State.gatherGo g src idx dst form rowB count chk ops fuel ((s.opWrite g out 0 b).writeTags g out rowB chk) (k + 1)

/-- GATHER (R146). -/
def State.gatherRows (s : State) (g : Nat) (e : QEnt) : DRes :=
  let b := e.desc
  let rowB := max 1 (dU16 b 16)
  let count := dU16 b 18
  let form := dU8 b 20 % 4
  let r : Except AccErr DRes := do
    let os ← s.refs g e [(4, false), (8, false), (12, false)]
    let src ← needAt os 0
    let idx ← needAt os 1
    let dst ← needAt os 2
    if !idx.fits (count * (if form = 0 then 2 else 4)) || !dst.fits (count * rowB) then throw .bound
    return State.gatherGo g src idx dst form rowB count (dTagchk b) [src, idx, dst] (count + 1) s e.phase
  match r with
  | .ok x => x
  | .error x => .stop s x

/-- GATHER (R146). -/
def execGather (t : Nat) (g : Fin 80) (x : Soft) (s : State) : Out :=
  softRun t g x (fun s => s.descStep g (fun b => dKind b = 2) (fun s e => s.gatherRows g e)) s

/-! ### The exchange between dies (R164 to R166) -/

/-- The tiles with the same local number on the next and on the previous die (R34). -/
def nextDie (g : Nat) : Nat := (g + 20) % 80
def prevDie (g : Nat) : Nat := (g + 60) % 80

/-- A block or piece sent to the next die. -/
def State.ringSend (s : State) (g : Nat) (k : RingBlk) : State := s.setTile (nextDie g) (fun x => { x with xin := x.xin ++ [k] })

/-- The receiver's ring has no room (R209). -/
def State.ringNoRoom (s : State) (g : Nat) : Option TWait :=
  let n := nextDie g
  if s.get (RING.SIZE_LINES n 1) ≤ s.ringOcc n 1 then
    some { kind := 4, line := s.get (RING.BASE_ADDR n 1) / 512 % 2 ^ 13, port := 3, at_ := s.mono, sync := false, tile := n }
  else none

/-- A sender that begins to wait on the receiver's full ring counts there (R216). -/
def State.ring1Wait (s : State) (g : Nat) (e : QEnt) : State :=
  match e.wait with
  | some _ => s
  | none => s.bump (RING.EVT_CNT (nextDie g) 1)

/-- The handle and offset of an operand reference as the block carries it. -/
def State.refOf (s : State) (g : Nat) (e : QEnt) (o : Nat) : Nat × Nat :=
  match s.oprefAt g e o with
  | some (h, x) => (h, x.toNat)
  | none => (0, 0)

/-- Where a piece lands: the operand, in lines that are always tagged, checked as a TDM-R arrival (R166, R203, R208, R209). -/
def State.landAt (s : State) (g : Nat) (k : RingBlk) : Except AccErr Opnd :=
  match s.operand g k.ref.1 k.ref.2 k.part with
  | .error x => .error x
  | .ok o => if (o.from_ k.ofs).fits k.el.length then .ok { o.from_ k.ofs with tagm := max 1 o.tagm, ring := some 1 } else .error .bound

/-- The wait of a piece for its landing lines on tile `n` to be empty (R202). -/
def State.landWait (s : State) (n : Nat) (k : RingBlk) : Option TWait :=
  match s.landAt n k with
  | .error _ => none
  | .ok o => (s.blockedLine n o k.el.length true false).map (fun l =>
      { kind := 6, line := l, port := 3, at_ := s.mono, sync := false, tile := n })

/-- A slice's bytes cut where the lines of its landing place, `ofs` bytes from the handle's offset, begin. -/
def ringPieces (d part : Nat) (ref : Nat × Nat) (ofs : Nat) (b : Bytes) : List RingBlk :=
  let at_ := ref.2 + ofs
  (linesOf at_ b.length).map (fun l =>
    let i := max at_ (l * 512)
    { sum := false, slice := d, hop := 1, part := part, ref := ref, ofs := i - ref.2, el := sliceB b (i - at_) (min (at_ + b.length) ((l + 1) * 512) - i) })

/-- The pieces of an all-gather sent from piece `i` on, each once its line is empty and the receiver's ring has room (R166, R209). -/
def State.piecesSend (g : Nat) (e : QEnt) (ops : List Opnd) (done : State → State) : List RingBlk → State → Nat → DRes
  | [], s, _ => .ok (done s)
  | k :: ks, s, i =>
    match s.ringNoRoom g with
    | some w => .wait (s.ring1Wait g e) w i ops
    | none =>
      match s.landWait (nextDie g) k with
      | some w => .wait s w i ops
      | none => State.piecesSend g e ops done ks (s.ringSend g k) (i + 1)

/-- MOVE in mode 4, all-gather (R164): the own slice stored, then sent a line at a time; phase `i + 1` has sent `i` pieces. -/
def State.allGather (s : State) (g : Nat) (e : QEnt) : DRes :=
  let b := e.desc
  let len := dU32 b 12
  let conv := dU8 b 19
  let chk := dTagchk b
  let d := g / 20
  let (dl, sl) := convLen conv len
  let r : Except AccErr DRes := do
    let os ← s.refs g e [(4, false), (8, false), (32, false)]
    let src ← needAt os 0
    let dst ← needAt os 1
    let scl ← needAt os 2
    let ops := [src, dst, scl]
    if !src.fits len || !dst.fits (4 * dl) || !scl.fits (4 * sl) then throw .bound
    let dEnd : MEnd := .opnd (dst.from_ (d * dl)) chk 3
    let sEnd : MEnd := .opnd (scl.from_ (d * sl)) chk 3
    let wait := if e.phase ≠ 0 then none
      else (s.blocked g src len 3 chk true).orElse (fun _ => (s.waitAll g dEnd dl false).orElse (fun _ => s.waitAll g sEnd sl false))
    match wait with
    | some w => return .wait s w 0 ops
    | none =>
      let (s, ue) := s.opMeet g src 0 len
      if ue then return .halt s
      let (el, sc) := convBytes conv (s.opRead g src 0 len) []
      let part := s.tilePart g
      let ks := ringPieces d part (s.refOf g e 8) (d * dl) el ++ ringPieces d part (s.refOf g e 32) (d * sl) sc
      let s := if e.phase ≠ 0 then s else (s.putAll g e dEnd el (el.length + 1) 0).putAll g e sEnd sc (sc.length + 1) 0
      return State.piecesSend g e ops (fun s => s.readTags g src len chk) (ks.drop (e.phase - 1)) s (max 1 e.phase)
  match r with
  | .ok x => x
  | .error x => .stop s x

/-- The region of RING[1] from a byte on, as its consumer sees it (R209). -/
def State.ring1At (s : State) (g pos : Nat) : Opnd :=
  { base := s.get (RING.BASE_ADDR g 1), len := s.get (RING.SIZE_LINES g 1) * 512, ofs := pos, wrap := true, wide := true, fmt := 0,
    tagm := 2, ring := some 1 }

/-- The bytes of RING[1] that a partial sum takes: its elements and its scale bytes, each in whole lines. -/
def sumBytes (nEl nSc : Nat) : Nat := padTo 512 nEl + padTo 512 nSc

/-- MOVE in mode 5, reduce-scatter (R165): step 0 sends s1 of the previous die's slice, steps 1 to 3 take the partial sums
that have landed in RING[1]; slice `j` of SRC lies at byte `j·LEN`. -/
def State.reduceScatter (g : Nat) (e : QEnt) : Nat → State → Nat → DRes
  | 0, s, _ => .ok s
  | fuel + 1, s, step =>
    let b := e.desc
    let len := dU32 b 12
    let conv := dU8 b 19
    let chk := dTagchk b
    let d := g / 20
    let r : Except AccErr DRes := do
      let os ← s.refs g e [(4, false), (8, false)]
      let src ← needAt os 0
      let dst ← needAt os 1
      let ops := [src, dst]
      if !src.fits (4 * len) || !dst.fits (len * (if conv = 1 then 1 else 2)) then throw .bound
      let own (s : State) (j : Nat) : List Num := fromFp conv (s.opRead g (src.from_ (j * len)) 0 len)
      let mk (s : State) (j hop : Nat) (v : List Num) : State :=
        let (el, sc) := toBs8 v
        s.ringSend g { sum := true, slice := j, hop := hop, part := s.tilePart g, el := el, sc := sc }
      if step = 0 then
        match s.blocked g src (4 * len) 3 chk true with
        | some w => return .wait s w 0 ops
        | none =>
          match s.ringNoRoom g with
          | some w => return .wait (s.ring1Wait g e) w 0 ops
          | none =>
            let (s, ue) := s.opMeet g src ((d + 3) % 4 * len) len
            if ue then return .halt s
            return State.reduceScatter g e fuel (mk s ((d + 3) % 4) 1 (own s ((d + 3) % 4))) 1
      else
        match (s.tile g).xgot with
        | [] => return .wait s { kind := 5, line := s.get (RING.BASE_ADDR g 1) / 512 % 2 ^ 13, port := 3, at_ := s.mono, sync := false } step ops
        | k :: rest =>
          let full := if k.hop < 3 then (s.ringNoRoom g).map (fun w => (s.ring1Wait g e, w)) else (s.blocked g dst (4 * k.nEl) 3 chk false).map (fun w => (s, w))
          match full with
          | some (s, w) => return .wait s w step ops
          | none =>
            let el := s.ring1At g k.pos
            let sc := s.ring1At g (k.pos + padTo 512 k.nEl)
            let (s, ue) := s.opsMeet g [(el, k.nEl), (sc, k.nSc), (src.from_ (k.slice * len), len)]
            if ue then return .halt s
            let sum := List.zipWith fadd (fromBs8 (s.opRead g el 0 k.nEl) (s.opRead g sc 0 k.nSc)) (own s k.slice)
            let s := (s.setTile g (fun x => { x with xgot := rest })).readTags g el (sumBytes k.nEl k.nSc) true
            if k.hop < 3 then return State.reduceScatter g e fuel (mk s k.slice (k.hop + 1) sum) (step + 1)
            else
              let out := sum.flatMap (fun x => leBytes 4 (fFP32.enc false x))
              let s := s.readTags g src (4 * len) chk
              return .ok ((s.wordWrite g dst 0 out).writeTags g dst (padTo 8 out.length) chk)
    match r with
    | .ok x => x
    | .error x => .stop s x

/-- MOVE_ALL_GATHER (R164). -/
def execMoveAllGather (t : Nat) (g : Fin 80) (x : Soft) (s : State) : Out := softRun t g x (fun s => s.descStep g (isMove 4) (fun s e => s.allGather g e)) s

/-- MOVE_REDUCE_SCATTER (R165). -/
def execMoveReduceScatter (t : Nat) (g : Fin 80) (x : Soft) (s : State) : Out :=
  softRun t g x (fun s => s.descStep g (isMove 5) (fun s e => State.reduceScatter g e 5 s e.phase)) s

/-- A partial sum lands in the lines of RING[1] from its tail on, where the ring has room for them and they are empty (R166, R209). The
manual gives no place in the ring's region for it (DESIGN CHOICE, assumption 106). -/
def State.landSum (s : State) (g : Nat) (k : RingBlk) : Option State :=
  let size := s.get (RING.SIZE_LINES g 1)
  let n := sumBytes k.el.length k.sc.length
  let o := s.ring1At g (s.get (RING.TAIL_PTR_PTR g 1) % max 1 size * 512)
  if decide (size < s.ringOcc g 1 + n / 512) || (s.blockedLine g o n true false).isSome then none
  else
    let s := (s.wordWrite g o 0 k.el).wordWrite g o (padTo 512 k.el.length) k.sc
    let got : RingGot := { slice := k.slice, hop := k.hop, pos := o.ofs, nEl := k.el.length, nSc := k.sc.length }
    some ((s.setTile g (fun x => { x with xgot := x.xgot ++ [got] })).fillLines g (o.ends n) true)

/-- What has arrived first on RING[1] lands (R164 to R166, R203, R209): a piece where its line is empty, and it goes on to the next die
until it has made three hops; a wait is timed at the tile whose stream waits, the sender's for the landing, the forwarding tile's
for the next hop (R205). -/
def State.ringArrive (s : State) (g : Nat) : State :=
  match (s.tile g).xin with
  | [] => s
  | k :: rest =>
    let pop (s : State) : State := (s.setTile g (fun x => { x with xin := rest })).holdOver (prevDie g) 6 g
    match s.parity g with
    | some s => s
    | none =>
      if k.sum then
        match s.landSum g k with
        | some s => pop s
        | none => s.hold (prevDie g) { kind := 6, line := s.get (RING.BASE_ADDR g 1) / 512 % 2 ^ 13, port := 3, at_ := s.mono, sync := false, tile := g }
      else match s.landAt g k with
        | .error x => (pop s).arrivalStop g k.part x
        | .ok o =>
          match s.landWait g k with
          | some w => s.hold (prevDie g) w
          | none =>
            let next : RingBlk := { k with hop := k.hop + 1 }
            let stay := if k.hop < 3 then (s.ringNoRoom g).orElse (fun _ => (s.landWait (nextDie g) next).map (fun w => { w with kind := 9 })) else none
            match stay with
            | some w =>
              let new := w.kind = 4 && !(s.tile g).xwaits.any (fun v => v.kind = 4)
              (if new then s.bump (RING.EVT_CNT (nextDie g) 1) else s).hold g w
            | none =>
              let s := (((pop s).holdOver g 4 (nextDie g)).holdOver g 9 (nextDie g)).wordWrite g o 0 k.el
              let s := s.fillLines g (o.ends (padTo 8 k.el.length)) true
              if k.hop < 3 then s.ringSend g next else s

/-- RING_ARRIVAL (R164 to R166). -/
def execRingArrival (t : Nat) (g : Fin 80) (s : State) (x : Soft := Soft.none) : Out := softRun t g x (fun s => s.ringArrive g) s

/-! ### Windows (R211, R212) -/

/-- The first check of R212 that a piece fails; 0 for none. -/
def State.winReason (s : State) (g : Nat) (p : Piece) : Nat :=
  let w := p.win
  let admitted := if p.src = 0x7F then s.on (WIN.SRC_PARTNER g w)
    else s.on (WIN.SRC_TILES g w) && s.get (WIN.SRC_FIRST g w) ≤ p.src && decide (p.src ≤ s.get (WIN.SRC_LAST g w))
  if decide (7 < w) || !s.on (WIN.ATTR_EN g w) then 1
  else if !admitted then 2
  else if !bitOf (s.get (WIN.ATTR_PARTS g w)) p.part then 3
  else if s.get (WIN.LEN_BYTES g w) < p.ofs + p.data.length then 4
  else 0

/-- A piece rejected (R212): the rest of its transfer is discarded; a line of the partner's mirror goes back as REJ (R403). -/
def State.winReject (s : State) (g : Nat) (p : Piece) (reason : Nat) : State :=
  let s := if p.src = 0x7F then s.linkSend { type := 0x09 } else s.setTile g (fun x => { x with rej := (p.src, p.xfer) :: x.rej })
  let s := ((s.put (TILE.SPD_WIN_INFO_SRC g) p.src).put (TILE.SPD_WIN_INFO_WIN g) p.win).put (TILE.SPD_WIN_INFO_REASON g) reason
  let s := ((s.set1 (TILE.SPD_WIN_INFO_VALID g)).put (TILE.SPD_WIN_OFS_OFS g) p.ofs).bump (TILE.SPD_WIN_REJ_CNT g)
  s.raise (TILE.SPD_EVT_WIN_REJ g) (if p.src = 0x7F then 1 else 2) (2 ^ p.part)

/-- A piece of a window written, in whole words: its lines turn full where the window is tagged (R190, R211, R202). -/
def State.winStore (s : State) (g : Nat) (p : Piece) : State :=
  let a := s.get (WIN.BASE_ADDR g p.win) + p.ofs
  let (b, s) := s.filled p.data (padTo 8 p.data.length)
  if s.get (WIN.ATTR_TAGM g p.win) = 0 then s.spdStore g a b
  else (s.spdStore g a b).fillLines g (linesEnd a b.length) false

/-- The oldest piece that has arrived at a tile's windows (R211, R212): a piece of a rejected transfer is discarded; a tagged
window takes a piece once its lines are empty. -/
def State.winNext (s : State) (g : Nat) : State :=
  match (s.tile g).win with
  | [] => s
  | p :: rest =>
    let pop (s : State) : State := s.setTile g (fun x => { x with win := rest })
    if (s.tile g).rej.contains (p.src, p.xfer) then pop s
    else
      let r := s.winReason g p
      if r ≠ 0 then (pop s).winReject g p r
      else
        let a := s.get (WIN.BASE_ADDR g p.win) + p.ofs
        let tagged := s.get (WIN.ATTR_TAGM g p.win) ≠ 0
        match (if tagged then s.parity g else none) with
        | some s => s
        | none => if tagged && (linesOf a p.data.length).any (fun l => s.full g l) then s else (pop s).winStore g p

/-- WINDOW_WRITE (R211, R212). -/
def execWindowWrite (t : Nat) (g : Fin 80) (s : State) (x : Soft := Soft.none) : Out := softRun t g x (fun s => s.winNext g) s

end Sys2Proof.Machine
end

