-- ==== Sys2Proof/Machine/MapLook.lean ====
section
/-! DEFINITION. MAPLOOK: lookups and row deltas of a tile (R149, R259, R261, R271, R272, R274). -/

namespace Sys2Proof.Machine

/-- The work in progress of a tile as a map lookup sees it: the wedge, or on a column tile the values in effect. -/
def State.tileWork (s : State) (g : Nat) : WJob :=
  match (if s.get (TILE.ROLE_ROLE g) = 1 then s.tileJob g else none) with
  | some j => j
  | none => { w := 0, seq := s.pipe.closes, regs := s.regs, centre := s.grids.centre, off := s.map.off, rev := s.rev.count }

/-- The fields of a MAPLOOK (R149). -/
structure LookD where
  count : Nat
  levels : List Nat
  fmt : Nat
  grid : Nat

/-- A MAPLOOK descriptor read: the enabled levels of LEVELS, ascending. -/
def State.lookD (s : State) (b : Bytes) : LookD :=
  { count := dU16 b 16, levels := (List.range 16).filter (fun l => bitOf (dU16 b 18) l && s.on (MAP.LVL_CFG_EN 0 l)),
    fmt := dU8 b 21 % 16, grid := dU8 b 22 }

/-- Elements of an output row (R261), and the padded row. -/
def State.lookRow (s : State) (d : LookD) : Nat × Nat :=
  let n := d.levels.foldl (fun n l => n + partFeat s.get l) 0
  (n, padTo 32 n)

/-- The output rows as bytes (R261): elements in OUT_FMT with SAT = 1, BS8 scale bytes after the element data. -/
def lookBytes (fmt : Nat) (rows : List (List Num)) : Bytes :=
  if isBlock fmt then
    let (el, sc) := toBs8 rows.flatten
    el ++ zeroBytes (padTo 512 el.length - el.length) ++ sc
  else packBits (elemBits fmt) (rows.flatten.map (encElem fmt true))

/-- The lookups of one coordinate row (R259), levels ascending; none where a row's data does not come. -/
def State.lookLevels (s : State) (j : WJob) (die q grid : Nat) : List Nat → Option (List Num) × State
  | [] => (some [], s)
  | l :: ls =>
    match s.lookup j die q grid l with
    | (none, s) => (none, s)
    | (some v, s) =>
      let (w, s) := s.lookLevels j die q grid ls
      (w.map (v ++ ·), s)

/-- What the rows of a map lookup come to: all pooled, a wait for DRAM reads (R260), data that does not come (R339). -/
inductive LookRes where
  | done (rows : List (List Num)) (s : State)
  | full (rows : List (List Num)) (s : State)
  | none_ (s : State)

/-- Coordinate rows looked up in order (R259, R260): a row whose reads would make more than 512 outstanding is not accepted yet (DESIGN
CHOICE, assumption 108: a whole row at a time). -/
def State.lookRows (s : State) (j : WJob) (die grid : Nat) (levels : List Nat) (rows : List (List Num)) : List Nat → LookRes
  | [] => .done rows s
  | q :: qs =>
    match s.lookLevels j die q grid levels with
    | (none, s) => .none_ s
    | (some v, t) =>
      if 512 < (t.tge (die / 2)).outst.length then .full rows s
      else t.lookRows j die grid levels (rows ++ [v]) qs

/-- The lines of the output whose elements are all final once `n` of its rows are (R261): those of the element data, and for BS8 those
of its scale bytes. -/
def lookFinal (fmt count pad n : Nat) : List Nat :=
  let eb := pad * elemBits fmt / 8
  let upTo (b all : Nat) : Nat := if n = count then ceilDiv all 512 else b / 512
  List.range (upTo (n * eb) (count * eb)) ++
    (if isBlock fmt then (List.range (upTo (n * (pad / 32)) (count * (pad / 32)))).map (· + ceilDiv (count * eb) 512) else [])

/-- The lines of the output that become final between row `was` and the end of `rows`, written and full (R261). -/
def State.lookWrite (s : State) (g : Nat) (out : Opnd) (fmt count pad was : Nat) (rows : List (List Num)) : State :=
  let all := rows.map (fun v => v ++ List.replicate (pad - v.length) Num.zero) ++
    List.replicate (count - rows.length) (List.replicate pad Num.zero)
  let b := lookBytes fmt all
  let new := (lookFinal fmt count pad rows.length).filter (fun i => !(lookFinal fmt count pad was).contains i)
  let s := new.foldl (fun s i => s.wordWrite g out (512 * i) (sliceB b (512 * i) (min 512 (b.length - 512 * i)))) s
  s.fillLines g (new.filterMap (fun i => (out.lines b.length)[i]?)) false

/-- A MAPLOOK with MODE 0 (R259 to R261): rows ascending, levels ascending within a row. Rows pooled before a wait are kept. -/
def State.mapLookup (s : State) (g : Nat) (e : QEnt) : DRes :=
  let b := e.desc
  let d := s.lookD b
  let j := s.tileWork g
  let die := g / 20
  let chk := dTagchk b
  let (_, pad) := s.lookRow d
  let r : Except AccErr DRes := do
    let os ← s.refs g e [(4, false), (8, false)]
    let co ← needAt os 0
    let out ← needAt os 1
    if out.tagm = 0 then throw .badDesc
    let n := tensorBytes d.fmt (d.count * pad)
    if !co.fits (8 * d.count) || !out.fits n then throw .bound
    match (s.blocked g co (8 * d.count) 3 chk true).orElse (fun _ => if e.acc.isEmpty then s.blocked g out n 2 true false else none) with
    | some w => return .wait s w 0 [co, out] e.acc
    | none =>
      match s.opMeet g co 0 (8 * d.count) with
      | (s, true) => return .halt s
      | (s, false) =>
        let cs := s.opRead g co 0 (8 * d.count)
        let rest := (List.range d.count).drop e.acc.length
        match s.lookRows j die d.grid d.levels (e.acc.map (fun v => v.map (fun x => fFP32.dec x.toNat))) (rest.map (fun r => fieldB cs (8 * r) 8)) with
        | .none_ s => return .halt s
        | .done rows s => return .ok ((s.lookWrite g out d.fmt d.count pad e.acc.length rows).readTags g co (8 * d.count) chk)
        | .full rows s =>
          let s := s.lookWrite g out d.fmt d.count pad e.acc.length rows
          let codes := rows.map (fun v => v.map (fun x => BitVec.ofNat 32 (fFP32.enc false x)))
          return .wait s { kind := 10, line := 0, port := 3, at_ := s.mono, sync := false } 0 [co, out] codes
  match r with
  | .ok x => x
  | .error x => .stop s x

/-- MAPLOOK_LOOKUP (R149, R254 to R261, R278, R279). -/
def execMaplookLookup (t : Nat) (g : Fin 80) (x : Soft) (s : State) : Out :=
  softRun t g x (fun s => (s.tgeErr (g / 40) x.tge).descStep g (fun b => dKind b = 5 && dU8 b 20 = 0) (fun s e => s.mapLookup g e)) s

/-- The value of element `i` of a DELTA operand in the format of its handle (R271). -/
def deltaVal (fmt : Nat) (b : Bytes) (i : Nat) : Num := let w := elemBits fmt / 8; decElem fmt (fieldB b (w * i) w)

/-- A MAPLOOK with MODE 1 (R271, R272, R274): discarded while updates are off and for the golden wedge; it waits where no bank
is free. -/
def State.mapUpdate (s : State) (g : Nat) (e : QEnt) : DRes :=
  let b := e.desc
  let d := s.lookD b
  let j := s.tileWork g
  let die := g / 20
  let chk := dTagchk b
  let (_, pad) := s.lookRow d
  let r : Except AccErr DRes := do
    let os ← s.refs g e [(4, false), (12, false)]
    let co ← needAt os 0
    let de ← needAt os 1
    let n := tensorBytes de.fmt (d.count * pad)
    if !co.fits (8 * d.count) || !de.fits n then throw .bound
    match (s.blocked g co (8 * d.count) 3 chk true).orElse (fun _ => s.blocked g de n 3 chk true) with
    | some w => return .wait s w 0 [co, de]
    | none =>
      let off := j.golden || s.get (MAP.CTRL_UPD_EN 0) = 0
      match (if off then some s else s.bankFor j.rev) with
      | none => return .wait (s.set1 (MAP.EVT_UPD_WAIT 0)) { kind := 3, line := 0, port := 3, at_ := s.mono, sync := false } 0 [co, de]
      | some s1 =>
        match s1.endRead g (.opnd co chk 3) 0 (8 * d.count) with
        | (_, true, s) => return .halt s
        | (bs, _, s2) =>
          match s2.endRead g (.opnd de chk 3) 0 n with
          | (_, true, s) => return .halt s
          | (ds, _, s3) =>
            if off then return .ok s3
            let cs := bs.getD []
            let db := ds.getD []
            return .ok ((List.range d.count).foldl (fun s r =>
              let q := fieldB cs (8 * r) 8
              (d.levels.foldl (fun (p : Nat × State) l =>
                let k := partFeat s.get l
                (p.1 + k, p.2.updateLevel j die q d.grid l ((List.range k).map (fun i => deltaVal de.fmt db (r * pad + p.1 + i))))) (0, s)).2) s3)
  match r with
  | .ok x => x
  | .error x => .stop s x

/-- MAPLOOK_UPDATE (R271, R272, R274). -/
def execMaplookUpdate (t : Nat) (g : Fin 80) (x : Soft) (s : State) : Out :=
  softRun t g x (fun s => (s.tgeErr (g / 40) x.tge).descStep g (fun b => dKind b = 5 && dU8 b 20 = 1) (fun s e => s.mapUpdate g e)) s

end Sys2Proof.Machine
end

