-- ==== Sys2Proof/Machine/Tiles.lean ====
section
/-! DEFINITION. The sequencer's own descriptors, wedge steps, budgets, waits that end or time out, and the scrubber of a tile
(R150 to R152, R157 to R163, R197 to R205, R377). -/

namespace Sys2Proof.Machine

/-- Tile cycles (900 MHz) in a span of TB_MONO ticks. -/
def tileCycles (ticks : Nat) : Nat := ticks * 9 / 160

/-! ### SYNC (R150, R204) -/

/-- A SYNC with operation `op`. -/
def isSync (op : Nat) (b : Bytes) : Bool := dKind b = 6 && dU8 b 10 = op

/-- The target lines of a SYNC: a tagged handle, whatever its partitions (R150, R203). -/
def State.syncLines (s : State) (g : Nat) (e : QEnt) : Except AccErr (List Nat) :=
  match s.oprefAt g e 4 with
  | none => .error .badDesc
  | some (h, ofs) =>
    if ofs < 0 then .error .bound
    else match s.handleAt g h ofs.toNat with
      | .error x => .error x
      | .ok o =>
        let n := dU16 e.desc 8 * 512
        if !o.wide || o.tagm = 0 then .error .badDesc else if !o.fits n then .error .bound else .ok (o.lines n)

/-- A SYNC wait: it completes at once where every line is as it asks, else issue stops. -/
def State.syncWait (s : State) (g : Nat) (e : QEnt) (full : Bool) : State :=
  match s.syncLines g e with
  | .error x => s.tileStop g e (x.event g)
  | .ok ls =>
    match s.parity g with
    | some s => s
    | none =>
      match ls.find? (fun l => s.full g l ≠ full) with
      | none => s.issued g
      | some l => s.setTile g (fun x => { x with wait := some { tagWait s l 4 full with sync := true, lines := ls } })

/-- A SYNC that sets tags. -/
def State.syncSet (s : State) (g : Nat) (e : QEnt) (full : Bool) : State :=
  match s.syncLines g e with
  | .error x => s.tileStop g e (x.event g)
  | .ok ls =>
    match s.parity g with
    | some s => s
    | none => (if full then s.fillLines g ls false else s.emptyLines g ls).issued g

/-- WAIT_FULL (R150). -/
def execWaitFull (t : Nat) (g : Fin 80) (s : State) (x : Soft := Soft.none) : Out := softRun t g x (fun s => s.seqStep g (isSync 0) (fun s e => s.syncWait g e true)) s

/-- WAIT_EMPTY (R150). -/
def execWaitEmpty (t : Nat) (g : Fin 80) (s : State) (x : Soft := Soft.none) : Out := softRun t g x (fun s => s.seqStep g (isSync 1) (fun s e => s.syncWait g e false)) s

/-- SET_FULL (R150). -/
def execSetFull (t : Nat) (g : Fin 80) (s : State) (x : Soft := Soft.none) : Out := softRun t g x (fun s => s.seqStep g (isSync 2) (fun s e => s.syncSet g e true)) s

/-- SET_EMPTY (R150). -/
def execSetEmpty (t : Nat) (g : Fin 80) (s : State) (x : Soft := Soft.none) : Out := softRun t g x (fun s => s.seqStep g (isSync 3) (fun s e => s.syncSet g e false)) s

/-- BARRIER (R150): the tile has reached it and waits for the others of its stage. -/
def execBarrier (t : Nat) (g : Fin 80) (s : State) (x : Soft := Soft.none) : Out :=
  softRun t g x (fun s => s.seqStep g (isSync 4) (fun s e => s.setTile g (fun x =>
    { x with bar := some (dU8 e.desc 11 % 16), wait := some { kind := 2, line := 0, port := 4, at_ := s.mono, sync := true } }))) s

/-- BARRIER_COMPLETE (R150): every tile of the stage has reached the same barrier for the same wedge. -/
def execBarrierComplete (t : Nat) (stage : Fin 19) (s : State) : Out :=
  run t (fun s =>
    let ts := s.stageTiles stage
    match ts with
    | [] => s
    | g0 :: _ =>
      let same (g : Nat) := (s.tile g).bar.isSome && (s.tile g).bar = (s.tile g0).bar && (s.tile g).doneN = (s.tile g0).doneN &&
        s.tileRuns g
      s.when (ts.all same) (fun s => ts.foldl (fun s g =>
        ((s.setTile g (fun x => { x with bar := none, wait := none })).issued g).tileShow g) s)) s

/-- Whether a wait is over (R204, R209, R274). -/
def State.waitOver (s : State) (g : Nat) (w : TWait) : Bool :=
  match w.kind with
  | 0 => s.full g w.line
  | 1 => !s.full g w.line
  | 3 => (s.bankFor (s.tileWork g).rev).isSome
  | 4 => decide (s.ringOcc w.tile 1 < s.get (RING.SIZE_LINES w.tile 1))
  | 5 => !(s.tile g).xgot.isEmpty
  | 6 => !s.full w.tile w.line
  | 10 => decide ((s.tge (g / 40)).outst.length < 512)
  | _ => false

/-- A queued descriptor whose wait, where it has one, is over or goes on. -/
def QEnt.rewait (e : QEnt) (over_ : TWait → Bool) : QEnt :=
  match e.wait with
  | some w => if over_ w then { e with wait := none } else e
  | none => e

/-- TAG_WAIT_SATISFIED (R204): accesses whose wait is over request their banks again; a SYNC whose lines are all as it asks
completes; a tag tested again can meet a parity error (R201). -/
def execTagWaitSatisfied (t : Nat) (g : Fin 80) (s : State) (x : Soft := Soft.none) : Out :=
  softRun t g x (fun s => s.when (s.tileRuns g) (fun s =>
    if let some s := (if (s.tile g).wait.any (fun w => w.kind ≤ 1) || (s.tile g).queue.any (fun e => e.wait.isSome) then s.parity g else none) then s else
    let s := s.setTile g (fun x => { x with queue := x.queue.map (fun e => e.rewait (s.waitOver g)) })
    let s := match (s.tile g).wait with
      | some w =>
        if w.kind ≤ 1 then
          (match w.lines.find? (fun l => s.full g l ≠ decide (w.kind = 0)) with
           | none => (s.setTile g (fun x => { x with wait := none })).issued g
           | some l => s.setTile g (fun x => { x with wait := some { w with line := l } }))
        else s
      | none => s
    s.tileShow g)) s

/-! ### Wedges through the stages (R157 to R163) -/

/-- The budget and slack of the work in progress on a tile (R159, R160). -/
def State.budget (s : State) (g : Nat) : Nat × Nat :=
  let j := s.tileWork g
  (j.get (TILE.BUDGET_CYC g), j.get (TILE.BUDGET_SLACK_CYC g))

/-- Cycles counted so far (R160). -/
def State.tileCount (s : State) (g : Nat) : Nat := tileCycles (s.mono - (s.tile g).accAt)

/-- `s` with an admitted wedge changed. -/
def State.setJob (s : State) (a : Nat) (f : WJob → WJob) : State :=
  { s with pipe := { s.pipe with flight := s.pipe.flight.map (fun j => if j.admNo = a then f j else j) } }

/-- A C1 of a stage's budget: one entry per stage and wedge (R161); on a column tile each is logged (R163). -/
def State.budgetEvt (s : State) (g : Nat) (f : Fld) : State :=
  let st := s.get (TILE.ROLE_STAGE g)
  match (if s.get (TILE.ROLE_ROLE g) = 1 then s.tileJob g else none) with
  | none => s.raise f 1 (2 ^ s.tilePart g)
  | some j => if j.staged.contains st then s.set1 f
    else (s.setJob j.admNo (fun j => { j with staged := j.staged ++ [st] })).raise f 1 (2 ^ s.tilePart g)

/-- A count past B + S (R160, R161, R163): the wedge counts as LATE once; the third of a revolution is C2. -/
def State.markLate (s : State) (g : Nat) : State :=
  let s := (s.setTile g (fun x => { x with lateM := true })).bump (TILE.LATE_CNT g)
  let s := s.budgetEvt g (TILE.EVT_LATE g)
  if s.get (TILE.ROLE_ROLE g) = 2 then
    match (s.tile g).cur with
    | some c => s.svcFlag g c.n 16
    | none => s
  else match s.tileJob g with
    | none => s
    | some j =>
      if j.late.isSome then s
      else
        let s := s.setJob j.admNo (fun j => { j with late := some (s.get (TILE.ROLE_STAGE g)) })
        let n := s.pipe.lateRev + 1
        let e := evalStep s.mono
        let now := if s.pipe.lateNow.1 = e then s.pipe.lateNow.2 + 1 else 1
        let s : State := { s with pipe := { s.pipe with lateRev := n, lateNow := (e, now) }, age := { s.age with lateN := s.age.lateN + 1 } }
        if n = 3 then s.report 2 0x039 0xFF (2 ^ s.tilePart g) j.admNo false else s

/-- LATE (R160, R161, R163). -/
def execLate (t : Nat) (g : Fin 80) (s : State) : Out :=
  run t (fun s =>
    let (b, sl) := s.budget g
    s.when (s.tileRuns g && (s.tile g).busy && !(s.tile g).lateM && decide (b + sl < s.tileCount g)) (fun s => s.markLate g)) s

/-- HANG (R162). -/
def execHang (t : Nat) (g : Fin 80) (s : State) : Out :=
  run t (fun s =>
    let (b, sl) := s.budget g
    s.when (s.tileRuns g && (s.tile g).busy && !(s.tile g).hangM && decide (4 * (b + sl) ≤ s.tileCount g)) (fun s =>
      (s.setTile g (fun x => { x with hangM := true })).raise (TILE.EVT_HANG g) 2 (2 ^ s.tilePart g))) s

/-- Whether the ACCEPT of a stage tile for its next wedge completes (R158). -/
def State.acceptReady (s : State) (g : Nat) : Option WJob :=
  let a := (s.tile g).doneN
  let st := s.get (TILE.ROLE_STAGE g)
  match s.pipe.flight.find? (fun j => j.admNo = a) with
  | none => none
  | some j =>
    let before_ := if st = 0 then j.built else s.stageDone (st - 1) a
    let after_ := decide (a < 2) || s.stageDone (st + 1) (a - 2)
    if before_ && after_ then some j else none

/-- A tile past its ACCEPT. -/
def State.accepted (s : State) (g part gold w a : Nat) (f : TileSt → TileSt) : State :=
  let s := ((s.put (TILE.STAT_PART g) part).put (TILE.STAT_GOLD g) gold).put (TILE.STAT_WEDGE g) w
  let s := (s.put (TILE.ADMIT_NUM g) (a % 2 ^ 16)).put (TILE.STAT_STATE g) 2
  ((s.setTile g (fun x => f { x with busy := true, accAt := s.mono, lateM := false, hangM := false, issued := 0, useful := 0 })).issued g).tileShow g

/-- A WEDGE ACCEPT. -/
def isAccept (b : Bytes) : Bool := dKind b = 7 && dU8 b 4 = 0

/-- WEDGE_ACCEPT (R155, R157, R158): on a stage tile the next wedge, on a column tile the oldest deadline not served. -/
def execWedgeAccept (t : Nat) (g : Fin 80) (s : State) (x : Soft := Soft.none) : Out :=
  softRun t g x (fun s =>
    let st := s.get (TILE.STAT_STATE g)
    s.when ((s.dev = dsNoon || s.dev = dsDusk) && 1 ≤ st && st ≤ 3 && !(s.tile g).busy && (s.tile g).wait.isNone) (fun s =>
      match s.fetch g with
      | (s, none) => s
      | (s, some e) =>
        if !isAccept e.desc || !s.fenceOk g e then s
        else if s.get (TILE.ROLE_ROLE g) = 2 then
          match (s.tile g).cols with
          | [] => s
          | c :: cs => s.accepted g 0 0 0 (s.get (TILE.ADMIT_NUM g)) (fun x => { x with cols := cs, cur := some c })
        else if s.get (TILE.ROLE_ROLE g) = 1 then
          match s.acceptReady g with
          | none => s
          | some j => s.accepted g (if j.golden then 3 else 1) (b2n j.golden) j.w j.admNo id
        else s)) s

/-- The last stage of the image in use. -/
def State.lastStage (s : State) : Nat :=
  (List.range 80).foldl (fun m g => if s.get (TILE.ROLE_ROLE g) = 1 then max m (s.get (TILE.ROLE_STAGE g)) else m) 0

/-- WEDGE_DONE (R154, R158, R160, R163, R167): the count is judged; the program goes on, after END at its first descriptor (R143). -/
def execWedgeDone (t : Nat) (g : Fin 80) (s : State) (x : Soft := Soft.none) : Out :=
  softRun t g x (fun s => s.seqStep g (fun b => dKind b = 7 && dU8 b 4 = 1) (fun s e =>
    if !(s.tile g).queue.isEmpty then s
    else
      let (b, sl) := s.budget g
      let n := s.tileCount g
      let s := if b + sl < n then (if (s.tile g).lateM then s else s.markLate g)
        else if b < n then (s.bump (TILE.OVERRUN_CNT g)).budgetEvt g (TILE.EVT_OVERRUN g) else s
      let x := s.tile g
      let s := ((s.put (TILE.LAST_CYC_CYC g) (satU 24 n)).putMax (TILE.MAX_CYC_CYC g) n).bump (TILE.WEDGE_CNT g)
      let s := ((s.put (TILE.MXE_ISSUED g) (satU 32 x.issued)).put (TILE.MXE_USEFUL g) (satU 32 x.useful)).put (TILE.STAT_GOLD g) 0
      let s := if dEnd e.desc then s.setTile g (fun x => { x with loops := [], next := 0 }) else s.issued g
      let s := s.put (TILE.STAT_STATE g) (if dEnd e.desc || isAccept (s.descAt g (s.tile g).next) then 1 else 2)
      let again (x : TileSt) : TileSt := { x with busy := false, bar := none, wait := none }
      if s.get (TILE.ROLE_ROLE g) = 2 then
        s.setTile g (fun x => again { x with cur := none })
      else
        let last := s.get (TILE.ROLE_STAGE g) = s.lastStage
        s.setTile g (fun x => again { x with blocks := if last then x.blocks ++ [x.doneN] else x.blocks, doneN := x.doneN + 1 }))) s

/-- A feature pointer written back by key (R131, R151): for the golden wedge in the golden table. -/
def State.writeFptr (s : State) (golden : Bool) (grid : Nat) (key : List Nat) (fptr : Nat) (ecc : EccRes) : State :=
  if !golden then s.storeFptr grid key fptr ecc
  else
    let u := voxOwner key
    let s := s.vhuRead u ecc
    if (s.vu u).gold.any (fun e => e.2.grid = grid && e.2.key = key) then
      s.setVhu u (fun v => { v with gold := v.gold.map (fun e => if e.2.grid = grid && e.2.key = key then (e.1, { e.2 with fptr := fptr }) else e) })
    else (s.bump (VHU.FPTR_LOST_CNT u)).set1 (VHU.EVT_FPTR_LOST u)

/-- A WEDGE FPTR_WB descriptor (R151). -/
def State.fptrWb (s : State) (g : Nat) (e : QEnt) (vhu : List EccRes) : DRes :=
  let chk := dTagchk e.desc
  let n := dU16 e.desc 16
  let r : Except AccErr DRes := do
    let os ← s.refs g e [(8, false), (12, false)]
    let co ← needAt os 0
    let va ← needAt os 1
    if !co.fits (8 * n) || !va.fits (4 * n) then throw .bound
    match (s.blocked g co (8 * n) 3 chk true).orElse (fun _ => s.blocked g va (4 * n) 3 chk true) with
    | some w => return .wait s w 0 [co, va]
    | none =>
      match s.endRead g (.opnd co chk 3) 0 (8 * n) with
      | (_, true, s) => return .halt s
      | (cs, _, s) =>
        match s.endRead g (.opnd va chk 3) 0 (4 * n) with
        | (_, true, s) => return .halt s
        | (vs, _, s) =>
          let golden := s.on (TILE.STAT_GOLD g)
          return .ok ((List.range n).foldl (fun s i =>
            let q := fieldB (cs.getD []) (8 * i) 8
            let v := fieldB (vs.getD []) (4 * i) 4
            if bitOf q 63 then s
            else s.writeFptr golden (bitsOf v 20 2) [bitsOf q 0 21, bitsOf q 21 21, bitsOf q 42 21] (v % 2 ^ 20) (vhu.getD i .clean)) s)
  match r with
  | .ok x => x
  | .error x => .stop s x

/-- WEDGE_FPTR_WB (R131, R151). -/
def execWedgeFptrWb (t : Nat) (g : Fin 80) (s : State) (x : Soft := Soft.none) : Out :=
  softRun t g x (fun s => s.descStep g (fun b => dKind b = 7 && dU8 b 4 = 2) (fun s e => s.fptrWb g e x.vhu)) s

/-! ### LOOP (R152) -/

/-- The handles a LOOP advances. -/
def loopAdv (b : Bytes) : List (Nat × Int) :=
  (List.range 4).filterMap (fun i =>
    let h := dU8 b (16 + 8 * i)
    if h = 0xFF then none else some (h, signedOf 32 (dU32 b (20 + 8 * i))))

/-- LOOP entered: its body is skipped where the test value is 0 under SKIPZ. -/
def State.loopEnter (s : State) (g : Nat) (e : QEnt) : State :=
  let b := e.desc
  let form := dU8 b 7
  let body := dU8 b 6
  let enter (s : State) : State :=
    (s.setTile g (fun x => { x with loops := { start := x.next, body := body, count := dU16 b 4, j := 0, adv := loopAdv b } :: x.loops })).issued g
  if !bitOf form 0 then enter s
  else
    let n := if bitOf form 1 then 4 else 2
    match (s.refs g e [(8, false)]).bind (fun l => needAt l 0) with
    | .error x => s.tileStop g e (x.event g)
    | .ok o =>
      if !o.fits n then s.tileStop g e (TILE.EVT_HDL_BOUND g)
      else match s.opMeet g o 0 n with
        | (s, true) => s
        | (s, false) =>
          if leNat (s.opRead g o 0 n) ≠ 0 then enter s
          else s.setTile g (fun x =>
            let (l, p) := loopNext x.loops (x.next + 1 + body)
            { x with loops := l, next := p, issues := x.issues + 1 })

/-- LOOP (R152). -/
def execLoop (t : Nat) (g : Fin 80) (s : State) (x : Soft := Soft.none) : Out :=
  softRun t g x (fun s => s.seqStep g (fun b => dKind b = 8) (fun s e => s.loopEnter g e)) s

/-! ### Waits that last too long (R205) -/

/-- A wait has lasted longer than TAG_TIMEOUT as latched for the work in progress. -/
def State.waitLong (s : State) (g : Nat) (w : TWait) : Bool :=
  decide ((s.tileWork g).get (TILE.TAG_TIMEOUT_CYC g) < tileCycles (s.mono - w.at_))

/-- The record of a wait that timed out. -/
def State.tagInfo (s : State) (g : Nat) (w : TWait) : State :=
  let k := match w.kind with
    | 0 => 0
    | 5 => 0
    | 2 => 2
    | _ => 1
  (((s.put (TILE.SPD_TAG_INFO_LINE g) w.line).put (TILE.SPD_TAG_INFO_WAIT g) k).put (TILE.SPD_TAG_INFO_PORT g) w.port).set1
    (TILE.SPD_TAG_INFO_VALID g)

/-- TAG_TO (R205): a tag or SYNC wait of the tile's stream, or of what it has sent, forwards or receives. -/
def execTagTo (t : Nat) (g : Fin 80) (s : State) : Out :=
  run t (fun s =>
    let x := s.tile g
    let own := if s.tileRuns g then (x.wait.filter (fun w => w.kind ≠ 2)).toList ++ (x.queue.filterMap (fun e => e.wait)).filter (fun w => w.kind ≠ 10) else []
    match (own ++ x.xwaits).find? (s.waitLong g) with
    | none => s
    | some w => s.when (s.dev = dsNoon || s.dev = dsDusk) (fun s => (s.tagInfo g w).raise (TILE.SPD_EVT_TAG_TO g) 2 (2 ^ s.tilePart g))) s

/-- BAR_TO (R205). -/
def execBarTo (t : Nat) (g : Fin 80) (s : State) : Out :=
  run t (fun s =>
    match (s.tile g).wait with
    | none => s
    | some w => s.when (w.kind = 2 && s.tileRuns g && s.waitLong g w) (fun s =>
      (s.tagInfo g w).raise (TILE.SPD_EVT_BAR_TO g) 2 (2 ^ s.tilePart g))) s

/-! ### The scrubber (R197 to R200, R377) -/

/-- The tile is powered and assigned (R440, R441). -/
def State.tilePowered (s : State) (g : Nat) : Bool := bitOf (s.get PM.DOM_ON_ON) (5 * (g / 20) + g % 20 / 5) && s.get (TILE.ROLE_ROLE g) ≠ 0

/-- The write-back queue changed. -/
def State.setCeq (s : State) (g : Nat) (q : List Nat) : State :=
  (s.setTile g (fun x => { x with ceq := q })).put (TILE.SPD_STAT_CEQ_OCC g) q.length

/-- A read of SCR that meets an error at a word (R197, R200). -/
def State.scrRead (s : State) (g addr : Nat) : EccRes → State
  | .clean => s
  | .corrected => s.spdCe g addr false
  | .uncorrectable => s.spdUe g addr false

/-- The oldest queued write-back that `pick` admits served (R197): the line's erroneous words are rewritten, which takes the word from
the queue, whether it shows its error still (`.corrected`) or a port has rewritten it; a double-bit error in its line is C2, and
nothing is written. -/
def State.writeBack (s : State) (g : Nat) (pick : Nat → Bool) (ecc : EccRes) : State :=
  match (s.tile g).ceq.find? pick with
  | none => s
  | some a =>
    let s := s.setCeq g ((s.tile g).ceq.filter (fun x => x ≠ a))
    match ecc with
    | .clean => s
    | .corrected => ((s.bump (TILE.SPD_CE_CNT g)).eccInfo g a false).raise (TILE.SPD_EVT_CE g) 1
    | .uncorrectable => s.spdUe g a false

/-- The next line of the background sweep is due (R198, R377). -/
def State.sweepDue (s : State) (g : Nat) : Bool :=
  decide (s.get MS.SCRUB_SPD_INT ≤ tileCycles (s.mono - (s.tile g).sweepAt)) && s.msAllowed 11 && !s.ms.run.any (fun a => a.code = 9)

/-- A line of the background sweep read in a group; its read may meet an error at a word of the line. -/
def State.sweepLine (s : State) (g grp word : Nat) (ecc : EccRes) : State :=
  let l := (s.tile g).scrubLine
  let s := s.setTile g (fun x => { x with scrubLine := (x.scrubLine + 1) % 2048, sweepAt := s.mono })
  if grp < s.get (TILE.SPD_SIZE_GROUPS g) then s.scrRead g (grp * 2 ^ 20 + l * 512 + word % 64 * 8) ecc else s

/-- SCRUB_SWEEP_LINE (R198, R377): every SPD_INT cycles one line of each group in address order; queued write-backs come first,
whose turn it is then instead. `word` and `grp` say where the read meets `ecc`. -/
def execScrubSweepLine (t : Nat) (g : Fin 80) (grp : Fin 3) (word : Nat) (ecc : EccRes) (s : State) : Out :=
  run t (fun s => s.when (s.tilePowered g && s.sweepDue g) (fun s =>
    if (s.tile g).ceq.isEmpty then s.sweepLine g grp word ecc else s.writeBack g (fun _ => true) ecc)) s

/-- SCRUB_WRITE_BACK (R197): the read of the line still meets the error unless a port has rewritten the word. -/
def execScrubWriteBack (t : Nat) (g : Fin 80) (ecc : EccRes) (s : State) : Out :=
  run t (fun s => s.when (s.tilePowered g) (fun s => s.writeBack g (fun _ => true) ecc)) s

/-- A line of the overflow sweep read in a group (R199): an error met there is queued, and may start the sweep again. -/
def State.overflowLine (s : State) (g grp word : Nat) (ecc : EccRes) : State :=
  let l := (s.tile g).ovfLine
  (s.setTile g (fun x => { x with ovfLine := min 2047 (l + 1) })).scrRead g (grp * 2 ^ 20 + l * 512 + word % 64 * 8) ecc

/-- FORCED_SCRUB_SLOT (R192, R198, R199): the pending operation of the group is done in a forced slot: a queued write-back, else a line
of the overflow sweep, else the background sweep's line that is due. -/
def execForcedScrubSlot (t : Nat) (g : Fin 80) (grp : Fin 3) (s : State) (word : Nat := 0) (ecc : EccRes := .clean) : Out :=
  run t (fun s =>
    let mine (a : Nat) : Bool := a / 2 ^ 20 = grp.val
    let queued := (s.tile g).ceq.any mine
    let sweep := s.on (TILE.SPD_STAT_SWEEP g)
    s.when (s.tilePowered g && decide (grp.val < s.get (TILE.SPD_SIZE_GROUPS g)) && (queued || sweep || s.sweepDue g)) (fun s =>
      let s := s.bump (TILE.SPD_SCRUB_FORCE_CNT g)
      if queued then s.writeBack g mine ecc
      else if sweep then s.overflowLine g grp word ecc
      else s.sweepLine g grp word ecc)) s

/-- The rest of an overflow sweep (R199): the words in which its reads meet errors, in address order within a line's turn; a further
overflow starts the sweep again, and the rest is not read. -/
def State.overflowSweep (s : State) (g : Nat) : List (Nat × EccRes) → State
  | [] => (s.put (TILE.SPD_STAT_SWEEP g) 0).bump (TILE.SPD_SCRUB_SWEEP_CNT g)
  | (a, e) :: es =>
    let again := e = .corrected && !(s.tile g).ceq.contains (a / 8 * 8) && decide (32 ≤ (s.tile g).ceq.length)
    let s := s.scrRead g a e
    if again then s else s.overflowSweep g es

/-- OVERFLOW_SWEEP_DONE (R199): every line from where the sweep stands has been read; `errs` are the words in which the reads meet
errors. -/
def execOverflowSweepDone (t : Nat) (g : Fin 80) (s : State) (errs : List (Nat × EccRes) := []) : Out :=
  run t (fun s => s.when (s.tilePowered g && s.on (TILE.SPD_STAT_SWEEP g)) (fun s =>
    s.overflowSweep g (errs.filter (fun e => decide ((s.tile g).ovfLine ≤ e.1 % 2 ^ 20 / 512) && decide (e.1 < s.spdSize g))))) s

end Sys2Proof.Machine
end

