-- ==== Sys2Proof/Machine/Net.lean ====
section
/-! DEFINITION. The host ports' transmit side: MACsec, datagrams, address resolution (R295, R296, R306 to R312). -/

namespace Sys2Proof.Machine

/-- The transmit SA of a port (R312). -/
def State.txSa (s : State) (p : Nat) : Sa := (s.host p).sas.getD (s.get (HS.MACSEC_TX_AN p)) {}

/-- The port can send nothing: its transmit SA has used its last packet number (R312), or holds no key (assumption 21). -/
def State.txSpent (s : State) (p : Nat) : Bool :=
  s.secOn p && ((s.txSa p).key.isNone || decide (0xFFFFFFFF < (s.txSa p).pn))

/-! ### Destinations of the result streams (R295, R296) -/

/-- A multicast IPv4 address. -/
def multicast (ip : Nat) : Bool := ip / 2 ^ 28 = 0xE

/-- The MAC address for the destination of port `p`'s results: RFC 1112 for multicast. -/
def State.dstMac (s : State) (p : Nat) : Option Nat :=
  let ip := s.get (OUT.DST_ADDR p)
  if multicast ip then some (0x01005E000000 + ip % 2 ^ 23) else (s.host p).arp

/-- Why records for a port are discarded before transmission: 0 they are not, 1 as for a down link (R297, R312), 2 no usable
entry (R296). -/
def State.portBar (s : State) (p : Nat) : Nat :=
  if !s.on (HS.STAT_LINK p) || s.txSpent p then 1 else if (s.dstMac p).isNone then 2 else 0

/-- `n` records discarded for reason `why` of `portBar`. -/
def State.barDrop (s : State) (why n : Nat) : State :=
  if n = 0 || why = 0 then s
  else if why = 1 then (s.addCnt OUT.LINK_DROP_CNT n).set1 OUT.EVT_LINK_DROP
  else (s.addCnt OUT.ARP_DROP_CNT n).set1 OUT.EVT_ARP_DROP

/-- The ports that OUT.CTRL.PORT selects (R297). -/
def State.outPorts (s : State) : List Nat :=
  match s.get OUT.CTRL_PORT with
  | 0 => [0]
  | 1 => [1]
  | 2 => [0, 1]
  | _ => if s.on (HS.STAT_LINK 0) then [0] else [1]

/-- What waits for port `p` discarded for reason `why` of `portBar`; nothing where there is none. -/
def State.portDrop (s : State) (p why : Nat) : State :=
  if why = 0 then s
  else
    let n := (s.out.colQ.filter (fun r => r.todo.contains p)).length + (s.out.frames.filter (fun f => f.port = p)).length +
      (s.out.reports.filter (fun e => e.1 = p)).length + (s.age.telWait.filter (fun e => e.1 = p)).length
    let s := s.barDrop why n
    let rest := (s.out.colQ.map (fun r => { r with todo := r.todo.filter (fun q => q ≠ p) })).filter (fun r => !r.todo.isEmpty)
    let out : OutSt := { s.out with colQ := rest, frames := s.out.frames.filter (fun f => f.port ≠ p),
                                    reports := s.out.reports.filter (fun e => e.1 ≠ p),
                                    held := s.out.held.filter (fun q => q ≠ p) }
    ({ s with out := out, age := { s.age with telWait := s.age.telWait.filter (fun e => e.1 ≠ p) } } : State).outStat

/-- What waits for HS0 moves to HS1 (R297), but a frame whose fragments have begun to leave on HS0 (R295). -/
def State.toHs1 (s : State) : State :=
  let mv (q : Nat) := if q = 0 then 1 else q
  let out : OutSt := { s.out with colQ := s.out.colQ.map (fun r => { r with todo := r.todo.map mv }),
                                  frames := s.out.frames.map (fun f => if f.frag = 0 then { f with port := mv f.port } else f),
                                  reports := s.out.reports.map (fun e => (mv e.1, e.2)) }
  { s with out := out, age := { s.age with telWait := s.age.telWait.map (fun e => (mv e.1, e.2)) } }

/-- Everything that waits for port `p` and cannot leave there is discarded; under PORT = 3 what waits for HS0 while its link is down is
HS1's, and discarded there where HS1 cannot send it (R296, R297). -/
def State.portGone (s : State) (p : Nat) : State :=
  if !s.on (HS.STAT_LINK p) && p = 0 && s.get OUT.CTRL_PORT = 3 then
    let s := (s.toHs1).portDrop 0 1
    s.portDrop 1 (s.portBar 1)
  else s.portDrop p (s.portBar p)

/-! ### Frames that leave (R303, R307 to R309, R312) -/

/-- The SecTAG of the next frame taken (R308, R312): none where MACsec is not in force. -/
def State.takePn (s : State) (p : Nat) : Option (Nat × Nat × Nat × Bool) × State :=
  if !s.secOn p then (none, s)
  else
    let an := s.get (HS.MACSEC_TX_AN p)
    let pn := (s.txSa p).pn
    let sci := (s.get (HS.MAC_HI_MAC p) * 2 ^ 32 + s.get (HS.MAC_LO p)) * 2 ^ 16 + 1
    let s := s.setHost p (fun x => { x with sas := x.sas.modify an (fun a => { a with pn := pn + 1 }) })
    let s := s.put (HS.TX_PN p) pn
    (some (sci, an, pn, s.on (HS.MACSEC_CONF p)), (s.set1If (pn = 0xF0000001) (HS.EVT_PN_NEAR p)).set1If (pn = 0xFFFFFFFF) (HS.EVT_PN_EXHAUST p))

/-- Ticks that a frame takes on a host port (R303): `n` bytes with preamble and gap, 32 with MACsec, 4 with a VLAN tag, at 8 ns a byte. -/
def State.wireTicks (s : State) (p n : Nat) : Nat :=
  (n + 32 * b2n (s.secOn p) + 4 * s.get (HS.CTRL_VLAN_EN p)) * 8 * tickNs

/-- The 802.1Q tag of a port's frames (R307). -/
def State.vlanTag (s : State) (p : Nat) : Option (Nat × Nat) :=
  if s.on (HS.CTRL_VLAN_EN p) then some (s.get (HS.VLAN_PCP p), s.get (HS.VLAN_VID p)) else none

/-- A frame of `n` bytes sent on a host port, protected while MACsec is in force (R309) unless it leaves `plain`; nothing where the port
cannot send. Where its packet numbers are then used up, the results that wait there are discarded (R312). -/
def State.hostTx (s : State) (p : Fin 2) (plain : Bool) (n : Nat) (f : Wrap → Emit) : State :=
  if !plain && s.txSpent p then s
  else
    let (tag, s) := if plain then (none, s) else s.takePn p
    let s := s.setHost p (fun x => { x with busyUntil := max x.busyUntil s.mono + s.wireTicks p n })
    let s := s.emit (f { vlan := s.vlanTag p, sec := tag })
    if s.txSpent p then s.portGone p else s

/-- A UDP datagram sent on a host port: 66 bytes of overhead (R303). -/
def State.udpTx (s : State) (p : Fin 2) (plain : Bool) (mac ip dst src : Nat) (b : Bytes) : State :=
  s.hostTx p plain (66 + b.length) (fun w => .udp (.host p) mac ip dst src w b)

/-- Bytes that an ARP frame takes with preamble and gap: the least frame. -/
abbrev arpLen : Nat := 84

/-! ### Address resolution (R296) -/

/-- OUT.STAT.ARP_OK (R296). -/
def State.arpShow (s : State) : State :=
  s.put OUT.STAT_ARP_OK (b2n (s.dstMac 0).isSome + 2 * b2n (s.dstMac 1).isSome)

/-- An ARP request of the running resolution. -/
def State.arpAsk (s : State) (p : Fin 2) : State :=
  (s.setHost p (fun x => { x with arpAt := s.mono })).hostTx p false arpLen (fun w => .arpReq (.host p) (s.get (OUT.DST_ADDR p)) w)

/-- A resolution begun (R296): a multicast destination needs none. -/
def State.arpStart (s : State) (p : Fin 2) : State :=
  if multicast (s.get (OUT.DST_ADDR p)) || !s.on (HS.STAT_LINK p) then s.arpShow
  else ((s.setHost p (fun x => { x with arpRun := true, arpSince := s.mono })).arpAsk p).arpShow

/-- What changes when OUT.DST[p].ADDR is written (R296). -/
def State.dstWritten (s : State) (p : Fin 2) : State :=
  ((s.setHost p (fun x => { x with arp := none, arpRun := false })).arpStart p).portGone p

/-! ### Links and ARP -/

/-- HOST_LINK_UP (R58, R296): latencies loaded, the destination resolved. -/
def execHostLinkUp (t : Nat) (p : Fin 2) (s : State) : Out :=
  run t (fun s => s.when (s.on (HS.CTRL_EN p) && !s.on (HS.STAT_LINK p) && !(s.host p).off) (fun s =>
    let pg := 0x018 + p.val
    let s := ((s.set1 (HS.STAT_LINK p)).load (TS.ING_LAT_LAT pg) (Config.calIngress 1000).toNat).load (TS.EGR_LAT_LAT pg)
      (Config.calEgress 1000).toNat
    s.arpStart p)) s

/-- A host port's link goes down (R296, R297). -/
def State.hostDown (s : State) (p : Fin 2) : State :=
  if !s.on (HS.STAT_LINK p) then s
  else
    let s := (s.put (HS.STAT_LINK p) 0).set1 (HS.EVT_LINK_DOWN p)
    let s := s.setHost p (fun x => { x with arp := none, arpRun := false, busyUntil := 0, txQ := [] })
    s.arpShow.portGone p

/-- HOST_LINK_DOWN (R297). -/
def execHostLinkDown (t : Nat) (p : Fin 2) (s : State) : Out := run t (fun s => s.hostDown p) s

/-- ARP_RETRY (R296): every 100 ms while no answer has come. -/
def execArpRetry (t : Nat) (p : Fin 2) (s : State) : Out :=
  run t (fun s =>
    let x := s.host p
    s.when (x.arpRun && s.on (HS.STAT_LINK p) && decide (x.arpAt + 100 * tickMs ≤ s.mono)) (fun s => s.arpAsk p)) s

/-- ARP_REFRESH (R296): a resolved entry every 30 s. -/
def execArpRefresh (t : Nat) (p : Fin 2) (s : State) : Out :=
  run t (fun s =>
    let x := s.host p
    s.when (x.arp.isSome && !x.arpRun && decide (x.arpAt + 30 * tickS ≤ s.mono)) (fun s => s.arpStart p)) s

/-- ARP_REFRESH_TIMEOUT (R296): a refresh unanswered for 3 s ends the entry; its requests go on. -/
def execArpRefreshTimeout (t : Nat) (p : Fin 2) (s : State) : Out :=
  run t (fun s =>
    let x := s.host p
    s.when (x.arp.isSome && x.arpRun && decide (x.arpSince + 3 * tickS ≤ s.mono)) (fun s =>
      ((s.setHost p (fun x => { x with arp := none })).arpShow).portGone p)) s

/-- ARP_REPLY_RX (R296). -/
def execArpReplyRx (t : Nat) (p : Fin 2) (a : ArpInfo) (sec : SecInfo) (s : State) : Out :=
  run t (fun s => s.hostRx p sec (fun s => s.when ((s.host p).arpRun && a.senderIp = s.get (OUT.DST_ADDR p) &&
      a.targetIp = s.get (HS.IPV4_ADDR p)) (fun s =>
    (s.setHost p (fun x => { x with arp := some a.senderMac, arpRun := false, arpAt := s.mono })).arpShow))) s

/-- ARP_REQUEST_RX (R76, R306): answered for the port's own address. -/
def execArpRequestRx (t : Nat) (q : Port) (a : ArpInfo) (sec : SecInfo) (s : State) : Out :=
  run t (fun s =>
    match q with
    | .head h =>
      s.when (s.portUp q && s.get (HP.IPV4_ADDR h) ≠ 0 && a.targetIp = s.get (HP.IPV4_ADDR h)) (fun s =>
        s.emit (.arpRep q a.senderMac a.senderIp {}))
    | .host p => s.hostRx p sec (fun s => s.when (s.get (HS.IPV4_ADDR p) ≠ 0 && a.targetIp = s.get (HS.IPV4_ADDR p)) (fun s =>
        s.hostTx p false arpLen (fun w => .arpRep q a.senderMac a.senderIp w)))) s

/-- ICMP_ECHO_RX (R306). -/
def execIcmpEchoRx (t : Nat) (p : Fin 2) (d : Datagram) (sec : SecInfo) (s : State) : Out :=
  run t (fun s => s.hostRx p sec (fun s => s.when (frameTaken d sec.protected_ && d.dstIp = s.get (HS.IPV4_ADDR p)) (fun s =>
    s.hostTx p false (66 + d.payload.length) (fun w => .icmp (.host p) d.srcMac d.srcIp w d.payload)))) s

end Sys2Proof.Machine
end

