-- ==== Sys2Proof/Machine/Output.lean ====
section
/-! DEFINITION. The output block and the Age Monitor: result lines and blocks, frames, datagrams, expectations, and the golden
signature (R284 to R302, R366, R404 to R406). -/

namespace Sys2Proof.Machine

/-- The output block delivers a stream: it is enabled and the device is not in Hold (R301, R304). -/
def State.outOn (s : State) (f : Fld) : Bool := s.on OUT.CTRL_EN && s.on f && s.dev ≠ dsHold

/-- The ports of `outPorts` that can take `n` records; the others' are discarded and counted. -/
def State.takePorts (s : State) (n : Nat) : List Nat × State :=
  s.outPorts.foldl (fun (e : List Nat × State) p =>
    let (l, s) := e
    if s.portBar p = 0 then (l ++ [p], s) else (l, s.barDrop (s.portBar p) n)) ([], s)

/-! ### Column entries (R284, R286, R288) -/

/-- A column record queued (R297): the queue holds 1,024, and the oldest goes where it is full. -/
def State.queueCol (s : State) (r : ColRec) : State :=
  let (ports, s) := s.takePorts 1
  if ports.isEmpty then s
  else
    let q := s.out.colQ ++ [{ r with todo := ports }]
    let lost := decide (1024 < q.length)
    let s : State := { s with out := { s.out with colQ := if lost then q.tail else q } }
    (if lost then (s.bump OUT.COL_QDROP_CNT).set1 OUT.EVT_COL_QDROP else s).outStat

/-- A malformed entry or block discarded (R286); `parts` is the partition of its stream (R345, assumption 99). -/
def State.blockErr (s : State) (inj : Bool) (parts : Nat := 1) : State :=
  (s.bump OUT.BLOCK_ERR_CNT).raise OUT.EVT_BLOCK_ERR 1 parts inj

/-- The service that the next entry of a column tile must name (R286): the column in service when its line turned full. -/
def TileSt.nextSvc (x : TileSt) : Option ColSvc := x.outSvc.head?.bind id

/-- COLUMN_ENTRY_DRAIN (R284, R286, R287, R288). -/
def execColumnEntryDrain (t : Nat) (g : Fin 80) (s : State) (x : Soft := Soft.none) : Out :=
  softRun t g x (fun s => s.when ((s.dev = dsNoon || s.dev = dsDusk) && s.get (TILE.ROLE_ROLE g) = 2 && s.on (RING.CFG_EN g 3) &&
      decide (0 < s.ringOcc g 3)) (fun s =>
    let svc := (s.tile g).nextSvc
    match s.ringPop g 3 with
    | (none, s) => s
    | (some b, s) =>
    let svc := svc.filter (fun c => c.slot * 8192 + c.col = fieldB b 0 2)
    let inj := s.out.injBad
    let s : State := { s with out := { s.out with injBad := false } }
    match (if inj || bitsOf (fieldB b 15 1) 4 4 ≠ 0 then none else svc) with
    | none => s.blockErr inj
    | some c =>
      if !s.outOn OUT.CTRL_COL_EN then s
      else s.queueCol {
        svc := c, band := (List.range 4).map (fun i => fieldB b (2 + 2 * i) 2), ground := fieldB b 10 2, free := fieldB b 12 2,
        conf := fieldB b 14 1, prog := fieldB b 15 1 % 16, todo := [], at_ := s.mono })) s

/-! ### Result blocks (R285 to R287, R291 to R293, R366) -/

/-- Lines that a result block takes, by its header. -/
def blockLines (hdr : Bytes) : Nat := ceilDiv (64 + 32 * fieldB hdr 4 2) 512

/-- The tiles of the last stage. -/
def State.lastTiles (s : State) : List Nat :=
  (List.range 80).filter (fun g => s.get (TILE.ROLE_ROLE g) = 1 && s.get (TILE.ROLE_STAGE g) = s.lastStage)

/-- `n` lines taken from the head of a ring; none where a read or a tag fails. -/
def State.ringPops (s : State) (g r : Nat) : Nat → Option Bytes × State
  | 0 => (some [], s)
  | n + 1 =>
    match s.ringPop g r with
    | (none, s) => (none, s)
    | (some a, s) =>
      match s.ringPops g r n with
      | (none, s) => (none, s)
      | (some b, s) => (some (a ++ b), s)

/-- A result block is well formed (R285, R286). -/
def blockOk (b : Bytes) (a : Nat) : Bool :=
  fieldB b 0 4 = a % 2 ^ 32 && decide (fieldB b 4 2 ≤ 256) && fieldB b 7 57 = 0

/-- The objects of a result block. -/
def blockObjs (b : Bytes) : List Bytes := (List.range (fieldB b 4 2)).map (fun i => sliceB b (64 + 32 * i) 32)

/-- The signature of R366 over result blocks in ascending tile index. -/
def signature (bs : List Bytes) : Nat := crc64 (bs.flatMap (fun b => sliceB b 4 60 ++ (blockObjs b).flatten))

/-- The golden signature compared (R366); the forced wedge's pre-emption ends (R365). -/
def State.goldJudge (s : State) (j : WJob) (sig : Nat) : State :=
  let i := j.get (MAP.CTRL_IDX_MODE 0)
  let want := s.get (BIST.GOLD_EXP_LO i) + s.get (BIST.GOLD_EXP_HI i) * 2 ^ 32
  let s := (s.put BIST.GOLD_SIG_LO (sig % 2 ^ 32)).put BIST.GOLD_SIG_HI (sig / 2 ^ 32)
  let s : State := { s with age := { s.age with forced := false } }
  let more := s.age.goldT0.isSome || (s.pipe.backlog ++ s.pipe.flight).any (fun j => j.golden)
  let s := s.put BIST.STAT_GOLD_INFLIGHT (b2n more)
  if sig = want then s.bump BIST.GOLD_RUN_CNT else (s.bump BIST.GOLD_FAIL_CNT).raise BIST.EVT_GOLD_FAIL 2 8

/-- A report of a mismatch queued on the ports of R297 (R406). -/
def State.report3 (s : State) (body : Bytes) : State :=
  if !(s.on OUT.CTRL_EN && s.dev ≠ dsHold) then s
  else
    let (ports, s) := s.takePorts 1
    { s with out := { s.out with reports := s.out.reports ++ ports.map (fun p => (p, body)) } }

/-- The 48 bytes of a wedge mismatch report (R406). -/
def xcReport (own ptn : XcRec) : Bytes :=
  [1, 0, 0, 0] ++ leBytes 2 own.wedge ++ zeroBytes 2 ++ leBytes 8 (lowBits 64 own.tClose) ++ leBytes 8 (lowBits 64 ptn.tClose) ++
    leBytes 4 own.admNo ++ leBytes 4 ptn.admNo ++ leBytes 8 own.digest ++ leBytes 8 ptn.digest

/-- A matched pair of cross-check records judged (R405). -/
def State.xcJudge (s : State) (own ptn : XcRec) : State :=
  if own.digest = ptn.digest then s.bump PLK.XC_MATCH_CNT
  else ((s.bump PLK.XC_MISMATCH_CNT).raise PLK.EVT_XC_MISMATCH 0).report3 (xcReport own ptn)

/-- Whether an own and a partner record match (R405). -/
def State.xcMatch (s : State) (own ptn : XcRec) : Bool :=
  own.wedge = ptn.wedge && decide ((own.tClose - ptn.tClose).natAbs ≤ s.get PLK.XC_TOL_US * 1000)

/-- The device compares wedge results (R404). -/
def State.xcOn (s : State) : Bool :=
  s.on PLK.CTRL_XC_EN && s.linkUp && s.on PLK.STAT_IMG_MATCH && s.dev = dsNoon && s.get PLK.PTN_STATE_STATE = dsNoon

/-- An own record sent, and matched or left waiting (R405). -/
def State.xcOwnRecord (s : State) (r : XcRec) : State :=
  if !s.xcOn then s
  else
    let b := leBytes 1 r.wedge ++ leBytes 1 r.flags ++ leBytes 2 r.nObj ++ leBytes 4 r.admNo ++ leBytes 8 (lowBits 64 r.tClose) ++
      leBytes 8 r.digest
    let s := s.linkSend { type := 0x06, payload := b }
    match s.plk.xcPtn.find? (fun x => s.xcMatch r x.xr) with
    | some x => (s.pl (fun k => { k with xcPtn := k.xcPtn.erase x })).xcJudge r x.xr
    | none => s.pl (fun k => { k with xcOwn := k.xcOwn ++ [{ xr := r, at_ := s.mono }] })

/-- The flags of a frame besides STALE (R292). -/
def State.frameFlags (s : State) (j : WJob) (n : Nat) (prog : Nat) (cut : Bool) : Nat :=
  let x := s.wd j.w
  let fl (i : Nat) (v : Bool) := if v then 2 ^ i else 0
  fl 0 j.timeout + fl 1 (j.ovf || x.overflow) + fl 2 (x.pose || j.pose.isNone) + fl 3 j.late.isSome + fl 4 x.map + fl 6 cut + fl 7 j.degraded +
    fl 8 j.partial_ + fl 9 (n = 0) + prog * 2 ^ 24

/-- A wedge frame formed from the result blocks, in ascending tile index (R291 to R293), queued, and cross-checked. -/
def State.frameOut (s : State) (j : WJob) (bs : List Bytes) : State :=
  let all := bs.flatMap blockObjs
  let cut := decide (256 < all.length)
  let objs := all.take 256
  let prog := bs.foldl (fun m b => Nat.lor m (fieldB b 6 1)) 0
  let flags := s.frameFlags j objs.length prog cut
  let ovf := (s.wd j.w).ovfCnt
  let s := s.setWd j.w (fun x => { x with overflow := false, ovfCnt := 0, pose := false, map := false })
  let s := if cut then (s.bump OUT.OBJ_TRUNC_CNT).set1 OUT.EVT_OBJ_TRUNC else s
  let s := s.xcOwnRecord { wedge := j.w, flags := flags % 256, nObj := objs.length, admNo := j.admNo, tClose := j.tClose,
                           digest := signature bs }
  if !s.outOn OUT.CTRL_WEDGE_EN then s
  else
    let (ports, s) := s.takePorts 1
    let f (p : Nat) : WFrame := { port := p, job := j, flags := flags, lateStage := j.late.getD 0xFF, nCand := all.length,
                                  ovfCnt := satU 32 ovf, epoch := j.get (MAP.EPOCH_EPOCH 0), objs := objs }
    { s with out := { s.out with frames := s.out.frames ++ ports.map f } }

/-- An admission whose blocks have all been drained (R286, R287, R366): a discarded block, kept here as an empty one, leaves no
frame. -/
def State.admissionOut (s : State) (j : WJob) : State :=
  let bs := s.lastTiles.filterMap (fun g => (s.out.blocks.find? (fun e => e.1 = j.admNo && e.2.1 = g)).map (fun e => e.2.2))
  let s : State := { s with out := { s.out with blocks := s.out.blocks.filter (fun e => e.1 ≠ j.admNo) },
                            pipe := { s.pipe with flight := s.pipe.flight.filter (fun x => x.admNo ≠ j.admNo) } }
  if j.golden then s.goldJudge j (signature bs)
  else if bs.any (fun b => b.isEmpty) then s
  else s.frameOut j bs

/-- RESULT_BLOCK_DRAIN (R285 to R287, R366): a block waits while the wedge queue of 128 KiB cannot hold it. -/
def execResultBlockDrain (t : Nat) (g : Fin 80) (s : State) (x : Soft := Soft.none) : Out :=
  softRun t g x (fun s =>
    let hdr := s.spdBytes g (s.headLine g 3 * 512) 64
    let n := blockLines hdr
    match (s.tile g).blocks with
    | [] => s
    | a :: rest =>
      match s.pipe.flight.find? (fun j => j.admNo = a) with
      | none => s
      | some j =>
        let full := decide (n ≤ s.ringOcc g 3) || (decide (256 < fieldB hdr 4 2) && decide (0 < s.ringOcc g 3))
        let room := j.golden || decide (s.wedgeQueue + n * 512 ≤ 2 ^ 17) || decide (256 < fieldB hdr 4 2)
        s.when ((s.dev = dsNoon || s.dev = dsDusk) && s.on (RING.CFG_EN g 3) && full && room) (fun s =>
          match s.ringPops g 3 (min n (s.ringOcc g 3)) with
          | (none, s) => s
          | (some b, s) =>
          let s := s.setTile g (fun x => { x with blocks := rest })
          let ok := blockOk b a
          let s := if ok then s else s.blockErr false (if j.golden then 8 else 2)
          let s : State := { s with out := { s.out with blocks := s.out.blocks ++ [(a, g.val, if ok then b else [])] } }
          let s := if s.lastTiles.all (fun g => s.out.blocks.any (fun e => e.1 = a && e.2.1 = g)) then s.admissionOut j else s
          s.outStat)) s

/-! ### The Age Monitor (R298 to R302) -/

/-- TB_SNS, in 1/16 ns, at which byte `i` of the datagram's records passes the MDI when the frame starts now (R298): preamble,
MAC header, tag, SecTAG, IPv4, UDP and datagram header before it. -/
def State.passesMdi (s : State) (p : Fin 2) (i : Nat) : Int :=
  let n := 8 + 14 + 4 * s.get (HS.CTRL_VLAN_EN p) + 16 * b2n (s.secOn p) + 28 + 16 + i
  s.egrMdi (.host p) (s.time.sns.at_ ((s.mono : Int) + n * 8 * tickNs))

/-- An event of the Age Monitor with its C0 entry, one per kind and slot in a revolution (R302). -/
def State.amLog (s : State) (code : Nat) (f : Fld) (inj : Bool := false) : State :=
  if s.out.staleLog.contains code then s.set1 f
  else ({ s with out := { s.out with staleLog := s.out.staleLog ++ [code] } } : State).raise f 0 (if code < 16 then 1 else 2) inj

/-- The oldest open expectation of a slot and column closed (R300). -/
def State.closeCol (s : State) (slot col : Nat) : State :=
  match s.out.expects.find? (fun e => !e.wedge && e.slot = slot && e.id = col) with
  | none => s
  | some e => { s with out := { s.out with expects := s.out.expects.erase e } }

/-- The expectation of a wedge frame closed (R300). -/
def State.closeWedge (s : State) (w : Nat) (tClose : Int) : State :=
  match s.out.expects.find? (fun e => e.wedge && e.id = w && e.tClose = tClose) with
  | none => s
  | some e => { s with out := { s.out with expects := s.out.expects.erase e } }

/-- The 32 bytes of a column record with its age in units of 8 ns (R288, R289). -/
def ColRec.bytes (r : ColRec) (age : Nat) (stale : Bool) : Bytes :=
  let span := ((r.svc.last - r.svc.first) / 8).toNat
  let sat := decide (0xFFFF < span) || decide (0xFFFF < age)
  leBytes 2 (r.svc.slot * 8192 + r.svc.col) ++ leBytes 2 (r.svc.flags + b2n stale * 64 + b2n sat * 256 + r.prog * 4096) ++
    leBytes 4 (r.svc.az + r.conf * 2 ^ 24) ++ leBytes 8 (lowBits 64 r.svc.first) ++ leBytes 2 (satU 16 span) ++
    leBytes 2 (satU 16 age) ++ r.band.flatMap (leBytes 2) ++ leBytes 2 r.ground ++ leBytes 2 r.free

/-- A column record checked as its datagram starts (R299, R300, R360): its bytes, none where it is suppressed. -/
def State.checkCol (s : State) (p : Fin 2) (i : Nat) (r : ColRec) : Option Bytes × ColRec × State :=
  let age := ((s.passesMdi p (32 * i) - 16 * r.svc.first) / 128).toNat
  let inj := s.out.injAge
  let s : State := { s with out := { s.out with injAge := false } }
  let checked := age + if inj then 125000 else 0
  let stale := decide (s.get AM.COL_LIM_US * 125 < checked)
  let s := if r.seen then s else s.closeCol r.svc.slot r.svc.col
  let s := s.putMax AM.MAX_COL_AGE_AGE age
  let s : State := { s with age := { s.age with colMax := max s.age.colMax age } }
  if !stale then (some (r.bytes age false), { r with seen := true }, s)
  else
    let s := (s.bump (AM.COL_STALE_CNT r.svc.slot)).amLog r.svc.slot AM.EVT_COL_STALE inj
    let s := if r.stale then s else s.bump64 SI.AV_FAIL_LO SI.AV_FAIL_HI
    let r := { r with seen := true, stale := true }
    if s.on AM.CTRL_COL_SUPP then (none, r, s.bump AM.SUPP_CNT) else (some (r.bytes age true), r, s)

/-! ### Datagrams (R295, R297) -/

/-- A change of OUT.CTRL.PORT taken at a datagram boundary: what waits follows it, but a record or frame that one of two ports
has already sent does not go back to it. -/
def State.retarget (s : State) : State :=
  let code := s.get OUT.CTRL_PORT
  if code = s.out.portSel then s
  else
    let now := s.outPorts
    let wasBoth := s.out.portSel = 2
    let move (q : Nat) : List Nat := if wasBoth then (if now.contains q then [q] else []) else now
    let colQ := (s.out.colQ.map (fun r => { r with todo := if wasBoth then r.todo.filter now.contains else now })).filter
      (fun r => !r.todo.isEmpty)
    let frames := s.out.frames.flatMap (fun f => if f.frag ≠ 0 then [f] else (move f.port).map (fun q => { f with port := q }))
    let reports := s.out.reports.flatMap (fun e => (move e.1).map (fun q => (q, e.2)))
    let tel := s.age.telWait.flatMap (fun e => (move e.1).map (fun q => (q, e.2)))
    let s : State := { s with out := { s.out with portSel := code, colQ := colQ, frames := frames, reports := reports },
                              age := { s.age with telWait := tel } }
    [0, 1].foldl (fun s p => s.portGone p) s

/-- The 16 bytes at the start of every result datagram (R295), and SEQ taken. -/
def State.dgramHead (s : State) (p : Fin 2) (type count frag frags : Nat) : Bytes × State :=
  let n := (s.host p).seq.getD (type - 1) 0
  let dev := s.get OUT.RESTARTS_COUNT + s.get SYS.STATE_PAIR_ROLE * 256
  (leBytes 2 0x4F52 ++ [1] ++ leBytes 1 type ++ leBytes 4 n ++ leBytes 2 count ++ leBytes 1 frag ++ leBytes 1 frags ++ leBytes 4 dev,
   s.setHost p (fun x => { x with seq := x.seq.set (type - 1) ((n + 1) % 2 ^ 32) }))

/-- A result datagram sent to the destination of port `p` (R295). -/
def State.resultTx (s : State) (p : Fin 2) (udp : Nat) (b : Bytes) : State :=
  (s.bump (OUT.DGRAM_CNT p)).udpTx p false ((s.dstMac p).getD 0) (s.get (OUT.DST_ADDR p)) udp (Config.resultUdp p).toNat b

/-- Column records wait for port `p` and may leave (R295). -/
def State.colReady (s : State) (p : Nat) : Bool :=
  let ws := s.out.colQ.filter (fun r => r.todo.contains p)
  !ws.isEmpty && (decide (s.get OUT.COL_PACK_MAX ≤ ws.length) || s.get OUT.COL_PACK_HOLD_US = 0 || s.out.held.contains p)

/-- A column datagram (R295, R299): up to MAX records; one left with none is not sent. -/
def State.colTx (s : State) (p : Fin 2) : State :=
  let ws := (s.out.colQ.filter (fun r => r.todo.contains p.val)).take (s.get OUT.COL_PACK_MAX)
  let (bs, done, s) := ws.foldl (fun (e : List Bytes × List (ColRec × ColRec) × State) r =>
    let (bs, done, s) := e
    let (b, r', s) := s.checkCol p bs.length r
    (bs ++ b.toList, done ++ [(r, { r' with todo := r.todo.filter (fun q => q ≠ p.val) })], s)) (([], [], s) : _ × _ × State)
  let left (r : ColRec) : ColRec := ((done.find? (fun e => e.1 = r)).map Prod.snd).getD r
  let s : State := { s with out := { s.out with colQ := (s.out.colQ.map left).filter (fun r => !r.todo.isEmpty),
                                                held := s.out.held.filter (fun q => q ≠ p.val) } }
  let s := s.outStat
  if bs.isEmpty then s
  else
    let (h, s) := s.dgramHead p 1 bs.length 0 1
    (s.addCnt OUT.COL_SENT_CNT bs.length).resultTx p (s.get (OUT.DST_PORTS_COL_UDP p)) (h ++ bs.flatten)

/-- The 64-byte frame header (R291). -/
def WFrame.head (f : WFrame) (flags ageClose ageOpen : Nat) : Bytes :=
  let j := f.job
  leBytes 2 j.w ++ leBytes 2 f.objs.length ++ leBytes 4 flags ++ leBytes 8 (lowBits 64 j.tClose) ++ leBytes 8 (lowBits 64 j.tOpen) ++
    leBytes 4 ageClose ++ leBytes 4 ageOpen ++ leBytes 4 j.admNo ++ leBytes 4 f.epoch ++ leBytes 1 j.cover ++ leBytes 1 j.missing ++
    leBytes 1 j.sweep ++ leBytes 1 f.lateStage ++ leBytes 2 j.nRows ++ leBytes 2 f.nCand ++
    leBytes 8 (lowBits 64 ((j.pose.map (fun p => p.t)).getD 0)) ++ leBytes 4 f.ovfCnt ++ zeroBytes 4

/-- The continuation header of a later fragment (R295). -/
def WFrame.cont (f : WFrame) : Bytes :=
  leBytes 2 f.job.w ++ leBytes 2 f.objs.length ++ leBytes 4 f.job.admNo ++ leBytes 4 f.ageClose ++ leBytes 4 f.flags

/-- `s` with a waiting frame replaced, or taken away. -/
def State.setFrame (s : State) (f : WFrame) (g : Option WFrame) : State :=
  { s with out := { s.out with frames := s.out.frames.flatMap (fun x => if x = f then g.toList else [x]) } }

/-- The next fragment of a frame (R295, R298, R299): its age is stamped and checked with fragment 0. -/
def State.fragTx (s : State) (p : Fin 2) (f : WFrame) : State :=
  let (a, b) := fragFit (s.get OUT.MTU_BYTES)
  let n := fragCount (s.get OUT.MTU_BYTES) f.objs.length
  let send (s : State) (f : WFrame) (hdr : Bytes) (objs : List Bytes) : State :=
    let (h, s) := s.dgramHead p 2 objs.length f.frag n
    s.resultTx p (s.get (OUT.DST_PORTS_WEDGE_UDP p)) (h ++ hdr ++ objs.flatten)
  if f.frag = 0 then
    let dep := s.passesMdi p 0
    let age (t : Int) : Nat := satU 32 ((dep - 16 * t) / 16).toNat
    let ac := age f.job.tClose
    let stale := decide (s.get AM.WEDGE_LIM_US * 1000 < ac)
    let s := (s.closeWedge f.job.w f.job.tClose).putMax AM.MAX_WEDGE_AGE ac
    let s : State := { s with age := { s.age with wedgeMax := max s.age.wedgeMax ac } }
    let s := if stale then (s.bump AM.WEDGE_STALE_CNT).amLog 16 AM.EVT_WEDGE_STALE else s
    if stale && s.on AM.CTRL_WEDGE_SUPP then ((s.bump AM.SUPP_CNT).setFrame f none).outStat
    else
      let f' := { f with ageClose := ac, flags := f.flags + b2n stale * 32, frag := 1 }
      let s := (s.setFrame f (if n = 1 then none else some f')).outStat
      let s := s.bump OUT.WEDGE_SENT_CNT
      send s { f' with frag := 0 } (f.head f'.flags ac (age f.job.tOpen)) (f.objs.take a)
  else
    let s := (s.setFrame f (if f.frag + 1 = n then none else some { f with frag := f.frag + 1 })).outStat
    send s f f.cont ((f.objs.drop (a + (f.frag - 1) * b)).take b)

/-- COL_PACK_HOLD_EXPIRY (R295): HOLD_US have passed since the first waiting record was queued. -/
def execColPackHoldExpiry (t : Nat) (p : Fin 2) (s : State) : Out :=
  run t (fun s =>
    match s.out.colQ.find? (fun r => r.todo.contains p.val) with
    | none => s
    | some r => s.when (decide (r.at_ + s.get OUT.COL_PACK_HOLD_US * tickUs ≤ s.mono) && !s.out.held.contains p.val) (fun s =>
        { s with out := { s.out with held := s.out.held ++ [p.val] } })) s

/-- An ERAP response or notification that waits sent. -/
def State.ctrlNext (s : State) (p : Fin 2) (x : TxWait) : State :=
  (s.setHost p (fun h => { h with txQ := h.txQ.drop 1 })).udpTx p x.plain x.mac x.ip x.dst x.src x.body

/-- What leaves at a datagram boundary of port `p` (R297, R307, R386, R406): column records, then ERAP responses and notifications, then
wedge fragments, the fragments of a frame begun first, then mismatch reports, then telemetry. -/
def State.nextTx (s : State) (p : Fin 2) : State :=
  let mine := s.out.frames.filter (fun f => f.port = p.val)
  let frame := (mine.find? (fun f => f.frag ≠ 0)).orElse (fun _ => mine.head?)
  let may := s.portBar p = 0
  let results := may && s.on OUT.CTRL_EN && s.dev ≠ dsHold
  if results && s.colReady p then s.colTx p
  else if let x :: _ := (s.host p).txQ then s.ctrlNext p x
  else match (if results then frame else none) with
    | some f => s.fragTx p f
    | none =>
      match (if results then s.out.reports.find? (fun e => e.1 = p.val) else none) with
      | some e =>
        let s : State := { s with out := { s.out with reports := s.out.reports.erase e } }
        let (h, s) := s.dgramHead p 3 1 0 1
        s.resultTx p (s.get (OUT.DST_PORTS_WEDGE_UDP p)) (h ++ e.2)
      | none =>
        match (if may then s.age.telWait.find? (fun e => e.1 = p.val) else none) with
        | none => s
        | some e =>
          let s : State := { s with age := { s.age with telWait := s.age.telWait.erase e } }
          s.resultTx p (s.get AGE.TEL_UDP_PORT) e.2

/-- DATAGRAM_TX_START (R295 to R300). -/
def execDatagramTxStart (t : Nat) (p : Fin 2) (s : State) : Out :=
  run t (fun s => s.when (decide ((s.host p).busyUntil ≤ s.mono)) (fun s =>
    let s := s.retarget
    s.nextTx p)) s

/-! ### Missed expectations (R300, R302, R360) -/

/-- COLUMN_EXPECTATION_MISSED (R300). -/
def execColumnExpectationMissed (t : Nat) (s : State) : Out :=
  run t (fun s =>
    let due := s.out.expects.filter (fun e => !e.wedge && decide (e.ends ≤ s.mono))
    let s : State := { s with out := { s.out with expects := s.out.expects.filter (fun e => !due.contains e) } }
    due.foldl (fun s e =>
      let s := ((s.bump (AM.COL_MISS_CNT e.slot)).bump64 SI.AV_FAIL_LO SI.AV_FAIL_HI).amLog (8 + e.slot) AM.EVT_COL_MISSED
      s.put AM.LAST_MISS (e.id + e.slot * 2 ^ 13 + 2 ^ 31)) s) s

/-- WEDGE_EXPECTATION_MISSED (R300). -/
def execWedgeExpectationMissed (t : Nat) (s : State) : Out :=
  run t (fun s =>
    let due := s.out.expects.filter (fun e => e.wedge && decide (e.ends ≤ s.mono))
    let s : State := { s with out := { s.out with expects := s.out.expects.filter (fun e => !due.contains e) } }
    due.foldl (fun s e => ((s.bump AM.WEDGE_MISS_CNT).amLog 17 AM.EVT_WEDGE_MISSED).put AM.LAST_MISS
      (e.id * 2 ^ 16 + 2 ^ 30 + 2 ^ 31)) s) s

end Sys2Proof.Machine
end

