-- ==== Sys2Proof/Machine/Maint.lean ====
section
/-! DEFINITION. Analogue self-test slices, timers of the Maintenance Scheduler, DRAM scrub, ageing, telemetry
(R368 to R386). -/

namespace Sys2Proof.Machine

/-- `s` with the ageing, telemetry and self-test state changed. -/
def State.ag (s : State) (f : AgeSt → AgeSt) : State := { s with age := f s.age }

/-! ### Analogue self-test slices (R368 to R372) -/

/-- Budgets of the slices in us (R368). -/
def sliceBudgets : List Nat := [60, 60, 40, 40, 40, 40, 150, 150, 50, 180, 180, 120, 200]

/-- The budget of a slice, us. -/
def sliceBudget (id : Nat) : Nat := sliceBudgets.getD id 200

/-- A host port that slice 0xC may test: its link is down or it is disabled (R368); the first from `from_` on. -/
def State.idlePort (s : State) (from_ : Nat) : Option Nat :=
  [from_, 1 - from_].find? (fun p => !s.on (HS.STAT_LINK p) || !s.on (HS.CTRL_EN p))

/-- A lane that slice 0xB tests next: the lanes not removed, in rotation. -/
def State.nextLane (s : State) : Option Nat :=
  let r := s.age.sliceRot.getD 2 0
  ([0, 1, 2].map (fun i => (r + i) % 3)).find? (fun l => !bitOf s.plk.lanesOut l)

/-- The group, lane or port that the next run of a slice tests; none where its condition is not met: no port is idle, or the spare PLL
carries a service already (DEDUCED, assumption 83). -/
def State.sliceUnit (s : State) (id : Nat) : Option Nat :=
  match id with
  | 0x9 => some (s.age.sliceRot.getD 0 0 % 36)
  | 0xA => some (s.age.sliceRot.getD 1 0 % 36)
  | 0xB => s.nextLane
  | 0xC => s.idlePort (s.age.sliceRot.getD 3 0 % 2)
  | 0x6 => if bitOf (s.get CM.STAT_SPARE_USE) 0 then none else some 0
  | 0x7 => if bitOf (s.get CM.STAT_SPARE_USE) 1 then none else some 0
  | _ => some 0

/-- The slice whose turn it is: enabled, its condition met, in ascending order from the last on (R369). -/
def State.sliceTurn (s : State) : Option (Nat × Nat) :=
  ((List.range 13).map (fun i => (s.age.sliceNext + i) % 13)).findSome? (fun id =>
    if bitOf (s.get BIST.SLICE_EN_EN) id then (s.sliceUnit id).map (fun g => (id, g)) else none)

/-- The room for a slice (R369): in Noon an open P3 window that holds its budget, in Ready the gap since the last. -/
def State.sliceRoom (s : State) (id : Nat) : Bool :=
  if s.dev = dsNoon then (List.range 8).any (fun h => decide (sliceBudget id * 1000 ≤ s.windowLeft h))
  else s.dev = dsReady && decide (s.age.sliceEnd + s.get BIST.READY_GAP_MS * tickMs ≤ s.mono)

/-- The instance of activity 6 that a slice is. -/
abbrev sliceAct : Nat := 6

/-- The spare PLL carries the service of slices 0x6 and 0x7 (R368). -/
def State.spareFor (s : State) (id : Nat) (on_ : Bool) : State :=
  if id = 6 || id = 7 then s.put CM.STAT_SPARE_USE (withBits (s.get CM.STAT_SPARE_USE) (id - 6) 1 (b2n on_)) else s

/-- SLICE_START (R369, R370, R374). -/
def execSliceStart (t : Nat) (s : State) : Out :=
  run t (fun s =>
    match s.sliceTurn with
    | none => s
    | some (id, g) => s.when (s.age.slice.isNone && (s.dev = dsNoon || s.dev = dsReady)) (fun s =>
      let s := s.msRequest sliceAct id
      s.when (s.msCanStart sliceAct id && s.sliceRoom id) (fun s =>
        let s := (s.msStart sliceAct id).ag (fun a => { a with slice := some (id, g, s.mono), sliceNext := (id + 1) % 13 })
        ((s.set1 BIST.STAT_RUNNING).put BIST.STAT_CUR id).spareFor id true))) s

/-- One word taken by the MISR of R371. -/
def misrStep (sig w : Nat) : Nat :=
  let x := sig * 2 % 2 ^ 32
  Nat.xor (if bitOf sig 31 then Nat.xor x 0x00400007 else x) w

/-- One pass bit folded in. -/
def passStep (sig : Nat) (b : Bool) : Nat := Nat.xor (sig * 2 % 2 ^ 32 + sig / 2 ^ 31) (b2n b)

/-- The signature of a slice (R371). -/
def sliceSig (words : List (BitVec 32)) (passes : List Bool) : Nat :=
  passes.foldl passStep ((words.map BitVec.toNat).foldl misrStep 0xFFFFFFFF)

/-- A lane removed for good (R393): it leaves service. -/
def State.laneOut (s : State) (l : Nat) : State :=
  let s : State := { s with plk := { s.plk with lanesOut := Nat.lor s.plk.lanesOut (2 ^ l) } }
  s.put PLK.STAT_LANES (withBits (s.get PLK.STAT_LANES) l 1 0)

/-- The action of a second consecutive failure (R368). -/
def State.sliceSecond (s : State) (id g : Nat) : State :=
  match id with
  | 0x9 =>
    if s.on BIST.REPAIR_USED_A then s.plain 0x03B 3
    else ((s.put BIST.REPAIR_GRP_A g).set1 BIST.REPAIR_USED_A).raise BIST.EVT_LANE_REPAIR 1
  | 0xA =>
    if s.on BIST.REPAIR_USED_B then s.plain 0x03B 3
    else ((s.put BIST.REPAIR_GRP_B g).set1 BIST.REPAIR_USED_B).raise BIST.EVT_LANE_REPAIR 1
  | 0xB =>
    if s.on BIST.REPAIR_USED_PLK || g = 2 then (s.laneOut g).raise PLK.EVT_LANE_OUT 1
    else
      let up := bitOf (s.get PLK.STAT_LANES) g
      let s := ((s.laneOut g).put BIST.REPAIR_PLK_LANE g).set1 BIST.REPAIR_USED_PLK
      let s := s.put PLK.STAT_LANES (withBits (s.get PLK.STAT_LANES) 2 1 (b2n up))
      s.raise BIST.EVT_LANE_REPAIR 1
  | 0xC => ({ s with hosts := s.hosts.modify g (fun x => { x with off := true }) } : State).plain 0x03B 1
  | _ => s.plain 0x03B 3

/-- What a failure is consecutive to (R371): of slices 0x9 to 0xB one of the same lane group or lane, else one of the same slice. -/
def failKey (id g : Nat) : Nat × Nat := (id, if 9 ≤ id && id ≤ 0xB then g else 0)

/-- The last failure of a slice forgotten: it has passed, or its second has been acted on. -/
def State.failGone (s : State) (id g : Nat) : State := s.ag (fun a => { a with sliceFails := a.sliceFails.filter (fun e => e ≠ failKey id g) })

/-- A failure of a slice (R371): the first is C1, one abort's C1 standing for it; the second acts as R368 states. -/
def State.sliceFail (s : State) (id g sig : Nat) (abort : Bool) : State :=
  let again := s.age.sliceFails.contains (failKey id g)
  let s := (s.bump BIST.SLICE_FAIL_CNT).set1 BIST.EVT_SLICE_FAIL
  let s := (((s.put BIST.LAST_FAIL_SLICE id).put BIST.LAST_FAIL_GROUP g).put BIST.LAST_FAIL_ABORT (b2n abort)).set1 BIST.LAST_FAIL_VALID
  let s := (s.put BIST.LAST_SIG sig).put BIST.LAST_EXP (Config.bistRom id g).toNat
  let s := s.ag (fun a => { a with sliceBad := true })
  if again then (s.failGone id g).sliceSecond id g
  else
    let s := s.ag (fun a => { a with sliceFails := a.sliceFails ++ [failKey id g] })
    if abort then s else s.raise BIST.EVT_SLICE_FAIL 1

/-- The end of a slice: its service returns, the rotation and the round advance (R369, R370, R372). -/
def State.sliceOver (s : State) (id g : Nat) : State :=
  let s := (s.msEnd sliceAct id).ag (fun a =>
    { a with slice := none, sliceEnd := s.mono,
             sliceRot := a.sliceRot.mapIdx (fun i v => if i + 9 = id then g + 1 else v),
             sliceRan := if a.sliceRan.contains id then a.sliceRan else a.sliceRan ++ [id] })
  let s := (s.put BIST.STAT_RUNNING 0).spareFor id false
  let en := (List.range 13).filter (bitOf (s.get BIST.SLICE_EN_EN))
  if en.all (fun i => s.age.sliceRan.contains i || (s.sliceUnit i).isNone) then
    s.ag (fun a => { a with sliceRan := [], roundAt := s.mono, roundMiss := false })
  else s

/-- Ticks at which a slice is aborted: 110 % of its budget (R370). -/
def sliceLimit (id : Nat) : Nat := sliceBudget id * 11 * tickUs / 10

/-- SLICE_DONE (R370, R371): `words` are the loopback payload words in order, `passes` the reference-window checks. -/
def execSliceDone (t : Nat) (words : List (BitVec 32)) (passes : List Bool) (s : State) : Out :=
  run t (fun s =>
    match s.age.slice with
    | none => s
    | some (id, g, at_) => s.when (decide (s.mono < at_ + sliceLimit id)) (fun s =>
      let sig := sliceSig words passes
      let s := (s.sliceOver id g).bump BIST.SLICE_RUN_CNT
      if sig = (Config.bistRom id g).toNat then s.failGone id g
      else s.sliceFail id g sig false)) s

/-- ABORT (R370, R371): the signature of the broken-off test is a free value. -/
def execAbort (t : Nat) (s : State) : Out :=
  run t (fun s =>
    match s.age.slice with
    | none => s
    | some (id, g, at_) => s.when (decide (at_ + sliceLimit id ≤ s.mono)) (fun s =>
      let s := ((s.sliceOver id g).bump BIST.ABORT_CNT).raise BIST.EVT_ABORT 1
      let (w, s) := s.random
      s.sliceFail id g w true)) s

/-- ROUND_TIMEOUT (R372): once for a round. -/
def execRoundTimeout (t : Nat) (s : State) : Out :=
  run t (fun s => s.when (decide (s.age.roundAt + s.get BIST.ROUND_S * tickS ≤ s.mono) && !s.age.roundMiss && s.msAllowed 6) (fun s =>
    (s.ag (fun a => { a with roundMiss := true })).msMiss 6 ((s.age.slice.map (fun e => e.1)).getD s.age.sliceNext))) s

/-! ### Misses (R373, R375) -/

/-- The deadline of a pending activity has passed. -/
def State.msLate (s : State) (a : Act) : Bool :=
  let after (n : Nat) : Bool := decide (a.at_ + n ≤ s.mono)
  match a.code with
  | 1 => decide (a.mark < s.rev.count)
  | 3 => decide (a.mark < s.rev.count)
  | 4 => s.get (MAP.CTRL_CACHE_PERIOD 0) ≠ 0 && decide (a.mark + s.get (MAP.CTRL_CACHE_PERIOD 0) ≤ s.rev.count)
  | 7 => after (2 * (if a.inst < 2 then 128 else 1024) * tickMs)
  | 8 => after (2 * tickS)
  | 9 => after (s.get AGE.CFG_PERIOD_S * tickS)
  | 10 => after (s.get AGE.TELEM_PERIOD_MS * tickMs)
  | _ => false

/-- The unit, die, port or lane that an instance is, as MS.LAST_MISSED shows it (assumption 23). -/
def instNum (code inst : Nat) : Nat :=
  if code = 7 then inst % 2 else if code = 8 then (if inst < 8 then inst else if inst < 10 then inst - 8 else inst - 10) else inst

/-- MISSED (R375): an activity that its state lets run and that has not started by its deadline; an ageing pass stays for
the next pass to catch up, the others are dropped. -/
def execMissed (t : Nat) (code : Fin 12) (inst : Nat) (s : State) : Out :=
  run t (fun s =>
    match s.ms.pend.find? (fun a => a.code = code.val && a.inst = inst) with
    | none => s
    | some a => s.when (s.msAllowed code && s.msLate a) (fun s =>
      let s := s.msMiss code (instNum code inst)
      if code.val = 1 then
        { s with ms := { s.ms with pend := s.ms.pend.map (fun b => if b = a then { b with at_ := s.mono, mark := s.rev.count } else b) } }
      else s.msDrop code inst)) s

/-! ### Scrub and calibration (R378, R379) -/

/-- Whether a die address lies in an enabled region (R338). -/
def State.inRegion (s : State) (u a : Nat) : Bool :=
  (List.range 16).any (fun i =>
    let r := 16 * u + i
    s.on (SI.REGION_ATTR_EN r) && decide (s.get (SI.REGION_BASE_MIB r) * 2 ^ 20 ≤ a) &&
      decide (a < (s.get (SI.REGION_BASE_MIB r) + s.get (SI.REGION_SIZE_MIB r)) * 2 ^ 20))

/-- An uncorrectable error found by the scrub (R378): as R279 in the map region, C1 outside every region, else C2. -/
def State.scrubUe (s : State) (u a : Nat) (inj : Bool) : State :=
  let s := (s.dramUeInfo u a true).set1 (DRAM.EVT_UE u)
  let inMap := match s.mapRegion u with
    | none => false
    | some r => decide (s.get (SI.REGION_BASE_MIB r) * 2 ^ 20 ≤ a) &&
        decide (a < (s.get (SI.REGION_BASE_MIB r) + s.get (SI.REGION_SIZE_MIB r)) * 2 ^ 20)
  if inMap then
    let b := a - s.mapDieAddr u 0
    let unit := (((s.tge u).remap.find? (fun e => e.2 = b / 4096)).map Prod.fst).getD (b / 4096)
    match s.rowAt (unit * 4096 + b % 4096) with
    | some k => s.mapUe u k inj
    | none => s.raise (TGE.EVT_MAP_UE u) 2 0 inj
  else s.raise (DRAM.EVT_UE u) (if s.inRegion u a then 2 else 1) 0 inj

/-- DRAM_SCRUB_READ (R378). -/
def execDramScrubRead (t : Nat) (u : Fin 2) (ecc : EccRes) (s : State) : Out :=
  run t (fun s =>
    let due := decide (s.age.scrubAt.getD u 0 + s.get (DRAM.SCRUB_INT_NS u) * tickNs ≤ s.mono)
    s.when (due && s.msAllowed 11 && !s.ms.run.any (fun a => a.code = 9)) (fun s =>
      let n := s.age.scrubNext.getD u 0
      let wrap := n + 1 = 2 ^ 25
      let s := s.ag (fun a => { a with scrubAt := a.scrubAt.set u s.mono, scrubNext := a.scrubNext.set u (if wrap then 0 else n + 1) })
      let s := if wrap then (s.bump (DRAM.SCRUB_PASS_CNT u)).set1 (DRAM.EVT_SCRUB_PASS u) else s
      let (e, inj, s) := s.dramInject u ecc
      match e with
      | .clean => s
      | .corrected => s.dramCe u (n * 64) true inj
      | .uncorrectable => s.scrubUe u (n * 64) inj)) s

/-- An activity of a timer (R373, R374): requested when the timer has run, done as soon as nothing keeps it. -/
def State.timed (s : State) (code inst : Nat) (due : Bool) (restart f : State → State) : State :=
  let s := if due then restart (s.msRequest code inst) else s
  if s.msCanStart code inst then (f (s.msStart code inst)).msEnd code inst else s

/-- ZQ_CALIBRATION (R379): a hold of the die's traffic for 1 us, seen only as waits. -/
def execZqCalibration (t : Nat) (u : Fin 2) (s : State) : Out :=
  run t (fun s => s.timed 7 u (decide (s.age.zqAt.getD u 0 + 128 * tickMs ≤ s.mono))
    (fun s => s.ag (fun a => { a with zqAt := a.zqAt.set u s.mono })) id) s

/-- READ_RETRAINING (R379): a hold for 8 us. -/
def execReadRetraining (t : Nat) (u : Fin 2) (s : State) : Out :=
  run t (fun s => s.timed 7 (2 + u.val) (decide (s.age.trainAt.getD u 0 + 1024 * tickMs ≤ s.mono))
    (fun s => s.ag (fun a => { a with trainAt := a.trainAt.set u s.mono })) id) s

/-- PORT_PHY_CALIBRATION (R379): heads 0 to 7, host ports 8 and 9, lanes 10 to 12. -/
def execPortPhyCalibration (t : Nat) (port : Fin 13) (s : State) : Out :=
  run t (fun s => s.timed 8 port (decide (s.age.phyAt.getD port 0 + tickS ≤ s.mono))
    (fun s => s.ag (fun a => { a with phyAt := a.phyAt.set port s.mono })) id) s

/-! ### Ageing (R380 to R384) -/

/-- A PMBus transaction failed three times (R445). -/
def State.pmbusErr (s : State) : State := (s.bump PM.PMBUS_ERR_CNT).raise PM.EVT_PMBUS_ERR 1

/-- An AVS offset moved to `v` mV and the set point with it (R381). -/
def State.avsTo (s : State) (d : Nat) (v : Int) : State :=
  let was := s.getI (AGE.AVS_OFS d)
  if v = was then s
  else
    let mv := (s.get (PM.VCMP_MV d) : Int) + v - was
    ((s.put (AGE.AVS_OFS d) (lowBits 8 v)).put (PM.VCMP_MV d) mv.toNat).set1 AGE.EVT_AVS_STEP

/-- The AVS rule of one die (R381). -/
def State.avsPlan (s : State) (d slack : Nat) (fail : Bool) : State :=
  let ofs := s.getI (AGE.AVS_OFS d)
  let lo := s.getI (AGE.AVS_FUSE_MIN d)
  let hi := s.getI (AGE.AVS_FUSE_MAX d)
  let low := decide (slack < s.get AGE.SLACK_MIN_PS)
  let want := if low then min (ofs + 5) (max ofs hi) else if s.get AGE.SLACK_MAX_PS < slack then max (ofs - 5) (min ofs lo) else ofs
  if low && decide (hi ≤ ofs) then s.raise AGE.EVT_MARGIN_LOW 1
  else if want ≠ ofs && fail then s.pmbusErr
  else s.avsTo d want

/-- The refresh window of a die at its present rate, in units of 1/8 ms (R381): base 32 ms, divided by REF_DIV and halved hot. -/
def State.refWindow8 (s : State) (u : Nat) : Nat := 256 / 2 ^ (s.get (DRAM.STAT_REF_DIV u) + s.get (DRAM.STAT_HOT u))

/-- A change of REF_DIV. -/
def State.refTo (s : State) (u v : Nat) : State :=
  ((s.put (DRAM.STAT_REF_DIV u) v).set1 AGE.EVT_REF_CHANGE).set1 (DRAM.EVT_REF_CHANGE u)

/-- The refresh rule of one DRAM die (R381): `ms` is its shortest retention. -/
def State.refPlan (s : State) (u ms : Nat) : State :=
  let s := s.put (DRAM.RET_MS_MS u) (satU 16 ms)
  let w := s.refWindow8 u
  let n := if 32 * w < 8 * ms then s.age.retHigh.getD u 0 + 1 else 0
  let s := s.ag (fun a => { a with retHigh := a.retHigh.set u (if n = 24 then 0 else n) })
  let d := s.get (DRAM.STAT_REF_DIV u)
  if 8 * ms < 8 * w then
    let s := s.set1 (DRAM.EVT_RET_LOW u)
    if d < 2 then s.refTo u (d + 1) else s
  else if n = 24 && d ≠ 0 then s.refTo u (d - 1) else s

/-- AGEING_MEASUREMENT (R380, R381, R383). -/
def execAgeingMeasurement (t : Nat) (r : AgeMeas) (s : State) : Out :=
  run t (fun s =>
    let due := match s.age.runAt with
      | none => false
      | some a => decide (a + s.get AGE.CFG_PERIOD_S * tickS ≤ s.mono)
    s.timed 9 0 due (fun s => s.ag (fun a => { a with runAt := some s.mono })) (fun s =>
      let s := (List.range 4).foldl (fun s d =>
        let (ps, quad) := r.slack.getD d (255, 0)
        let s := (s.put (AGE.SLACK_PS_WORST d) (satU 8 ps)).put (AGE.SLACK_PS_QUAD d) quad
        s.avsPlan d ps (r.avsFail.getD d false)) s
      let s := (List.range 6).foldl (fun s i => s.put (AGE.RO_KHZ i) (satU 32 (r.ro.getD i 0))) s
      let s := (List.range 2).foldl (fun s u => s.refPlan u (r.retention.getD u 0)) s
      let s := if r.eyes.any (fun e => decide (e.1 < 20)) then s.raise AGE.EVT_EYE_LOW 0 else s
      let s := (List.range 2).foldl (fun s u =>
        let (ht, wd) := r.eyeDram.getD u (100, 100)
        let s := (s.put (DRAM.EYE_HEIGHT u) (satU 8 ht)).put (DRAM.EYE_WIDTH u) (satU 8 wd)
        if ht < 20 then s.raise (DRAM.EVT_EYE_LOW u) 0 else s) s
      let s := if r.reLow then s.raise AGE.EVT_EYE_LOW 1 else s
      let low := (r.eyes ++ r.eyeDram).foldl (fun m e => (min m.1 e.1, min m.2 e.2)) (255, 255)
      (s.ag (fun a => { a with eyeMin := low })).writeAgeLog r.logFail)) s

/-- CANARY (R382). -/
def execCanary (t : Nat) (die : Fin 4) (slackPs : Nat) (s : State) : Out :=
  run t (fun s => s.when (s.dev = dsNoon && decide (slackPs < s.get AGE.SLACK_CANARY_PS)) (fun s =>
    let ofs := s.getI (AGE.AVS_OFS die)
    let hi := s.getI (AGE.AVS_FUSE_MAX die)
    if hi ≤ ofs then s.raise AGE.EVT_CANARY 3 else (s.avsTo die (min (ofs + 5) hi)).raise AGE.EVT_CANARY 2)) s

/-- LIFE_LIMIT (R384). -/
def execLifeLimit (t : Nat) (s : State) : Out :=
  run t (fun s => s.when (decide (50000 ≤ s.hours) && !s.age.limit) (fun s =>
    (s.ag (fun a => { a with limit := true })).raise AGE.EVT_LIFE_LIMIT 0)) s

/-! ### Telemetry (R385, R386) -/

/-- Sum of a field over instances. -/
def State.sumOf (s : State) (n : Nat) (f : Nat → Fld) : Nat := (List.range n).foldl (fun m i => m + s.get (f i)) 0

/-- The counters that a record gives over its period: columns and wedges sent, availability failures, map reads, DRAM and
scratchpad corrected errors, missed activities. -/
def State.telCounts (s : State) : List Nat :=
  [s.get OUT.COL_SENT_CNT, s.get OUT.WEDGE_SENT_CNT, s.get SI.AV_FAIL_LO, s.sumOf 2 TGE.DRAM_READ_CNT, s.sumOf 2 DRAM.CE_CNT,
   s.sumOf 80 TILE.SPD_CE_CNT, s.sumOf 12 MS.MISSED_CNT]

/-- What was counted since the last snapshot; a counter below its value then has been cleared between. -/
def telDiff (now was : Nat) : Nat := if was ≤ now then now - was else now

/-- The 124 bytes of a record before its CRC (R385). -/
def State.telBody (s : State) (r : TelemInput) (seq : Nat) : Bytes :=
  let now := s.telCounts
  let d (i : Nat) : Nat := telDiff (now.getD i 0) (s.age.telPrev.getD i 0)
  let hold := s.dev = dsHold
  let live (v : Nat) : Nat := if hold then 0 else v
  let flags := s.get BIST.STAT_GOLD_STARVED + 2 * b2n s.age.sliceBad + 4 * b2n (!s.pins.faultN)
  leBytes 2 0x4D54 ++ leBytes 1 1 ++ leBytes 1 s.dev ++ leBytes 4 seq ++ leBytes 8 s.monoNs ++ leBytes 8 (lowBits 64 s.snsNs) ++
    s.age.telMax.flatMap (fun x => leBytes 2 (lowBits 16 x)) ++ (List.range 4).flatMap (fun i => leBytes 2 (s.get (PM.VCMP_MV i))) ++
    leBytes 2 r.vcmpAmp10 ++ leBytes 2 r.inWatt10 ++ leBytes 1 (live (s.get (ING.SHED_STAT_LEVEL 0))) ++
    leBytes 1 (live (s.get (ING.SHED_STAT_LEVEL 1))) ++ leBytes 1 (s.get BIST.STAT_GOLD_DEF) ++ leBytes 1 flags ++
    leBytes 4 (live (s.get (VHU.OCC_SLOTS 0))) ++ leBytes 4 (live (s.get (VHU.OCC_SLOTS 1))) ++ leBytes 2 s.age.backMax ++
    leBytes 1 (s.get SI.STAT_FLOG_OCC) ++ leBytes 1 (s.get SI.STAT_MAXSEV) ++ leBytes 4 (d 0) ++ leBytes 4 (d 1) ++ leBytes 4 (d 2) ++
    leBytes 4 s.age.colMax ++ leBytes 4 s.age.wedgeMax ++ leBytes 4 (live (d 3)) ++ leBytes 4 (live (d 4)) ++ leBytes 4 (live (d 5)) ++
    leBytes 4 s.age.lateN ++ leBytes 4 (d 6) ++ zeroBytes 20

/-- TELEMETRY_SNAPSHOT (R385, R386). -/
def execTelemetrySnapshot (t : Nat) (r : TelemInput) (s : State) : Out :=
  run t (fun s => s.when (decide (s.age.telAt + s.get AGE.TELEM_PERIOD_MS * tickMs ≤ s.mono) && s.msAllowed 10) (fun s =>
    let s := if s.age.telWait.isEmpty then s else (s.ag (fun a => { a with telWait := [] })).bump AGE.TEL_DROP_CNT
    let seq := (s.get AGE.TEL_SEQ + 1) % 2 ^ 32
    let b := s.telBody r seq
    let b := b ++ leBytes 4 (crc32 b)
    let s := s.put AGE.TEL_SEQ seq
    let s := s.ag (fun a => { a with
      telAt := s.mono, telPrev := s.telCounts, telMax := (List.range 6).map (fun i => s.getI (PM.TEMP_C16 i)),
      backMax := (s.pipe.backlog.filter (fun j => !j.golden)).length, colMax := 0, wedgeMax := 0, sliceBad := false, lateN := 0,
      telRing := if s.dev = dsHold then a.telRing else (a.telRing ++ [b]).drop (a.telRing.length + 1 - 64) })
    if !s.on AGE.TELEM_SEND then s
    else
      let (ports, s) := s.takePorts 1
      s.ag (fun a => { a with telWait := ports.map (fun p => (p, b)) }))) s

end Sys2Proof.Machine
end

