-- ==== Sys2Proof/Machine/Plk.lean ====
section
/-! DEFINITION. The commands of the partner link, the end of a map apply with its comparison, the heartbeat and the partner's
reset (R54, R273, R277, R391 to R410). -/

namespace Sys2Proof.Machine

/-! ### Session (R392, R393, R397) -/

/-- The link may run (R397). -/
def State.linkRuns (s : State) : Bool :=
  s.on PLK.CTRL_EN && (s.dev = dsReady || s.dev = dsNoon || s.dev = dsDusk || s.dev = dsMidnight)

/-- A lane that a lock brings into service (R368, R393): lane 2 carries the repaired lane's traffic only. -/
def State.laneServes (s : State) (l : Nat) : Bool :=
  !bitOf s.plk.lanesOut l && (decide (l < 2) || s.on BIST.REPAIR_USED_PLK)

/-- The digest of the held image's BUILD_ID and SVN (R139, R397). -/
def State.imageDigest (s : State) : Bytes := sha256 (sliceB s.image 28 32 ++ sliceB s.image 9 1)

/-- HELLO sent (R397); sequence numbers start again with it (assumption 24). Its fields stand in the order in which R397 lists them
(DESIGN CHOICE, assumption 114). -/
def State.sendHello (s : State) : State :=
  let s := s.pl (fun k => { k with txSeq := 0, replay := [], txWait := [] })
  let b := leBytes 1 (s.get SYS.STATE_PAIR_ROLE) ++ leBytes 2 (s.get SYS.ID_PART) ++ s.imageDigest ++ leBytes 1 s.localSlots ++
    leBytes 4 (s.get (MAP.EPOCH_EPOCH 0)) ++ (List.range 16).flatMap (fun l => leBytes 4 (s.get (MAP.LVL_SERIAL_SERIAL 0 l)))
  s.linkSend { type := 0x08, payload := b }

/-- LANE_LOCK (R393, R397). -/
def execLaneLock (t : Nat) (lane : Fin 3) (s : State) : Out :=
  run t (fun s => s.when (s.linkRuns && s.laneServes lane) (fun s =>
    let s := s.put PLK.STAT_LANES (Nat.lor (s.get PLK.STAT_LANES) (2 ^ lane.val))
    if s.linkAlive then s else ((s.put PLK.STAT_STATE 2).pl (fun k => { k with rxSeq := 0, lastRx := s.mono })).sendHello)) s

/-- LANE_LOCK_LOSS (R393): a link that was only being set up trains again; a session ends by its silence (R407). -/
def execLaneLockLoss (t : Nat) (lane : Fin 3) (s : State) : Out :=
  run t (fun s =>
    let s := s.put PLK.STAT_LANES (withBits (s.get PLK.STAT_LANES) lane.val 1 0)
    if s.get PLK.STAT_LANES = 0 && s.get PLK.STAT_STATE = 2 then s.put PLK.STAT_STATE 1 else s) s

/-- HELLO (R392, R397): it starts a session, whatever its sequence number. -/
def execHello (t : Nat) (hd : LinkHdr) (x : HelloInfo) (s : State) : Out :=
  run t (fun s =>
    if !s.linkAlive then s
    else if !hd.crcOk then s.bump PLK.CRC_ERR_CNT
    else
      let again := s.linkUp
      let s := (s.pl (fun k => { k with rxSeq := hd.lseq, lastRx := s.mono })).linkAck hd.ack
      if b2n x.role = s.get SYS.STATE_PAIR_ROLE then
        let s := s.put PLK.STAT_STATE 2
        (if again then s.sessionEnd else s).raise PLK.EVT_ROLE_CONFLICT 1
      else
        let s := if again then s.sendHello else s
        let s := s.sessionStart.pl (fun k => { k with remote := x.local_ % 256 })
        let same := x.digest = beNat s.imageDigest
        let s := (s.put PLK.STAT_IMG_MATCH (b2n same)).set1If (!same) PLK.EVT_IMG_MISMATCH
        (List.range 8).foldl (fun s h => s.slotClash h) s) s

/-- A frame with a sequence number received (R396): discarded where its CRC fails, or where it is not the next in order. -/
def State.linkRecv (s : State) (hd : LinkHdr) (f : State → State) : State :=
  if !s.linkUp then s
  else
    let s := s.pl (fun k => { k with lastRx := s.mono })
    if !hd.crcOk then s.bump PLK.CRC_ERR_CNT
    else
      let s := s.linkAck hd.ack
      if hd.lseq = (s.plk.rxSeq + 1) % 2 ^ 32 then f (s.pl (fun k => { k with rxSeq := hd.lseq })) else s

/-- IDLE (R395): when no other frame has left for 1 us. -/
def execIdle (t : Nat) (s : State) : Out :=
  run t (fun s => s.when (s.linkAlive && decide (s.plk.lastTx + tickUs ≤ s.mono)) (fun s => s.linkPlain { type := 0x00 })) s

/-- IDLE_RX (R396). -/
def execIdleRx (t : Nat) (ack : Nat) (s : State) : Out :=
  run t (fun s => s.when s.linkAlive (fun s => (s.pl (fun k => { k with lastRx := s.mono })).linkAck ack)) s

/-- REPLAY_TIMEOUT (R396): every frame from the oldest not acknowledged on is sent again. -/
def execReplayTimeout (t : Nat) (s : State) : Out :=
  run t (fun s =>
    match s.plk.replay with
    | [] => s
    | f :: _ => s.when (s.linkAlive && decide (f.at_ + 4 * tickUs ≤ s.mono)) (fun s =>
      let s := s.bump PLK.REPLAY_CNT
      let fs := s.plk.replay
      let s := s.pl (fun k => { k with lastTx := s.mono, replay := k.replay.map (fun f => { f with at_ := s.mono }) })
      fs.foldl (fun s f => s.emit (.link (f.body.frame f.lseq s.plk.rxSeq))) s)) s

/-! ### Forwarded packets (R398 to R400) -/

/-- A packet of a forwarded slot decoded and ingested (R398, R399). Where TB_PTN is not yet valid the manual gives no shift:
a free value (assumption 5). -/
def State.fwdPacket (s : State) (h : Nat) (key : Bool) (b : Bytes) : State :=
  let len := fieldB b 8 2
  let seq := fieldB b 10 2
  let n := ceilDiv len 4
  match decodeWords (n + 1) n (b.drop 12) with
  | none => s
  | some ws =>
    let prev := s.plk.rxPrev.getD h []
    let ws := xorWords ws (if key || decide (prev.length < n) then [] else prev)
    let gap := match s.plk.rxFwd.getD h none with
      | none => 0
      | some e => (seq + 2 ^ 16 - e) % 2 ^ 16
    let s := s.addCnt PLK.RX_GAP_CNT gap
    let s := (s.bump PLK.FWD_RX_CNT).pl (fun k => { k with rxPrev := k.rxPrev.set h ws, rxFwd := k.rxFwd.set h (some ((seq + 1) % 2 ^ 16)) })
    let (shift, s) := match s.time.ptnOfs with
      | some o => (o / 16, s)
      | none =>
        let (w, s) := s.random
        (signedOf 32 w, s)
    s.ingestPacket h ((ws.flatMap (leBytes 4)).take len) (signedOf 64 (fieldB b 0 8)) shift s.mono

/-- FWD (R392, R396, R399): a slot that is local here keeps its own head. -/
def execFwd (t : Nat) (hd : LinkHdr) (slot : Fin 8) (key : Bool) (payload : Bytes) (s : State) : Out :=
  run t (fun s => s.linkRecv hd (fun s => if bitOf s.localSlots slot.val then s else s.fwdPacket slot key payload)) s

/-- DROP (R400). -/
def execDrop (t : Nat) (hd : LinkHdr) (slot : Fin 8) (count firstAz lastAz : Nat) (s : State) : Out :=
  run t (fun s => s.linkRecv hd (fun s =>
    let s := s.addCnt PLK.RX_GAP_CNT count
    let s := s.pl (fun k => { k with rxFwd := k.rxFwd.modify slot.val (fun e => e.map (fun n => (n + count) % 2 ^ 16)) })
    [firstAz, lastAz].foldl (fun s a => s.setWd (s.wedgeOf slot.val a) (fun x => { x with overflow := true })) s)) s

/-! ### Time and status (R54, R402) -/

/-- The status byte of a slot (R402). -/
def State.slotStatus (s : State) (h : Nat) : Nat :=
  s.get (HP.STAT_ID_STATE h) + s.get (HP.STAT_WORN h) * 8 + s.get (HP.STAT_LIFE_END h) * 16 + s.get (HP.CTRL_EN h) * 32 +
    b2n (s.atState h = atLocked) * 64

/-- The payload of a TIME frame (R54, R402): the stamps of this frame and of the partner's latest, then the status, in the order of
R402 (DESIGN CHOICE, assumption 114). -/
def State.timePayload (s : State) : Bytes :=
  leBytes 8 (lowBits 64 (s.sns / 16)) ++ leBytes 8 (lowBits 64 s.plk.timeRx) ++ leBytes 1 s.dev ++ leBytes 1 s.vehState ++
    leBytes 4 (s.get (MAP.EPOCH_EPOCH 0)) ++ (List.range 8).flatMap (fun h => leBytes 1 (s.slotStatus h))

/-- TIME_TX (R402): every 1 ms. -/
def execTimeTx (t : Nat) (s : State) : Out :=
  run t (fun s =>
    let due := match s.plk.timeAt with
      | none => true
      | some a => decide (a + tickMs ≤ s.mono)
    s.when (s.linkUp && due) (fun s =>
      (s.pl (fun k => { k with timeAt := some s.mono })).linkPlain
        { type := 0x07, payload := s.timePayload })) s

/-- A measurement of TB_PTN (R45, R54), floored to 1 ns (DESIGN CHOICE, assumption 101). At the first of a session, which has no
earlier offset to give the partner's rate, that rate is TB_SNS's own (DESIGN CHOICE, assumption 102). PTN_DIVERGE is set by every
measurement that ends three beyond the tolerance. -/
def State.ptnMeasure (s : State) (ofs : Int) : State :=
  let ofs := ofs / 16 * 16
  let x := s.time
  let rate : Int := match x.ptnOfs with
    | none => x.sns.rate
    | some o => if s.mono ≤ x.ptnAt then x.sns.rate else x.sns.rate + (ofs - o) * 16000000000 / ((s.mono : Int) - x.ptnAt)
  let far := decide ((s.get TMU.PTN_TOL_NS : Int) * 16 < (ofs.natAbs : Int)) && decide (x.ptnStart + tickS ≤ s.mono)
  let n := if far then x.ptnRun + 1 else 0
  let s := (s.tm (fun x => { x with ptnOfs := some ofs, ptnAt := s.mono, ptnRun := n })).set1 TMU.STAT_PTN_VALID
  let s := s.set1If (decide (3 ≤ n)) TMU.EVT_PTN_DIVERGE
  if s.snsTarget = 2 then s.snsServo ofs rate else s

/-- A forwarded slot's status taken (R402). -/
def State.fwdStatus (s : State) (h b : Nat) : State :=
  let was := s.get (HP.STAT_ID_STATE h)
  let id := b % 8
  let s := ((s.put (HP.STAT_ID_STATE h) id).put (HP.STAT_WORN h) (bitsOf b 3 1)).put (HP.STAT_LIFE_END h) (bitsOf b 4 1)
  let s := s.setHd h (fun x => { x with ids := b })
  if (was = idTrusted) = (id = idTrusted) && s.get (HP.STAT_QUAR h) = b2n (id ≠ idTrusted) then s
  else (s.setHd h (fun x => { x with quarDue := some (id ≠ idTrusted) })).quarNow

/-- TIME (R54, R392, R402). -/
def execTime (t : Nat) (x : TimeInfo) (s : State) : Out :=
  run t (fun s =>
    if !s.linkUp then s
    else
      let s := s.pl (fun k => { k with lastRx := s.mono })
      if !x.crcOk then s.bump PLK.CRC_ERR_CNT
      else
        let s := ((s.put PLK.PTN_STATE_STATE x.state).put PLK.PTN_STATE_VEH_STATE x.vehState).put PLK.PTN_EPOCH x.epoch
        let s := (s.pl (fun k => { k with timeRx := s.sns / 16 })).ptnMeasure x.offset
        let remote := (List.range 8).foldl (fun m h => if bitOf (x.slots.getD h 0) 5 then m + 2 ^ h else m) 0
        let was := s.get PLK.STAT_FWD_SLOTS
        let new := (List.range 8).filter (fun h => bitOf remote h && !bitOf s.plk.remote h)
        let s := (s.pl (fun k => { k with remote := remote })).fwdSlots
        let s := new.foldl (fun s h => s.slotClash h) s
        (List.range 8).foldl (fun s h =>
          if bitOf (s.get PLK.STAT_FWD_SLOTS) h then s.fwdStatus h (x.slots.getD h 0)
          else if bitOf was h && !bitOf s.localSlots h then s.fwdDown h else s) s) s

/-! ### Cross-check (R404, R405) -/

/-- XC (R405): a partner's record. -/
def execXc (t : Nat) (hd : LinkHdr) (r : XcRec) (s : State) : Out :=
  run t (fun s => s.linkRecv hd (fun s =>
    if !s.xcOn then s
    else match s.plk.xcOwn.find? (fun x => s.xcMatch x.xr r) with
      | some x => (s.pl (fun k => { k with xcOwn := k.xcOwn.erase x })).xcJudge x.xr r
      | none => s.pl (fun k => { k with xcPtn := k.xcPtn ++ [{ xr := r, at_ := s.mono }] }))) s

/-- XC_WAIT_EXPIRY (R405). -/
def execXcWaitExpiry (t : Nat) (s : State) : Out :=
  run t (fun s =>
    let old (x : XcWait) : Bool := decide (x.at_ + s.get PLK.XC_WAIT_MS * tickMs ≤ s.mono)
    let n := (s.plk.xcOwn.filter old).length + (s.plk.xcPtn.filter old).length
    (s.pl (fun k => { k with xcOwn := k.xcOwn.filter (fun x => !old x), xcPtn := k.xcPtn.filter (fun x => !old x) })).addCnt
      PLK.XC_UNMATCHED_CNT n) s

/-! ### Mirrored lines (R209, R403) -/

/-- A mirrored line refused (R403). -/
def State.mirRej (s : State) : State := (s.bump PLK.MIR_REJ_CNT).raise PLK.EVT_MIR_REJ 0

/-- MIRROR_LINE_SEND (R209, R403). -/
def execMirrorLineSend (t : Nat) (g : Fin 80) (s : State) (x : Soft := Soft.none) : Out :=
  softRun t g x (fun s => s.when (s.on (RING.CFG_EN g 2) && decide (0 < s.ringOcc g 2)) (fun s =>
    match s.ringPop g 2 with
    | (none, s) => s
    | (some b, s) =>
    if !s.linkUp then s
    else if decide (79 < fieldB b 0 2) || fieldB b 3 1 ≠ 0 then s.mirRej
    else s.linkSend { type := 0x03, payload := b })) s

/-- MIRROR (R212, R403): the line as a piece at the named window; its checks come at once, a tagged window that is not empty
makes it wait. A line for no tile is rejected. -/
def execMirror (t : Nat) (hd : LinkHdr) (part : Nat) (line : Bytes) (s : State) : Out :=
  run t (fun s => s.linkRecv hd (fun s =>
    let g := fieldB line 0 2
    if 79 < g then s.linkSend { type := 0x09 }
    else
      let p : Piece := { src := 0x7F, xfer := hd.lseq, win := fieldB line 2 1, ofs := fieldB line 4 4, part := part, data := sliceB line 8 504 }
      let first := (s.tile g).win.isEmpty
      let s := s.setTile g (fun x => { x with win := x.win ++ [p] })
      if first then s.winNext g else s)) s

/-- REJ (R403). -/
def execRej (t : Nat) (hd : LinkHdr) (s : State) : Out := run t (fun s => s.linkRecv hd State.mirRej) s

/-! ### Map comparison (R273, R277) -/

/-- The 48 bytes of a map mismatch report (R406). -/
def mapReport (own ptn : MapRec) : Bytes :=
  [2, 0, 0, 0] ++ leBytes 4 own.epoch ++ leBytes 1 own.level ++ leBytes 1 own.table ++ leBytes 2 own.block ++ leBytes 4 own.serial ++
    leBytes 4 ptn.serial ++ leBytes 8 own.crc ++ leBytes 8 ptn.crc ++ zeroBytes 12

/-- The row bytes, both parts, of unit `u`. -/
def State.rowBytes (s : State) (u : Nat) (k : RowKey) : Bytes := s.partBytes (2 * u) k ++ s.partBytes (2 * u + 1) k

/-- Rows that the maintenance engine reads meet errors (R279): `errs` names a unit, a row and its error; `mine` are those read. Answers
the rows of which no data came. -/
def State.readErrs (s : State) (errs : List (Fin 2 × RowKey × EccRes)) (mine : Nat → RowKey → Bool) : List (Nat × RowKey) × State :=
  errs.foldl (fun p e =>
    if !mine e.1 e.2.1 then p
    else match p.2.rowRead e.1 e.2.1 e.2.2 with
      | (true, s) => (p.1, s)
      | (false, s) => (p.1 ++ [(e.1.val, e.2.1)], s)) ([], s)

/-- The owner's rows of a block sent (R277), 64 rows a frame after their unit, level, slot, table and first row (DESIGN CHOICE,
assumption 114); a frame of which a row's data does not come is not sent. -/
def State.sendBlock (s : State) (r : MapRec) (errs : List (Fin 2 × RowKey × EccRes)) : State :=
  let n := tableRows s.get r.level
  let first := r.block * 4096
  let rows := min 4096 (n - first)
  let slot := s.activeSlot r.level
  match s.rowAccess r.unit { level := r.level, slot := slot, table := r.table, row := first } 2 false with
  | (false, s) => s
  | (true, s) =>
  let (lost, s) := s.readErrs errs (fun u k => u = r.unit.val && k.level = r.level && k.slot = slot && k.table = r.table && k.row / 4096 = r.block)
  (List.range (ceilDiv rows 64)).foldl (fun s i =>
    let r0 := first + 64 * i
    let k (j : Nat) : RowKey := { level := r.level, slot := slot, table := r.table, row := r0 + j }
    if lost.any (fun e => r0 ≤ e.2.row && decide (e.2.row < r0 + 64)) then s
    else
      let b := leBytes 1 r.unit.val ++ leBytes 1 r.level ++ leBytes 1 slot ++ leBytes 1 r.table ++ leBytes 4 r0 ++
        (List.range (min 64 (first + rows - r0))).flatMap (fun j => s.rowBytes r.unit (k j))
      s.linkSend { type := 0x05, payload := b }) s

/-- An own and a partner record of one block compared (R277, R406): each line of the table that applies acts; different serials and an
ownership conflict keep the rows from being overwritten (DEDUCED, assumption 110). -/
def State.mapCompare (s : State) (own ptn : MapRec) (errs : List (Fin 2 × RowKey × EccRes)) : State :=
  let clash := own.owner = ptn.owner
  let same := own.serial = ptn.serial
  let s := (s.set1If (!same) (MAP.EVT_VER_MISMATCH 0)).set1If clash (MAP.EVT_OWNER_CONFLICT 0)
  let s := if same && own.crc = ptn.crc then s else s.report3 (mapReport own ptn)
  if own.crc = ptn.crc then s
  else
    let s := (s.set1 (MAP.EVT_CKS_MISMATCH 0)).bump (MAP.CKS_MISMATCH_CNT 0)
    if same && !clash && own.owner then s.sendBlock own errs else s

/-- Records of both devices for the same block and epoch compared, each once. -/
def State.mapCompareAll (s : State) (errs : List (Fin 2 × RowKey × EccRes)) : State :=
  let same (a b : MapRec) : Bool := a.unit = b.unit && a.epoch = b.epoch && a.level = b.level && a.table = b.table && a.block = b.block
  let own := s.map.own
  let hits := s.map.ptn.filterMap (fun p => (own.find? (fun o => same o p)).map (fun o => (o, p)))
  let epoch := (own.head?.map (fun o => o.epoch)).getD 0
  let s := s.mp (fun m => { m with ptn := m.ptn.filter (fun p => !hits.any (fun e => e.2 = p) && !(own.any (fun _ => true) && p.epoch = epoch)) })
  hits.foldl (fun s e => s.mapCompare e.1 e.2 errs) s

/-- Records sent (R277), at most 400 of 22 bytes in a frame of at most 9,600 (R394). -/
def State.sendRecs (s : State) (recs : List MapRec) : State :=
  (List.range (ceilDiv recs.length 400)).foldl (fun s i =>
    s.linkSend { type := 0x04, payload := ((recs.drop (400 * i)).take 400).flatMap MapRec.bytes }) s

/-- An entry whose stored part could not be read was not applied (R273, R279): the part stands as before. -/
def State.unapply (s : State) (lost : List (Nat × RowKey)) : State :=
  let is (e : MubEntry) : Bool := lost.contains (e.die / 2, e.key)
  let s := (s.map.banks.filter (fun b => b.phase = 1)).foldl (fun s b =>
    b.entries.reverse.foldl (fun s e => if is e then s.storePart e.die e.key e.old else s) s) s
  s.mp (fun m => { m with banks := m.banks.map (fun b => if b.phase = 1 then { b with entries := b.entries.filter (fun e => !is e) } else b) })

/-- BATCH_APPLY_DONE (R273, R274, R277, R279, R280): the bank becomes the shadow, the CRC records go out and are compared. `err` is what
unit `u` meets in its own memories, `errs` the errors of the rows that the apply, its checks and a resync read. -/
def execBatchApplyDone (t : Nat) (u : Fin 2) (err : TgeErr) (s : State) (errs : List (Fin 2 × RowKey × EccRes) := []) : Out :=
  run t (fun s => s.when s.applying (fun s =>
    let s := s.tgeErr u err
    let mine (v : Nat) (k : RowKey) : Bool :=
      s.map.banks.any (fun b => b.phase = 1 && b.entries.any (fun e => e.die / 2 = v && e.key = k)) || s.rowExists k
    let (lost, s) := s.readErrs errs mine
    let s := s.unapply lost
    let s := (s.mp (fun m => { m with banks := m.banks.map (fun b => if b.phase = 1 then { b with phase := 2 } else b) })).tgeStat
    let (s, recs) := s.crcRecords
    let s := s.mp (fun m => { m with own := recs, touched := [] })
    s.when (s.linkUp && !recs.isEmpty) (fun s => (s.sendRecs recs).mapCompareAll errs))) s

/-- MAPCK (R277): the partner's records wait for the device's own of their epoch; `errs` are the errors of the rows that a resync
reads (R279). -/
def execMapck (t : Nat) (hd : LinkHdr) (recs : List MapRec) (s : State) (errs : List (Fin 2 × RowKey × EccRes) := []) : Out :=
  run t (fun s => s.linkRecv hd (fun s => (s.mp (fun m => { m with ptn := m.ptn ++ recs })).mapCompareAll errs)) s

/-- MAPROW (R277): the owner's rows wait for the next apply, where this device is not the owner and holds the slot active. -/
def execMaprow (t : Nat) (hd : LinkHdr) (rows : List (RowKey × Fin 2 × Bytes)) (s : State) : Out :=
  run t (fun s => s.linkRecv hd (fun s =>
    if s.mapOwner then s
    else rows.foldl (fun s e =>
      let (k, u, b) := e
      if s.activeSlot k.level ≠ k.slot then s
      else
        let pb := partB (s.lvlFp16 k.level) (partFeat s.get k.level)
        let part (i : Nat) : MubEntry :=
          { die := 2 * u.val + i, key := k, sums := List.replicate (partFeat s.get k.level) 0, put := some (sliceB b (i * pb) pb) }
        s.mp (fun m => { m with resync := m.resync ++ [part 0, part 1] })) s)) s

/-! ### Losing the partner (R407 to R409) -/

/-- PARTNER_HB_IN_EDGE (R407, R410). -/
def execPartnerHbInEdge (t : Nat) (s : State) : Out :=
  run t (fun s => (s.pl (fun k => { k with hbAt := s.mono, hbLost := false })).set1 PLK.STAT_HB) s

/-- HB_LOST (R407, R408): judged while the link is enabled (assumption 24). -/
def execHbLost (t : Nat) (s : State) : Out :=
  run t (fun s => s.when (s.linkRuns && !s.plk.hbLost && decide (s.plk.hbAt + s.get PLK.TIMEOUT_HB_US * tickUs ≤ s.mono)) (fun s =>
    let s := (s.pl (fun k => { k with hbLost := true, hbLostAt := s.mono })).put PLK.STAT_HB 0
    let s := (s.set1 PLK.EVT_HB_LOST).raise PLK.EVT_PARTNER_LOST 0
    if s.get PLK.STAT_STATE = 4 then s else s.partnerLost)) s

/-- LINK_DOWN (R407, R408). -/
def execLinkDown (t : Nat) (s : State) : Out :=
  run t (fun s => s.when (s.linkUp && decide (s.plk.lastRx + s.get PLK.TIMEOUT_LINK_US * tickUs ≤ s.mono)) (fun s =>
    (s.raise PLK.EVT_LINK_DOWN 0).partnerLost)) s

/-- A pulse on PARTNER_RST_OUT begins (R409). -/
def State.pulseStart (s : State) : State :=
  let s := (s.pl (fun k => { k with pulseAt := some s.mono })).set1 PLK.EVT_RST_SENT
  ({ s with pins := { s.pins with rstOut := true } } : State).bump PLK.RST_CNT

/-- AUTO_RESET_DELAY (R409). -/
def execAutoResetDelay (t : Nat) (s : State) : Out :=
  run t (fun s =>
    let k := s.plk
    let rest := match k.lastPulse with
      | none => true
      | some a => decide (a + tickS ≤ s.mono)
    s.when (s.on PLK.CTRL_AUTO_RST && k.hbLost && s.dev ≠ dsHold && k.pulseAt.isNone && rest &&
        decide (k.hbLostAt + s.get PLK.RST_DELAY_MS * tickMs ≤ s.mono)) (fun s =>
      let recent := k.autoAt.filter (fun a => decide (s.mono < a + 3600 * tickS))
      if s.get PLK.RST_MAX ≤ recent.length then s.set1 PLK.STAT_RST_BLOCKED
      else (s.pl (fun k => { k with autoAt := s.mono :: recent })).pulseStart)) s

/-- RESET_PULSE_END (R409): after 10 ms. -/
def execResetPulseEnd (t : Nat) (s : State) : Out :=
  run t (fun s =>
    match s.plk.pulseAt with
    | none => s
    | some a => s.when (decide (a + 10 * tickMs ≤ s.mono)) (fun s =>
      let s := s.pl (fun k => { k with pulseAt := none, lastPulse := some s.mono })
      { s with pins := { s.pins with rstOut := false } })) s

/-- A write of PLK.RST.PULSE (R409): not in Hold, and nothing while a pulse runs. -/
def State.pulse (s : State) : State := if s.dev = dsHold || s.plk.pulseAt.isSome then s else s.pulseStart

/-- What a write of PLK.CTRL.EN starts or ends (R397, R407). -/
def State.linkEnable (s : State) (en : Bool) : State :=
  let was := s.on PLK.CTRL_EN
  let s := s.put PLK.CTRL_EN (b2n en)
  if en && !was then
    let s := s.pl (fun k => { k with hbAt := if s.on PLK.STAT_HB then k.hbAt else s.mono, hbLost := false })
    if s.linkRuns then s.put PLK.STAT_STATE 1 else s
  else if !en && was then
    let up := s.linkUp
    let s := (s.put PLK.STAT_STATE 0).put PLK.STAT_LANES 0
    if up then s.sessionEnd else s
  else s

end Sys2Proof.Machine
end

