-- ==== Sys2Proof/Machine/Sec.lean ====
section
/-! DEFINITION. The Security Island: OTP programming, attestation, the random source, unlock expiry, the write of the
recovered firmware and the public JTAG instructions (R412 to R430). -/

namespace Sys2Proof.Machine

abbrev lcManufacture : Nat := 0
abbrev lcDevelopment : Nat := 1
abbrev lcProduction : Nat := 2
abbrev lcReturned : Nat := 3

/-- The Security Island's state changed. -/
def State.sc (s : State) (f : SecSt → SecSt) : State := { s with sec := f s.sec }

/-- The lifecycle state (R423). -/
def State.lifecycle (s : State) : Nat := s.get SYS.STATE_LIFECYCLE

/-- Debug scope `i` is unlocked, its validity not passed: 0 MON, 1 JTAG, 2 RETURN (R426, R427). -/
def State.scope (s : State) (i : Nat) : Bool := bitOf (s.get SEC.DBG_SCOPE) i && decide (s.mono < s.sec.unlockEnd.getD i 0)

/-- SEC.DBG.SCOPE (R431): the scopes unlocked now. -/
def State.scopes (s : State) : Nat := b2n (s.scope 0) + 2 * b2n (s.scope 1) + 4 * b2n (s.scope 2)

/-- MANUFACTURE or DEVELOPMENT (R424). -/
def State.openLife (s : State) : Bool := s.lifecycle = lcManufacture || s.lifecycle = lcDevelopment

/-- A key slot can be used for signature checks (R417). -/
def State.slotUsable (s : State) (k : Nat) : Bool :=
  bitOf (s.get (SEC.KEYSLOT_ATTR k)) 0 && !bitOf (s.get (SEC.KEYSLOT_ATTR k)) 2

/-! ### OTP (R415 to R418, R423) -/

/-- Fuses blown: bytes OR-ed into the OTP from byte `a` on. -/
def otpBlow (m : Mem) (a : Nat) : Bytes → Mem
  | [] => m
  | b :: bs => otpBlow (wr 0 m a (Mem.byte m a ||| b)) (a + 1) bs

/-- Step `i` of a counted value is taken: either of its two fuses is blown (R415). -/
def stepTaken (m : Mem) (base i : Nat) : Bool :=
  bitOf (Mem.byte m (base + i / 4)).toNat (2 * (i % 4)) || bitOf (Mem.byte m (base + i / 4)).toNat (2 * (i % 4) + 1)

/-- Steps taken of a counted value of `n` steps. -/
def stepsTaken (m : Mem) (base n : Nat) : Nat := ((List.range n).filter (stepTaken m base)).length

/-- Both fuses of the first `n` steps blown. -/
def blowSteps (m : Mem) (base n : Nat) : Mem :=
  (List.range n).foldl (fun m i => otpBlow m (base + i / 4) [BitVec.ofNat 8 (3 * 4 ^ (i % 4))]) m

/-- The lifecycle state that the OTP will give next. -/
def State.lifeNext (s : State) : Nat := if s.on SEC.STAT_LC_PEND_V then s.get SEC.STAT_LC_PEND else s.lifecycle

/-- Whether an OTP command is allowed besides BUSY and the state (R417, R418, R423). -/
def State.otpAllowed (s : State) (cmd : Nat) : Bool :=
  let k := s.get SEC.OTP_CMD_SLOT
  let a := s.get SEC.ARB_TARGET
  let l := s.get SEC.LC_ADV_TARGET
  if cmd = 1 then s.openLife && !bitOf (s.get (SEC.KEYSLOT_ATTR k)) 0
  else if cmd = 2 then s.lifecycle ≠ lcReturned
  else if cmd = 3 then s.get SEC.ARB_VALUE < a && a ≤ 64 && a ≤ s.get SEC.BOOT_STAT_FW_SVN &&
    (!s.on SYS.IMG_STAT_HELD || decide (a ≤ s.get SYS.IMG_STAT_SVN))
  else cmd = 4 && s.lifeNext < l && s.get SEC.LC_ADV_CONFIRM = 0x4C43 && (l ≠ lcReturned || s.scope 2)

/-- SEC.OTP_CMD.CMD written (R416); none: REJECTED. -/
def State.otpCmd (s : State) (cmd : Nat) : Option State :=
  if s.on SEC.OTP_STAT_BUSY || s.dev ≠ dsReady || !s.otpAllowed cmd then none
  else
    let k := s.get SEC.OTP_CMD_SLOT
    let s := s.sc (fun x => { x with
      otpOp := some cmd, otpSlot := k, otpDbg := s.on SEC.OTP_CMD_DBG
      otpTarget := if cmd = 3 then s.get SEC.ARB_TARGET else s.get SEC.LC_ADV_TARGET
      otpKey := (List.range 8).map (fun j => s.get (SEC.KEY_WR j)) })
    some (s.set1 SEC.OTP_STAT_BUSY)

/-- What a completed OTP operation has changed (R416 to R418, R423). -/
def State.otpEffect (s : State) (cmd : Nat) : State :=
  let x := s.sec
  let k := x.otpSlot
  let a := s.get (SEC.KEYSLOT_ATTR k)
  if cmd = 1 then
    let v := Nat.lor a (1 + 2 * b2n x.otpDbg)
    (s.sc (fun x => { x with otp := otpBlow x.otp (0x40 + 0x30 * k) (x.otpKey.flatMap (leBytes 4) ++ [BitVec.ofNat 8 v]) })).put
      (SEC.KEYSLOT_ATTR k) v
  else if cmd = 2 then
    let v := Nat.lor a 4
    (s.sc (fun x => { x with otp := otpBlow x.otp (0x60 + 0x30 * k) [BitVec.ofNat 8 v] })).put (SEC.KEYSLOT_ATTR k) v
  else if cmd = 3 then
    (s.sc (fun x => { x with otp := blowSteps x.otp 0x20 x.otpTarget })).put SEC.ARB_VALUE x.otpTarget
  else
    ((s.sc (fun x => { x with otp := blowSteps x.otp 0x10 x.otpTarget })).put SEC.STAT_LC_PEND x.otpTarget).set1 SEC.STAT_LC_PEND_V

/-- OTP_DONE: the end of an OTP operation (R416). Where a fuse did not read back, whether the change took is a free
value (assumption 30). -/
def execOtpDone (t : Nat) (readBack : Bool) (s : State) : Out :=
  run t (fun s =>
    match s.sec.otpOp with
    | none => s
    | some cmd =>
      let (v, s) := s.random
      let s := if readBack || v % 2 = 1 then s.otpEffect cmd else s
      let s := s.put SEC.OTP_STAT_BUSY 0
      let s := if cmd = 1 then (List.range 8).foldl (fun s j => s.load (SEC.KEY_WR j) 0) s else s
      let s := s.sc (fun x => { x with otpOp := none, otpKey := [] })
      if readBack then s.set1 SEC.EVT_OTP_DONE else s.raise SEC.EVT_OTP_FAIL 1) s

/-! ### Attestation (R425) -/

/-- The body of an attestation report, the two image digests left 0 (R425). -/
def State.attBody (s : State) : Bytes :=
  let word (f : Fld) : Bytes := leBytes 4 (s.get f)
  let held := s.on SYS.IMG_STAT_HELD
  leBytes 4 0x54544152 ++ leBytes 2 1 ++ leBytes 1 s.lifecycle ++ leBytes 1 s.scopes
    ++ (List.range 8).flatMap (fun j => word (SEC.DEV_PK j)) ++ (List.range 8).flatMap (fun j => word (SEC.ATT_NONCE j))
    ++ leBytes 8 s.monoNs ++ word SYS.ID ++ word SYS.REV ++ zeroBytes 64
    ++ leBytes 1 (s.get SEC.BOOT_STAT_FW_SVN) ++ leBytes 1 (if held then s.get SYS.IMG_STAT_SVN else 0)
    ++ leBytes 1 (if held then fieldB s.image 8 1 else 0) ++ leBytes 1 (s.get SEC.ARB_VALUE)
    ++ (List.range 4).flatMap (fun k => leBytes 1 (s.get (SEC.KEYSLOT_ATTR k)))
    ++ leBytes 1 (s.get (HS.MACSEC_LOCK 0) + 2 * s.get (HS.MACSEC_LOCK 1) + 4 * b2n s.sec.recovered)
    ++ leBytes 1 (s.get OUT.RESTARTS_COUNT) ++ zeroBytes 2 ++ word SI.FSQ
    ++ (List.range 4).flatMap (fun j => word (SEC.SERIAL j)) ++ zeroBytes 72

/-- SEC.ATT_CTRL.GO set (R425); none: REJECTED. -/
def State.attGo (s : State) : Option State :=
  if s.on SEC.ATT_CTRL_BUSY then none
  else
    let s := s.sc (fun x => { x with attBody := s.attBody })
    some ((s.set1 SEC.ATT_CTRL_BUSY).put SEC.ATT_CTRL_DONE 0)

/-- A byte string brought to `n` bytes. -/
def fitBytes (n : Nat) (b : Bytes) : Bytes := (b ++ zeroBytes n).take n

/-- ATT_DONE: the report is signed (R425); signing waits while the random source is stopped (R414) and while the engine checks a head or
an image (R413). `fwHash` and
`imgHash` are the digests of the running firmware and of the held image. -/
def execAttDone (t : Nat) (fwHash imgHash : Bytes) (signature : Bytes) (s : State) : Out :=
  run t (fun s => s.when (s.on SEC.ATT_CTRL_BUSY && s.rngOk && !s.headCheck && !s.on SYS.IMG_STAT_BUSY) (fun s =>
    let b := s.sec.attBody
    let img := if s.image.isEmpty then zeroBytes 32 else fitBytes 32 imgHash
    let body := sliceB b 0 88 ++ fitBytes 32 fwHash ++ img ++ b.drop 152
    let s := s.sc (fun x => { x with att := body ++ fitBytes 17088 signature, attBody := [] })
    (((s.put SEC.ATT_CTRL_BUSY 0).set1 SEC.ATT_CTRL_DONE).set1 SEC.EVT_ATT_DONE).bump SEC.ATT_CNT)) s

/-! ### The random source and unlocked scopes -/

/-- RNG_FAIL: a health test of the random source fails (R414). -/
def execRngFail (t : Nat) (s : State) : Out :=
  run t (fun s => s.when s.rngOk (fun s => (s.sc (fun x => { x with rngBad := true })).raise SEC.EVT_RNG_FAIL 1)) s

/-- Every unlocked scope ended (R427, R429). -/
def State.lockScopes (s : State) : State :=
  (s.put SEC.DBG_SCOPE 0).sc (fun x => { x with unlockEnd := [0, 0, 0] })

/-- UNLOCK_EXPIRY: a scope whose validity has passed on TB_MONO ends (R427). -/
def execUnlockExpiry (t : Nat) (s : State) : Out :=
  run t (fun s => s.put SEC.DBG_SCOPE s.scopes) s

/-! ### The recovered firmware in flash (R422) -/

/-- LEN of a firmware header (R419). -/
def fwLen (h : Bytes) : Nat := fieldB h 12 4

/-- SEC.BOOT_CTRL.FLASH_WR set (R422): accepted after a successful recovery while no such write runs; none: REJECTED.
The erased bytes read 0 in the model (assumption 31). -/
def State.flashWr (s : State) : Option State :=
  if !s.sec.recovered || s.sec.flashAt.isSome then none
  else some (s.sc (fun x => { x with flash := Mem.clear x.flash 0 (fwLen x.fwHead), flashAt := some s.mono }))

/-- FLASH_DONE: the recovered image stands in flash (R422). -/
def execFlashDone (t : Nat) (s : State) : Out :=
  run t (fun s => s.when s.sec.flashAt.isSome (fun s =>
    (s.sc (fun x => { x with
      flash := Mem.store x.flash 0 (Mem.bytes x.recBuf 0 (fwLen x.fwHead)), flashAt := none })).set1 SEC.EVT_FLASH_DONE)) s

/-! ### JTAG (R430) -/

abbrev tapBypass : Nat := 0
abbrev tapIdcode : Nat := 1
abbrev tapSample : Nat := 2
abbrev tapExtest : Nat := 3
abbrev tapClamp : Nat := 4
abbrev tapHighz : Nat := 5
abbrev tapDebug : Nat := 6

/-- The value of IDCODE (R430). -/
abbrev idcode : Nat := 0x1004856F

/-- The instruction in the TAP. -/
def State.tapTo (s : State) (code : Nat) : State := s.sc (fun x => { x with jtag := code })

/-- What a command of the TAP does: the TAP works in reset too, since TRST_N alone resets it (R448). -/
def tap (t : Nat) (f : State → State) (s : State) : Out := if s.released then run t f s else .next (f s)

/-- An instruction that drives the pins: in Noon, Dusk and Midnight it acts as BYPASS and sets JTAG_BLOCK (R430). -/
def tapPins (t code : Nat) (s : State) : Out :=
  if s.released && (s.dev = dsNoon || s.dev = dsDusk || s.dev = dsMidnight) then
    run t (fun s => (s.tapTo tapBypass).set1 SEC.EVT_JTAG_BLOCK) s
  else tap t (fun s => s.tapTo code) s

/-- TAP_RESET: TRST_N resets the TAP, whose instruction is then IDCODE (R448, assumption 16). -/
def execTapReset (t : Nat) (s : State) : Out := tap t (fun s => s.tapTo tapIdcode) s

/-- BYPASS. -/
def execBypass (t : Nat) (s : State) : Out := tap t (fun s => s.tapTo tapBypass) s

/-- IDCODE reads the identification code. -/
def execIdcode (t : Nat) (s : State) : Out := tap t (fun s => (s.tapTo tapIdcode).emit (.tdo idcode)) s

/-- SAMPLE/PRELOAD. -/
def execSamplePreload (t : Nat) (s : State) : Out := tap t (fun s => s.tapTo tapSample) s

/-- EXTEST. -/
def execExtest (t : Nat) (s : State) : Out := tapPins t tapExtest s

/-- CLAMP. -/
def execClamp (t : Nat) (s : State) : Out := tapPins t tapClamp s

/-- HIGHZ. -/
def execHighz (t : Nat) (s : State) : Out := tapPins t tapHighz s

/-- JTAG debug access is available (R424, R430); in RETURNED only an Elvile-signed token unlocks a scope (R427). -/
def State.jtagOpen (s : State) : Bool := s.openLife || s.scope 1

end Sys2Proof.Machine
end

