-- ==== Sys2Proof/Machine/Check.lean ====
section
/-! DEFINITION. The load checks of a pipeline image (R141): container, scratchpads, column group, golden set, programs
(R153, R168, R179, R202, R213, R219 to R224, R230 to R232, R250, R281), layout and partitions (R207, R338, R340), map. -/

namespace Sys2Proof.Machine

/-- The image bytes that bytes `a .. a + n - 1` hold are all 0. -/
def zeroAt (b : Bytes) (a n : Nat) : Bool := (sliceB b a n).all (fun x => x = 0)

/-! ### Parts of an image -/

/-- Word `i` of a tile's TILECFG (R140), 0 for an unassigned tile. -/
def tileCfg (b : Bytes) (g i : Nat) : Nat := ((findSection b secTileCfg g).map (fun x => imgU x (4 * i) 4)).getD 0

/-- Role, stage and slots that an image gives a tile (R136, R167). -/
def imgRole (b : Bytes) (g : Nat) : Nat := bitsOf (tileCfg b g 0) 0 2
def imgStage (b : Bytes) (g : Nat) : Nat := bitsOf (tileCfg b g 0) 8 5
def imgSlots (b : Bytes) (g : Nat) : Nat := bitsOf (tileCfg b g 0) 16 8

/-- A handle of an image's handle table (R206, R218): address, length, attributes. -/
structure Hdl where
  addr : Nat
  len : Nat
  attr : Nat

def Hdl.valid (h : Hdl) : Bool := bitOf h.attr 0
def Hdl.narrow (h : Hdl) : Bool := bitOf h.attr 1
def Hdl.fmt (h : Hdl) : Nat := bitsOf h.attr 4 4
def Hdl.parts (h : Hdl) : Nat := bitsOf h.attr 8 4
def Hdl.tagm (h : Hdl) : Nat := bitsOf h.attr 12 2
def Hdl.rrel (h : Hdl) : Nat := bitsOf h.attr 14 2
def Hdl.rnum (h : Hdl) : Nat := bitsOf h.attr 16 2

/-- The handle table of a tile: 64 handles. -/
def imgHdls (b : Bytes) (g : Nat) : List Hdl :=
  let x := (findSection b secHandles g).getD []
  (List.range 64).map (fun i => { addr := imgU x (16 * i) 4 % 2 ^ 22, len := imgU x (16 * i + 4) 4 % 2 ^ 23, attr := imgU x (16 * i + 8) 4 })

/-- The rings of a tile (R216): BASE, SIZE, CFG. -/
def imgRings (b : Bytes) (g : Nat) : List (Nat × Nat × Nat) :=
  let x := (findSection b secHandles g).getD []
  (List.range 4).map (fun r => (imgU x (1024 + 16 * r) 4 % 2 ^ 22, imgU x (1028 + 16 * r) 4 % 2 ^ 13, imgU x (1032 + 16 * r) 4))

/-- The windows of a tile (R217): BASE, LEN, SRC, ATTR. -/
def imgWins (b : Bytes) (g : Nat) : List (Nat × Nat × Nat × Nat) :=
  let x := (findSection b secWindows g).getD []
  (List.range 8).map (fun w => (imgU x (16 * w) 4 % 2 ^ 22, imgU x (16 * w + 4) 4 % 2 ^ 23, imgU x (16 * w + 8) 4, imgU x (16 * w + 12) 4))

/-- The tiles that an image assigns. -/
def imgTiles (b : Bytes) : List Nat := (List.range 80).filter (fun g => imgRole b g ≠ 0)

/-- The descriptors of a tile's program (R140, R167), none where the PROG section does not hold them all. -/
def imgProg (b : Bytes) (g : Nat) : Option (List Bytes) :=
  let start := bitsOf (tileCfg b g 1) 0 16 * 64
  let n := bitsOf (tileCfg b g 1) 16 13
  match (sectionsOf b).find? (fun x => x.type = secProg && x.target = g && x.dest ≤ start && decide (start + 64 * n ≤ x.dest + x.len)) with
  | none => none
  | some x => some ((List.range n).map (fun i => sliceB b (x.ofs + (start - x.dest) + 64 * i) 64))

/-- Words of the MAPLAYOUT section (assumption 19): STAGES, SPARE, SPARE_N, then CFG, EXT, BASE0, BASE1 of each level. -/
def imgMap (b : Bytes) (i : Nat) : Nat := imgU ((devSection b secMapLayout).getD []) (4 * i) 4
def imgLvl (b : Bytes) (l i : Nat) : Nat := imgMap b (3 + 4 * l + i)

/-- Words of the PARTITION section (assumption 19): BASE, SIZE, ATTR of 32 regions, then 16 words of SI.BW. -/
def imgPart (b : Bytes) (i : Nat) : Nat := imgU ((devSection b secPartition).getD []) (4 * i) 4

/-! ### Checks 1 to 8 -/

/-- Check 1: the container (R139, R140). -/
def check1 (b : Bytes) : Bool :=
  let len := imgU b 12 4
  let n := imgU b 16 2
  let xs := sectionsOf b
  imgU b 0 4 = 0x38345441 && imgU b 4 2 = 1 && 1 ≤ n && n ≤ 256 && decide (256 + 16 * n + 7856 ≤ len) && decide (len ≤ b.length)
    && xs.all (fun x => 1 ≤ x.type && x.type ≤ 10 && x.ofs % 64 = 0 && decide (256 + 16 * n ≤ x.ofs) && decide (x.ofs + x.len + 7856 ≤ len)
        && (if x.type ≤ 5 then decide (x.target < 80) else x.target = 0xFFFF))
    && xs.zipIdx.all (fun a => xs.zipIdx.all (fun c =>
        a.2 = c.2 || decide (a.1.ofs + a.1.len ≤ c.1.ofs) || decide (c.1.ofs + c.1.len ≤ a.1.ofs)))

/-- Check 5: scratchpad sizes and alignments (R2, R206, R207, R216, R217). -/
def check5 (b : Bytes) (kib : Nat) : Bool :=
  let size := kib * 1024
  let spd := imgU b 10 2
  1 ≤ spd && spd ≤ kib
    && (sectionsOf b).all (fun x => decide (5 < x.type) || (x.dest % 64 = 0 && decide (x.dest + x.len ≤ size)))
    && (imgTiles b).all (fun g =>
      (imgHdls b g).all (fun h => !h.valid ||
        (let al := if h.narrow then 8 else 512
         h.addr % al = 0 && h.len % al = 0 && 8 ≤ h.len && h.len ≤ 3145728 && decide (h.addr + h.len ≤ size)))
      && (imgRings b g).all (fun r => !bitOf r.2.2 0 || (r.1 % 512 = 0 && 2 ≤ r.2.1 && r.2.1 ≤ 4096 && decide (r.1 + 512 * r.2.1 ≤ size)))
      && (imgWins b g).all (fun w => !bitOf w.2.2.2 0 || (w.1 % 512 = 0 && w.2.1 % 512 = 0 && decide (w.1 + w.2.1 ≤ size))))

/-- Check 6: each slot's column tile stands on the base die that ingests the slot (R28, R29). -/
def check6 (b : Bytes) : Bool :=
  let c := (devSection b secColCfg).getD []
  (List.range 8).all (fun h =>
    let g := if c.isEmpty then 0xFFFF else colCfgTile c h
    (g = 0xFFFF || (g < 80 && g / 40 = h / 4 && imgRole b g = 2))
      && (List.range 80).all (fun k => imgRole b k ≠ 2 || bitOf (imgSlots b k) h = decide (k = g)))

/-- Check 7: channel counts (R33): on a stage tile N is a slice and stands for 4·N, on a column tile it is the whole count; K is the
four parts of a DENSE_SM input, elsewhere after the first stage a slice or the whole (assumption 32). -/
def check7 (b : Bytes) : Bool :=
  (imgTiles b).all (fun g => ((imgProg b g).getD []).all (fun d =>
    let main := dU8 d 38 % 16
    let k := dU16 d 34
    dKind d ≠ 1 || (dU16 d 36 % (if imgRole b g = 2 then 128 else 32) = 0
      && (if main = 3 then k % 128 = 0 else main = 0 || imgRole b g ≠ 1 || imgStage b g = 0 || k % 32 = 0))))

/-- Bytes of the golden map: for each enabled level a table of 256 rows per die part, or two (R278). -/
def goldMapLen (b : Bytes) : Nat :=
  (List.range 16).foldl (fun n l =>
    let c := imgLvl b l 0
    if !bitOf c 31 then n
    else n + (if bitOf c 21 then 2 else 1) * 256 * 4 * partB (bitOf c 20) (bitsOf c 16 4 * 2)) 0

/-- Check 8: the GOLDEN section is complete and consistent and its points fit the golden tables (R362, R132). -/
def check8 (b : Bytes) (s : State) : Bool :=
  match devSection b secGolden with
  | none => false
  | some g =>
    let n := goldN g 0 + goldN g 1
    goldN g 0 ≤ 16384 && goldN g 1 ≤ 16384 && 1 ≤ goldCh g && goldCh g ≤ 64 && decide (goldMapAt g + goldMapLen b ≤ g.length)
      && (List.range n).all (fun i => decide ((goldRet g i).ch < goldCh g))
      && decide ((goldPose g 0).t < (goldPose g 1).t)
      && (let s' := ({ s with image := b } : State).goldFill
          (goldPoints g).all (fun e => match s.voxKey e.2.2 (goldCentres g) with
            | none => true
            | some (key, grid, _) => s'.vhu.any (fun v => v.gold.any (fun x => x.2.key = key && x.2.grid = grid))))

/-! ### Check 9: programs -/

/-- An operand reference names a defined handle with the alignment of R144; none where `opt`. -/
def refOk (hs : List Hdl) (opt : Bool) (v : Nat) : Bool :=
  if v = 0xFFFFFFFF then opt
  else
    let one (k : Nat) : Bool := match hs[k]? with
      | none => false
      | some h => h.valid && (v / 256) % (if h.narrow then 8 else 512) = 0
    let k := v % 64
    !bitOf v 7 && one k && (!bitOf v 6 || (k % 2 = 0 && one (k + 1)))

/-- The handles of a reference, both of a pair under ALT (R144). -/
def refHdls (hs : List Hdl) (v : Nat) : List Hdl :=
  if v = 0xFFFFFFFF then [] else (hs[v % 64]?).toList ++ (if bitOf v 6 then (hs[v % 64 + 1]?).toList else [])

/-- A reference names handles, and `p` holds of each. -/
def refAll (hs : List Hdl) (v : Nat) (p : Hdl → Bool) : Bool := !(refHdls hs v).isEmpty && (refHdls hs v).all p

/-- The handles of a reference are tagged, by their mode or as rings (R202, R209). -/
def refTagged (hs : List Hdl) (v : Nat) : Bool := refAll hs v (fun h => h.tagm ≠ 0 || h.rrel ≠ 0)

/-- Operand pairs of the MXE (R179). -/
def mxPair (a b : Nat) : Bool :=
  let i8 := fun x => x = 1 || x = 2
  let i16 := fun x => x = 3 || x = 4
  let f8 := fun x => x = 6 || x = 7
  let row := fun (x y : Nat) => (i8 x && (i8 y || y = 0)) || (x = 0 && y = 0) || (i16 x && (i16 y || i8 y)) || (f8 x && f8 y)
    || (x = 8 && y = 8) || (x = 9 && y = 9) || (x = 0xC && (y = 0xC || y = 0xB)) || (x = 0xB && y = 0xB)
  row a b || row b a || ((i8 a || a = 0) && b = 0xE)

/-- An operation list of `n` bytes at `o`: a zero ends it, and the codes are those of R222 for the list. -/
def listOk (d : Bytes) (o n : Nat) (codes : List Nat) : Bool :=
  let l := chainOps d o n
  (List.range n).all (fun i => i < l.length || dU8 d (o + i) % 64 = 0) && l.all (fun x => codes.contains x.code)

/-- The load rules of a CHAIN and of the descriptor after it (R219 to R224, R230 to R232). -/
def chainOk (hs : List Hdl) (d : Bytes) (next : Option Bytes) : Bool :=
  let c := chainD d
  let fl := dU8 d 41
  let x (i : Nat) := dU32 d (20 + 4 * i)
  let ops := c.pro ++ c.epi
  let sp (i : Nat) := (ops.filter (fun o => o.sel = i)).length
  let cnt (l : List ChainOp) (k : Nat) : Nat := (l.filter (fun o => o.code = k)).length
  let st := cnt c.epi 0x09
  let nrm := cnt c.epi 0x05
  let words := (if st = 1 then 1 else 0) + (if nrm + cnt c.pro 0x05 ≠ 0 || c.stat = 1 then 1 else 0)
    + ops.foldl (fun n o => n + (if o.sel = 3 then opWords o.code else 0)) 0
  let p0 := dU32 d 56
  let p1 := dU32 d 60
  let free := ops.foldl (fun n o => n + (if o.sel = 3 then opWords o.code else 0)) 0
  let used0 := st = 1 || 0 < free
  let used1 := nrm + cnt c.pro 0x05 ≠ 0 || c.stat = 1 || decide (2 ≤ free + st)
  let staged := c.main = 2 || c.main = 3 || c.stat = 2
  let mxe := c.main ≠ 0
  c.main ≤ 3 && dU8 d 40 / 16 = 0 && fl / 32 = 0 && c.stat ≤ 2 && c.fmtB ≠ 0xF && [c.fmtA, c.fmtMx, c.fmtOut].all (fun f => f ≠ 0xE && f ≠ 0xF)
    && 1 ≤ c.n && (if mxe then 1 ≤ c.k else c.k = 0) && (c.main = 2 || 1 ≤ c.m)
    && refOk hs false (dU32 d 4) && refOk hs (!mxe) (dU32 d 8) && refOk hs false (dU32 d 12) && refOk hs (c.main ≠ 2) (dU32 d 16)
    && (c.main = 2 || dU32 d 16 = 0xFFFFFFFF) && (List.range 3).all (fun i => refOk hs true (x i))
    && (!(c.pro.isEmpty || !mxe) || c.fmtMx = c.fmtA) && (!mxe || mxPair c.fmtMx c.fmtB)
    && (!isBlock c.fmtA || c.k % 32 = 0 || !mxe) && (!mxe || !isBlock c.fmtB || c.k % 32 = 0)
    && listOk d 42 4 [0x01, 0x02, 0x03, 0x05, 0x10, 0x11, 0x12, 0x13, 0x14, 0x15]
    && listOk d 46 6 [0x01, 0x03, 0x05, 0x08, 0x09, 0x0A, 0x10, 0x11, 0x12, 0x13, 0x14, 0x15]
    -- R223
    && (List.range 3).all (fun i =>
      if c.stat = 1 && i < 2 then sp i = 0 && x i ≠ 0xFFFFFFFF
      else (sp i ≤ 1 || (c.stat = 2 && sp i = 2 && c.epi.all (fun o => o.sel ≠ i || o.code = 0x09 || o.code = 0x05) && c.pro.all (fun o => o.sel ≠ i)))
        && ((0 < sp i) = (x i ≠ 0xFFFFFFFF)))
    && ops.all (fun o => (o.code ≠ 0x05 && o.code ≠ 0x08 && o.code ≠ 0x09) || o.sel ≠ 3)
    && cnt c.pro 0x05 ≤ 1 && nrm ≤ 1 && st ≤ 1 && (nrm = 0 || (c.stat = 2 && (splitStat c.epi).2.any (fun o => o.code = 0x05)))
    && (c.epi.dropLast).all (fun o => o.code ≠ 0x0A)
    && (c.stat ≠ 2 || (st = 1 && nrm = 1 && statSel c.epi 0x09 = statSel c.epi 0x05)) && (c.stat ≠ 1 || c.main = 1 || c.main = 3)
    -- R224
    && (st = 0 || (1 ≤ p0 && p0 ≤ c.n)) && (nrm + cnt c.pro 0x05 = 0 && c.stat ≠ 1 || (match fFP32.dec p1 with
        | .fin neg m _ => !neg || m = 0
        | _ => false))
    && words ≤ 2 && (used0 || p0 = 0) && (used1 || p1 = 0)
    -- R230, R232
    && (!staged || !isBlock c.fmtOut)
    && (c.main ≠ 3 || !dTagchk d || (refAll hs (dU32 d 4) (fun h => h.tagm = 1) && (!isBlock c.fmtA || padTo 64 c.m * c.k / 128 % 512 = 0)))
    -- R231
    && (!bitOf fl 2 || (match next with
        | none => false
        | some e =>
          let n := chainD e
          dKind e = 1 && n.main = 1 && !bitOf (dU8 e 41) 2 && dU32 e 4 = dU32 d 12 && n.k = c.n && n.fmtA = c.fmtOut
            && (c.main = 1 || c.main = 2) && c.stat ≠ 2 && refAll hs (dU32 d 12) (fun h =>
              h.len ≤ 2 ^ 20 && h.addr / 2 ^ 20 = (h.addr + h.len - 1) / 2 ^ 20)))

/-- The load rules of a MOVE (R147, R153, R213). -/
def moveOk (hs : List Hdl) (d : Bytes) : Bool :=
  let src := dU8 d 16
  let dst := dU8 d 17
  let mode := dU8 d 18
  let conv := dU8 d 19
  let len := dU32 d 12
  src ≤ 2 && dst ≤ 3 && mode ≤ 5 && conv ≤ 4 && !(src = 1 && dst = 1) && dU8 d 26 ≤ 3 && dU8 d 31 = 0 && zeroAt d 40 24
    && refOk hs (src ≠ 0) (dU32 d 4) && refOk hs (dst = 1 || dst = 2) (dU32 d 8) && refOk hs (conv = 0) (dU32 d 32)
    && (src ≠ 1 || dst ≠ 0 || refTagged hs (dU32 d 8)) && (dst ≠ 3 || (dU8 d 27 ≤ 7 && dU16 d 28 < 80))
    && (src ≠ 1 && dst ≠ 1 || dU8 d 30 < 32)
    && (mode = 0 || 4 ≤ mode || (src = 0 && dst = 0 && dU32 d 20 % 64 = 0 && 64 ≤ dU32 d 20 && dU32 d 20 ≤ 2 ^ 20
        && 1 ≤ dU16 d 24 && dU16 d 24 ≤ 4096
        && (if mode = 1 then 8 ≤ len && len ≤ 4096 && len % 8 = 0 else if mode = 2 then len = 1024 else len = 512)))
    && (mode < 4 || (dU8 d 26 = 1 && (conv = 1 || conv = 2)))

/-- The load rules of a SELECT (R148, R250). -/
def selectOk (hs : List Hdl) (d : Bytes) : Bool :=
  let m := dU8 d 29
  let merge := bitOf m 4
  let f := m % 16
  let n := dU32 d 24
  let none_ (o : Nat) : Bool := dU32 d o = 0xFFFFFFFF
  m / 64 = 0 && dU8 d 31 = 0 && zeroAt d 36 28 && refOk hs false (dU32 d 4) && refOk hs true (dU32 d 8) && refOk hs false (dU32 d 12)
    && refOk hs false (dU32 d 16) && refOk hs true (dU32 d 20) && 1 ≤ n && n ≤ 65536 && 1 ≤ dU8 d 28 && dU8 d 28 ≤ 64
    && (if merge then (f = 5 || f = 0xA) && none_ 8 && none_ 20 && 1 ≤ dU8 d 30 && dU8 d 30 ≤ 8 && n * dU8 d 30 ≤ 65536
          && dU32 d 32 % 512 = 0 && padTo 512 (8 * n) + 512 ≤ dU32 d 32
        else (f = 5 || f = 8 || f = 9 || f = 0xA) && dU8 d 30 = 1 && dU32 d 32 = 0)

/-- The load rules of a MAPLOOK in the program of tile `g` (R149, R281): a column program, which reads no map, has none (R27). -/
def maplookOk (b : Bytes) (hs : List Hdl) (g : Nat) (d : Bytes) : Bool :=
  let stage := imgStage b g
  let lv := dU16 d 18
  let mode := dU8 d 20
  let out := dU32 d 8
  let dl := dU32 d 12
  let st := imgMap b 0
  imgRole b g = 1 && zeroAt d 23 41 && dU8 d 21 < 15 && 1 ≤ dU16 d 16 && mode ≤ 1 && dU8 d 22 ≤ 2 && lv ≠ 0
    && (List.range 16).all (fun l => !bitOf lv l || bitOf (imgLvl b l 0) 31) && refOk hs false (dU32 d 4)
    && (if mode = 0 then refOk hs false out && refTagged hs out && [8, 9, 0xA, 0xC].contains (dU8 d 21 % 16) && dl = 0xFFFFFFFF
          && decide (stage ≤ bitsOf st 0 5)
        else out = 0xFFFFFFFF && refOk hs false dl && refAll hs dl (fun h => h.fmt = 8 || h.fmt = 9 || h.fmt = 0xA)
          && bitOf st 15 && stage = bitsOf st 8 5)

/-- The loops of a program nest at most four deep, each body inside every enclosing one and without the END that closes the program
(R152); a linked chain and the next descriptor stand in one body (R231). `open_` holds the ends of the open bodies, innermost
first. -/
def loopsOk : List Nat → Nat → List Bytes → Bool
  | _, _, [] => true
  | open_, i, d :: ds =>
    let o := open_.filter (fun e => decide (i < e))
    if dKind d = 8 then
      let e := i + 1 + dU8 d 6
      decide (o.length < 4) && (match o with | [] => true | x :: _ => decide (e ≤ x)) && decide (dU8 d 6 < ds.length) && loopsOk (e :: o) (i + 1) ds
    else (dKind d ≠ 1 || !bitOf (dU8 d 41) 2 || o.all (fun e => decide (i + 1 < e))) && loopsOk o (i + 1) ds

/-- One descriptor at position `i` of a program of `n` (R143 to R153). -/
def descOk (b : Bytes) (g : Nat) (hs : List Hdl) (n i : Nat) (d : Bytes) (next : Option Bytes) : Bool :=
  let last := i + 1 = n
  let r (o : Nat) := refOk hs false (dU32 d o)
  !bitOf (dU8 d 0) 7 && dU8 d 1 = 0 && dSeq d = i && dEnd d = decide last
    && (i ≠ 0 || (dKind d = 7 && dU8 d 4 = 0)) && (!last || (dKind d = 7 && dU8 d 4 = 1))
    && (match dKind d with
        | 1 => chainOk hs d next
        | 2 => zeroAt d 21 43 && dU8 d 20 ≤ 3 && r 4 && r 8 && r 12 && dU16 d 16 % 8 = 0 && 8 ≤ dU16 d 16 && dU16 d 16 ≤ 4096 && 1 ≤ dU16 d 18
        | 3 => moveOk hs d
        | 4 => selectOk hs d
        | 5 => maplookOk b hs g d
        | 6 => zeroAt d 12 52 && 1 ≤ dU16 d 8 && dU16 d 8 ≤ 4096 && dU8 d 10 ≤ 4 && dU8 d 11 ≤ 15 && refOk hs (dU8 d 10 = 4) (dU32 d 4)
        | 7 => zeroAt d 5 3 && zeroAt d 18 46 && dU8 d 4 ≤ 2 && (dU8 d 4 ≠ 2 || (r 8 && r 12))
        | 8 => 1 ≤ dU16 d 4 && 1 ≤ dU8 d 6 && dU8 d 7 ≤ 3 && zeroAt d 12 4 && zeroAt d 48 16
            && (List.range 4).all (fun a => zeroAt d (17 + 8 * a) 3 && (dU8 d (16 + 8 * a) = 0xFF || dU8 d (16 + 8 * a) < 64))
            && refOk hs (!bitOf (dU8 d 7) 0) (dU32 d 8) && (!bitOf (dU8 d 7) 0 || refAll hs (dU32 d 8) Hdl.narrow)
        | _ => false)

/-- Check 9 for one tile. -/
def progOk (b : Bytes) (g : Nat) : Bool :=
  let hs := imgHdls b g
  match imgProg b g with
  | none => true
  | some ds =>
    let n := ds.length
    2 ≤ n && n ≤ 4096 && loopsOk [] 0 ds && ds.zipIdx.all (fun e => descOk b g hs n e.2 e.1 ds[e.2 + 1]?)
      && hs.all (fun h => !h.valid || !h.narrow || h.tagm = 0) && hs.all (fun h => !h.valid || h.fmt ≠ 0xF)

/-- Whether a program holds a MODE 1 MAPLOOK. -/
def updates (b : Bytes) (g : Nat) : Bool := ((imgProg b g).getD []).any (fun d => dKind d = 5 && dU8 d 20 = 1)

/-- Check 9 (R153 and the load rules named there): updates stand on one local tile number (R281). -/
def check9 (b : Bytes) : Bool :=
  (imgTiles b).all (progOk b) && decide ((((imgTiles b).filter (updates b)).map (fun g => g % 20)).dedup.length ≤ 1)

/-! ### Checks 10 and 11, and all of them -/

/-- Check 10: tile groups, stages, budgets (R32, R136), partitions of handles, windows and rings (R207), the PARTITION
section (R338, R340). Of the four dies' tiles of one number it compares role and stage, not their programs (DESIGN CHOICE,
assumption 105). -/
def check10 (b : Bytes) : Bool :=
  let ts := imgTiles b
  let ns := imgU b 19 1
  let p0 (x : Nat) := bitOf x 0
  let enabled (i : Nat) := bitOf (imgPart b (3 * i + 2)) 31
  let base (i : Nat) := imgPart b (3 * i) % 2 ^ 11
  let size (i : Nat) := imgPart b (3 * i + 1) % 2 ^ 12
  1 ≤ ns && ns ≤ 19
    && ts.all (fun g => imgRole b g ≠ 3 && (imgProg b g).isSome && 1 ≤ bitsOf (tileCfg b g 2) 0 24)
    && (List.range ns).all (fun k => ts.any (fun g => imgRole b g = 1 && imgStage b g = k))
    && ts.all (fun g => imgRole b g ≠ 1 || (imgStage b g < ns
        && (List.range 4).all (fun d => imgRole b (20 * d + g % 20) = 1 && imgStage b (20 * d + g % 20) = imgStage b g)))
    && ts.all (fun g =>
      let col := imgRole b g = 2
      let rs := imgRings b g
      (imgHdls b g).all (fun h => !h.valid || ((if col then h.parts / 2 = 0 else !p0 h.parts)
        && (h.rrel = 0 || (let r := rs.getD h.rnum (0, 0, 0); h.addr = r.1 && h.len = 512 * r.2.1))))
      && (imgWins b g).all (fun w => !bitOf w.2.2.2 0 || (if col then bitsOf w.2.2.2 9 3 = 0 else !bitOf w.2.2.2 8))
      && rs.all (fun r => !bitOf r.2.2 0 || !col || bitsOf r.2.2 4 2 = 0))
    && (devSection b secPartition).isSome
    && (List.range 32).all (fun i => !enabled i || (decide (base i + size i ≤ 2048) && (List.range 32).all (fun j =>
        j = i || j / 16 ≠ i / 16 || !enabled j || decide (base i + size i ≤ base j) || decide (base j + size j ≤ base i))))
    && (List.range 4).all (fun l =>
        let w (p : Nat) := imgPart b (96 + 4 * l + p)
        (List.range 4).all (fun p => decide (bitsOf (w p) 0 13 ≤ bitsOf (w p) 16 13))
          && decide ((List.range 4).foldl (fun n p => n + bitsOf (w p) 0 13) 0 ≤ (if l < 2 then 4096 else 5120)))

/-- Check 11: the map layout (R251, R281). Region bytes are counted in units of 4 KiB. -/
def check11 (b : Bytes) : Bool :=
  let cfg (l : Nat) := imgLvl b l 0
  let ls := (List.range 16).filter (fun l => bitOf (cfg l) 31)
  let rows (l : Nat) := 2 ^ bitsOf (cfg l) 0 5
  let units (l : Nat) := ceilDiv (rows l * 2 * partB (bitOf (cfg l) 20) (bitsOf (cfg l) 16 4 * 2)) 4096
  let spare := (imgMap b 1 % 2 ^ 18, imgMap b 2 % 2 ^ 18)
  let areas := (ls.flatMap (fun l => [(imgLvl b l 2 % 2 ^ 18, units l), (imgLvl b l 3 % 2 ^ 18, units l)])) ++ [spare]
  let st := imgMap b 0
  let ns := imgU b 19 1
  ls.all (fun l =>
      let r := bitsOf (cfg l) 0 5
      let e := imgLvl b l 1
      10 ≤ r && r ≤ 22 && 5 ≤ bitsOf (cfg l) 8 5 && bitsOf (cfg l) 8 5 ≤ 16 && 1 ≤ bitsOf (cfg l) 16 4 && bitsOf (cfg l) 16 4 ≤ 8
        && 1 ≤ e && e ≤ 2 ^ 20 && (!bitOf (cfg l) 21 || 11 ≤ r))
    && areas.all (fun a => decide (a.1 + a.2 ≤ 2 ^ 18))
    && areas.zipIdx.all (fun a => areas.zipIdx.all (fun c => a.2 = c.2 || a.1.2 = 0 || c.1.2 = 0 || decide (a.1.1 + a.1.2 ≤ c.1.1) || decide (c.1.1 + c.1.2 ≤ a.1.1)))
    && decide (bitsOf st 0 5 < ns) && (!bitOf st 15 || decide (bitsOf st 8 5 < ns))

/-- The code of the first check of R141 that an image fails, 0 where it passes all; `sigOk` is the verdict of the signature
engine under the key of KEY_SLOT, which must be usable, in no state RETURNED (R417, R424). -/
def State.imageCode (s : State) (b : Bytes) (sigOk : Bool) : Nat :=
  if !check1 b then 1
  else if imgU b 6 2 ≠ 0x0048 then 2
  else if !sigOk || decide (3 < imgU b 8 1) || !s.slotUsable (imgU b 8 1) || s.lifecycle = lcReturned then 3
  else if imgU b 9 1 < s.get SEC.ARB_VALUE then 4
  else if !check5 b (s.get (TILE.SPD_SIZE_KIB 0)) then 5
  else if !check6 b then 6
  else if !check7 b then 7
  else if !check8 b s then 8
  else if !check9 b then 9
  else if !check10 b then 10
  else if !check11 b then 11
  else 0

end Sys2Proof.Machine
end

