-- ==== Sys2Proof/Machine/Load.lean ====
section
/-! DEFINITION. Loading a pipeline image: its verification, the registers it loads, and the fill of the scratchpads from its
copy (R35, R141, R142, R202, R216 to R218, R327, R332, R349, R362). -/

namespace Sys2Proof.Machine

/-- Bytes of the load buffer (R327). -/
abbrev loadBufLen : Nat := 320 * 2 ^ 20

/-- The fields of a register given their bits of a loaded word. -/
def State.putWord (s : State) (w : Nat) (fs : List Fld) : State := fs.foldl (fun s f => s.put f (bitsOf w f.lo f.w)) s

/-- The map registers loaded from MAPLAYOUT (R251, R282). -/
def State.loadMapRegs (s : State) (b : Bytes) : State :=
  let s := s.putWord (imgMap b 0) [MAP.STAGES_LOOK_LAST 0, MAP.STAGES_UPD 0, MAP.STAGES_UPD_VALID 0]
  let s := (s.putWord (imgMap b 1) [MAP.SPARE_UNIT 0]).putWord (imgMap b 2) [MAP.SPARE_N_UNITS 0]
  (List.range 16).foldl (fun s l =>
    let s := s.putWord (imgLvl b l 0) [MAP.LVL_CFG_RLOG 0 l, MAP.LVL_CFG_MLOG 0 l, MAP.LVL_CFG_F8 0 l, MAP.LVL_CFG_FMT 0 l,
      MAP.LVL_CFG_COMPOSE 0 l, MAP.LVL_CFG_EN 0 l]
    ((s.putWord (imgLvl b l 1) [MAP.LVL_EXT_CELLS 0 l]).putWord (imgLvl b l 2) [MAP.LVL_BASE0_UNIT 0 l]).putWord (imgLvl b l 3)
      [MAP.LVL_BASE1_UNIT 0 l]) s

/-- The DRAM regions and bandwidth buckets loaded from PARTITION (R338, R340, R361). -/
def State.loadRegions (s : State) (b : Bytes) : State :=
  let s := (List.range 32).foldl (fun s i =>
    ((s.putWord (imgPart b (3 * i)) [SI.REGION_BASE_MIB i]).putWord (imgPart b (3 * i + 1)) [SI.REGION_SIZE_MIB i]).putWord
      (imgPart b (3 * i + 2)) [SI.REGION_ATTR_WPARTS i, SI.REGION_ATTR_RPARTS i, SI.REGION_ATTR_VIA_TGE i, SI.REGION_ATTR_LOADONLY i,
        SI.REGION_ATTR_EN i]) s
  (List.range 16).foldl (fun s k => s.putWord (imgPart b (96 + k)) [SI.BW_MIN (k / 4) (k % 4), SI.BW_MAX (k / 4) (k % 4)]) s

/-- The builders' registers loaded from VHUCFG: KIND and DST of the sixteen rulebooks, then ROWDST (R130, assumption 19). -/
def State.loadVhu (s : State) (b : Bytes) : State :=
  let w (i : Nat) := imgU ((devSection b secVhuCfg).getD []) (4 * i) 4
  let s := (List.range 16).foldl (fun s i =>
    (s.putWord (w (2 * i)) [VHU.RBQ_KIND_KIND 0 i, VHU.RBQ_KIND_GRID 0 i, VHU.RBQ_KIND_LVL_IN 0 i, VHU.RBQ_KIND_LVL_OUT 0 i]).putWord
      (w (2 * i + 1)) [VHU.RBQ_DST_HDL 0 i]) s
  s.putWord (w 32) [VHU.ROWDST_FEAT 0, VHU.ROWDST_COORD0 0, VHU.ROWDST_COORD1 0, VHU.ROWDST_COORD2 0, VHU.ROWDST_COORD3 0]

/-- The golden registers loaded from GOLDEN (R362, R387, R388). -/
def State.loadGolden (s : State) (b : Bytes) : State :=
  let g := (devSection b secGolden).getD []
  let s := s.put MS.GOLD_CFG_HEAD (goldHead g)
  (List.range 2).foldl (fun s i =>
    (s.put (BIST.GOLD_EXP_LO i) (goldExp g i % 2 ^ 32)).put (BIST.GOLD_EXP_HI i) (goldExp g i / 2 ^ 32)) s

/-- An image that has passed every check becomes the held image, and its device sections are loaded; `src` is 1 flash, 2
host (R141, R335). -/
def State.loadImage (s : State) (b : Bytes) (src : Nat) : State :=
  let s : State := { s with image := b, tags := [] }
  let s := (((s.set1 SYS.IMG_STAT_HELD).put SYS.IMG_STAT_SRC src).put SYS.IMG_STAT_SVN (imgU b 9 1)).put SYS.IMG_LEN (imgU b 12 4)
  let s := (s.put TMU.REF_REF_HEAD (imgU b 18 1)).put TMU.REF_REV_ANGLE (imgU b 20 4 % 2 ^ 24)
  (((s.loadMapRegs b).loadRegions b).loadVhu b).loadGolden b

/-- The image in the load buffer: LEN bytes from its start (R327). -/
def State.bufImage (s : State) : Bytes := Mem.bytes s.loadBuf 0 (min loadBufLen (Mem.num s.loadBuf 12 4))

/-- The load buffer's image verified: loaded or refused with its code (R141, R327). -/
def State.judgeImage (s : State) (sigOk : Bool) (src : Nat) : State :=
  let b := s.bufImage
  let code := s.imageCode b sigOk
  let s := s.put SYS.IMG_STAT_BUSY 0
  if code = 0 then ((s.loadImage b src).put SYS.IMG_STAT_CODE 0).set1 SYS.EVT_IMG_DONE
  else (s.put SYS.IMG_STAT_CODE code).set1 SYS.EVT_IMG_FAIL

/-- SYS.IMG_CTRL.VERIFY set (R327): in Dawn and Ready, while no verification runs; none: REJECTED. -/
def State.verify (s : State) : Option State :=
  if s.on SYS.IMG_STAT_BUSY || !(s.dev = dsDawn || s.dev = dsReady) then none else some (s.set1 SYS.IMG_STAT_BUSY)

/-- IMAGE_VERIFY_DONE (R141, R327): `sigOk` is the signature engine's verdict. A verification that Hold finds running ends there.
It goes on once no head's answer is checked (R413). -/
def execImageVerifyDone (t : Nat) (sigOk : Bool) (s : State) : Out :=
  run t (fun s => s.when (s.on SYS.IMG_STAT_BUSY && !s.headCheck && (s.dev = dsDawn || s.dev = dsReady || s.dev = dsHold)) (fun s => s.judgeImage sigOk 2)) s

/-! ### Tiles (R142, R202, R216 to R218, R332, R434) -/

/-- PG_PART of a tile page (R332). -/
def imgParts (b : Bytes) (g : Nat) : Nat :=
  let h := (imgHdls b g).foldl (fun n x => if x.valid then Nat.lor n x.parts else n) 0
  let w := (imgWins b g).foldl (fun n x => if bitOf x.2.2.2 0 then Nat.lor n (bitsOf x.2.2.2 8 4) else n) h
  (imgRings b g).foldl (fun n x => if bitOf x.2.2 0 then Nat.lor n (2 ^ bitsOf x.2.2 4 2) else n) w

/-- Handles, rings, windows, role, program and budgets of a tile loaded; its program waits at the first descriptor. -/
def State.loadTile (s : State) (g : Nat) : State :=
  let b := s.image
  let s := s.putWord (tileCfg b g 0) [TILE.ROLE_ROLE g, TILE.ROLE_STAGE g, TILE.ROLE_SLOTS g]
  let s := s.putWord (tileCfg b g 1) [TILE.PROG_START g, TILE.PROG_LEN g]
  let s := (s.putWord (tileCfg b g 2) [TILE.BUDGET_CYC g]).putWord (tileCfg b g 3) [TILE.BUDGET_SLACK_CYC g]
  let s := s.putWord (tileCfg b g 4) [TILE.SPD_CFG_CONF_SEV g]
  let s := (imgHdls b g).zipIdx.foldl (fun (s : State) (e : Hdl × Nat) =>
    ((s.put (HDL.BASE_ADDR g e.2) e.1.addr).put (HDL.LEN_BYTES g e.2) e.1.len).putWord e.1.attr
      [HDL.ATTR_VALID g e.2, HDL.ATTR_VIEW g e.2, HDL.ATTR_FMT g e.2, HDL.ATTR_PARTS g e.2, HDL.ATTR_TAGM g e.2, HDL.ATTR_RREL g e.2,
        HDL.ATTR_RNUM g e.2]) s
  let s := (imgRings b g).zipIdx.foldl (fun (s : State) (e : (Nat × Nat × Nat) × Nat) =>
    let s := ((s.put (RING.BASE_ADDR g e.2) e.1.1).put (RING.SIZE_LINES g e.2) e.1.2.1).putWord e.1.2.2
      [RING.CFG_EN g e.2, RING.CFG_PART g e.2, RING.CFG_PER_COL g e.2]
    (s.put (RING.HEAD_PTR g e.2) 0).put (RING.TAIL_PTR g e.2) 0) s
  let s := (imgWins b g).zipIdx.foldl (fun (s : State) (e : (Nat × Nat × Nat × Nat) × Nat) =>
    ((s.put (WIN.BASE_ADDR g e.2) e.1.1).put (WIN.LEN_BYTES g e.2) e.1.2.1).putWord e.1.2.2.1
      [WIN.SRC_FIRST g e.2, WIN.SRC_LAST g e.2, WIN.SRC_TILES g e.2, WIN.SRC_PARTNER g e.2]
    |>.putWord e.1.2.2.2 [WIN.ATTR_EN g e.2, WIN.ATTR_PARTS g e.2, WIN.ATTR_TAGM g e.2]) s
  let s := s.put (PG.PART (0x100 + g)) (imgParts b g)
  ((s.put (TILE.STAT g) 1).put (TILE.PC_IDX g) 0).put (TILE.ADMIT_NUM g) 0

/-- A tile's scratchpad filled from the image copy: its PROG and WEIGHTS sections at their places (R140, R142). -/
def State.fillTile (s : State) (g : Nat) : State :=
  (sectionsOf s.image).foldl (fun s x =>
    if (x.type = secProg || x.type = secWeights) && x.target = g then s.spdStore g x.dest (x.bytes s.image) else s) s

/-- Every assigned scratchpad refilled, tags empty, ring pointers reset (R142, R202, R216, R349 step 4). -/
def State.refill (s : State) : State :=
  let s := (imgTiles s.image).foldl (fun s g => (List.range 4).foldl (fun s r =>
    (s.put (RING.HEAD_PTR g r) 0).put (RING.TAIL_PTR g r) 0) (s.fillTile g)) s
  { s with tags := [] }

/-- Something survived a restart that waits for the first wedge boundary in Noon (R15). -/
def State.survivors (s : State) : Bool :=
  s.dev = dsMidnight && (!s.shadow.isEmpty || s.on TMU.STEP_ACCEPT_ACCEPT || s.time.stepOfs.isSome || s.get (MAP.COMMIT_LEVELS 0) ≠ 0)

/-- Service starts or resumes: tile state loaded, programs at their first descriptors, masks and timers empty, SYS.STATE NOON (R72,
R349 steps 6 and 7, R434 step 4, R157). -/
def State.startNoon (s : State) : State :=
  let s : State := { s.clearMasks with safety := { s.safety with survive := s.survivors } }
  let s := (imgTiles s.image).foldl (fun s g => s.loadTile g) s
  let s : State := { s with tiles := s.tiles.map TileSt.stopped, pipe := { s.pipe with nextAdmit := 0 },
                            safety := { s.safety with refilled := false, noonEntry := false, handling := false, wedgeSeen := false },
                            age := { s.age with goldOpen := true } }
  (s.setDev dsNoon).faultN.latMode

end Sys2Proof.Machine
end

