-- ==== Sys2Proof/Machine/Device.lean ====
section
/-! DEFINITION. The device states and what moves between them, the fault log, the Fault Sequencer, fault injection, and the
monitors of temperature, rails and clocks (R345, R349 to R356, R432 to R450). -/

namespace Sys2Proof.Machine

/-! ### Commands of SYS.CMD (R433) -/

/-- Domains of the assigned tiles and their fabrics switched on (R434 step 1, R440). -/
def State.domainsOn (s : State) : State :=
  let m := (imgTiles s.image).foldl (fun n g => Nat.lor n (2 ^ (5 * (g / 20) + g % 20 / 5) + 2 ^ (5 * (g / 20) + 4))) 0
  s.put PM.DOM_ON_ON (Nat.lor (s.get PM.DOM_ON_ON) m)

/-- GO_NOON (R433, R434): Noon entry begins. -/
def State.goNoon (s : State) : Option State :=
  if s.dev = dsReady && s.on SYS.IMG_STAT_HELD && !s.on SYS.IMG_STAT_BUSY then
    some (if s.safety.noonEntry then s else ({ s with safety := { s.safety with noonEntry := true } } : State).domainsOn)
  else none

/-- GO_DUSK (R433, R435 step 1). -/
def State.goDusk (s : State) : Option State :=
  if s.dev = dsNoon then some ({ s.clearMasks.setDev dsDusk with safety := { s.safety with duskAt := s.mono } } : State).faultN else none

/-- SYS.CMD.CMD written (R433); none: REJECTED. CMD reads 0 again. -/
def State.sysCmd (s : State) (cmd : Nat) : Option State :=
  match cmd with
  | 0 => some s
  | 1 => s.goNoon
  | 2 => s.goDusk
  | 3 => if s.dev = dsNoon || s.dev = dsDusk then some s.goReady else none
  | 4 => if s.dev = dsHold then none else some (s.enterHold 3)
  | _ => none

/-! ### Entries to Noon and Ready -/

/-- NOON_ENTRY_COMPLETE (R434 steps 2 to 4): `checkOk` is the outcome of the refill check, whose failure is C3. A verification begun
during the entry ends before it (DESIGN CHOICE, assumption 113). -/
def execNoonEntryComplete (t : Nat) (checkOk : Bool) (s : State) : Out :=
  run t (fun s => s.when (s.dev = dsReady && s.safety.noonEntry && !s.on SYS.IMG_STAT_BUSY) (fun s =>
    if !checkOk then s.plain 0x039 3
    else
      let s := s.refill.clearVoxels.startNoon
      let s := s.put BIST.STAT_GOLD_DEF 0
      { s with age := { s.age with runAt := s.age.runAt.orElse (fun _ => some s.mono), defer := 0 } })) s

/-- REFILL_COMPLETE (R349 step 4, R350): `dramUe` is an uncorrectable error in the DRAM image copy, C3. -/
def execRefillComplete (t : Nat) (dramUe : Bool) (s : State) : Out :=
  run t (fun s => s.when (s.dev = dsMidnight && !s.safety.refilled) (fun s =>
    if dramUe then s.plain 0x039 3 else { s.refill with safety := { s.safety with refilled := true } })) s

/-- REFILL_CHECK_DONE (R349 steps 5 to 7, R350): a mismatch is C3; an uncorrectable scratchpad error at a tile's address is C2 (R200),
and a fresh attempt follows (R347). -/
def execRefillCheckDone (t : Nat) (crcOk : Bool) (spdUe : Option (Fin 80 × Nat)) (s : State) : Out :=
  run t (fun s => s.when (s.dev = dsMidnight && s.safety.refilled) (fun s =>
    match spdUe with
    | some (g, addr) => s.spdUe g addr false
    | none => if crcOk then s.startNoon else s.plain 0x039 3)) s

/-- The drain is complete: the frame of the last closed wedge has left (R435 step 3). -/
def State.drained (s : State) : Bool :=
  s.pipe.backlog.isEmpty && s.pipe.flight.isEmpty && !s.pipe.building && s.out.blocks.isEmpty && s.out.frames.isEmpty

/-- DRAIN_COMPLETE (R435 step 3). -/
def execDrainComplete (t : Nat) (logFail : Bool) (s : State) : Out :=
  run t (fun s => s.when (s.dev = dsDusk && s.drained) (fun s => s.endDusk logFail)) s

/-- DUSK_TO (R435): the drain limit has passed. -/
def execDuskTo (t : Nat) (s : State) : Out :=
  run t (fun s => s.when (s.dev = dsDusk && !s.drained && decide (s.safety.duskAt + s.get PM.DUSK_MS * tickMs ≤ s.mono)) (fun s =>
    ((s.bump PM.DUSK_TO_CNT).raise PM.EVT_DUSK_TO 1).duskEnd)) s

/-- LAST_DAWN_STEP_COMPLETE (R438 step 8, R353, R407): not while the boot ROM waits for firmware (R422). -/
def execLastDawnStepComplete (t : Nat) (s : State) : Out :=
  run t (fun s => s.when (s.dev = dsDawn && s.sec.waits.isNone && !s.sec.fwHead.isEmpty) (fun s =>
    let s := (s.tilesOff.setDev dsReady).faultN
    let s : State := { s with pins := { s.pins with hbOut := true, faultN := true } }
    if s.on PLK.CTRL_EN then (s.put PLK.STAT_STATE 1).pl (fun k => { k with hbAt := s.mono }) else s)) s

/-! ### The Fault Sequencer (R354, R355) -/

/-- The Fault Sequencer acts: it records the cause and enters Hold by itself; no fault is logged afterwards. -/
def State.fsqAct (s : State) (cause : Fld) : State :=
  if s.on SI.FSQ_ACTED then s
  else ((s.set1 SI.FSQ_ACTED).set1 cause).enterHold (s.get SI.HOLD_CAUSE_CAUSE)

/-- The Safety Island's firmware runs (R421). -/
def State.siRuns (s : State) : Bool := !s.sec.fwHead.isEmpty

/-- LOCKSTEP_MISMATCH. -/
def execLockstepMismatch (t : Nat) (s : State) : Out := run t (fun s => s.when s.siRuns (fun s => s.fsqAct SI.FSQ_LOCKSTEP)) s

/-- WDT: no watchdog service for 2 ms of the always-on clock, 1.8 ms at least. -/
def execWdt (t : Nat) (s : State) : Out :=
  run t (fun s =>
    let due := match s.safety.wdtStop with
      | none => true
      | some a => decide (a + 1800 * tickUs ≤ s.mono)
    s.when (s.siRuns && due) (fun s => s.fsqAct SI.FSQ_WDT)) s

/-- HOLD_TO: a Hold entry that has not completed within 1 ms. -/
def execHoldTo (t : Nat) (s : State) : Out :=
  run t (fun s => match s.safety.holdAt with
    | none => s
    | some a => s.when (s.dev = dsHold && decide (a + tickMs ≤ s.mono)) (fun s => s.fsqAct SI.FSQ_HOLD_TO)) s

/-! ### The fault log and injection -/

/-- SI.FLOG_POP.POP written 1 (R345): the oldest entry removed. -/
def State.flogPop (s : State) : State :=
  let l := s.safety.flog.drop 1
  ({ s with safety := { s.safety with flog := l, now := { s.cycleFaults with log := l, entries := [] } } } : State).put
    SI.STAT_FLOG_OCC l.length

/-- The injection of a code on a page (R356); none where the code is not defined there. -/
def State.injected (s : State) (page code : Nat) : Option State :=
  if 1 ≤ code && code ≤ 4 then some (s.plain page (code - 1) 0 true)
  else if 0x100 ≤ page then
    let g := page - 0x100
    match code with
    | 0x10 => some (s.setTile g (fun x => { x with inj := 1 }))
    | 0x11 => some (s.setTile g (fun x => { x with inj := 2 }))
    | 0x12 => some (s.setTile g (fun x => { x with injTag := true }))
    | 0x13 => some (s.setTile g (fun x => { x with injSeq := true }))
    | _ => none
  else if page = 0x039 then
    if s.dev ≠ dsReady then none
    else match code with
      | 0x20 => some (s.fsqAct SI.FSQ_LOCKSTEP)
      | 0x21 => some { s with safety := { s.safety with wdtStop := some s.mono } }
      | _ => none
  else if page = 0x040 then (if code = 0x10 then some { s with out := { s.out with injBad := true } } else none)
  else if page = 0x038 then (if code = 0x10 then some { s with out := { s.out with injAge := true } } else none)
  else if code = 0x10 || code = 0x11 then
    let n := code - 0x0F
    if page = 0x022 || page = 0x023 then some (s.setVhu (page - 0x022) (fun v => { v with inj := n }))
    else if page = 0x028 || page = 0x029 then some (s.setTge (page - 0x028) (fun x => { x with inj := n }))
    else if page = 0x030 || page = 0x031 then some { s with age := { s.age with dramInj := s.age.dramInj.set (page - 0x030) n } }
    else none
  else none

/-- PG_FAULT_INJ.FIRE set (R356); none: REJECTED. -/
def State.fireInj (s : State) (page : Nat) : Option State :=
  if s.on SI.INJ_EN && (s.dev = dsReady || (s.dev = dsNoon && s.on SI.INJ_NOON)) then s.injected page (s.get (PG.FAULT_INJ_CODE page)) else none

/-! ### Temperature, rails, PMBus, clocks -/

/-- THERMAL_READ (R450): the six sensors, base A, base B, compute dies 0 to 3, in 1/16 degC. -/
def execThermalRead (t : Nat) (temps : Temps) (s : State) : Out :=
  run t (fun s =>
    let v (i : Nat) : Int := temps.getD i 0
    let s := (List.range 6).foldl (fun s i => s.put (PM.TEMP_C16 i) (lowBits 16 (v i))) s
    let s : State := { s with age := { s.age with telMax := s.age.telMax.zipIdx.map (fun e => max e.1 (v e.2))
                                                  hotMax := (List.range 6).foldl (fun m i => max m (v i)) s.age.hotMax } }
    let s := (List.range 2).foldl (fun s u => s.put (DRAM.STAT_HOT u) (b2n (decide (85 * 16 < v u)))) s
    let hi := (List.range 6).any (fun i => decide ((s.get PM.THERM_HI_C : Int) * 16 < v i))
    let rest := match s.age.thermAt with
      | none => true
      | some a => decide (a + tickS ≤ s.mono)
    let s := if !hi then s
      else if rest then ({ s with age := { s.age with thermAt := some s.mono } } : State).raise PM.EVT_THERM_HI 0
      else s.set1 PM.EVT_THERM_HI
    if (List.range 6).any (fun i => decide (130 * 16 < v i)) then s.raise PM.EVT_THERM_TRIP 3 else s) s

/-- RAIL_CHECK (R445): a rail outside its tolerance is C3. Rails 0 to 3 are VDD_CMP0 to VDD_CMP3, checked while they are
enabled, then the others in the order of R442. -/
def execRailCheck (t : Nat) (rail : Fin 12) (dev : RailDev) (s : State) : Out :=
  run t (fun s =>
    if rail.val < 4 && !s.on (PM.VCMP_EN rail) then s
    else match dev with
      | .ok => s
      | .under => s.raise PM.EVT_RAIL_UV 3
      | .over => s.raise PM.EVT_RAIL_OV 3) s

/-- PMB_ALERT (R466): the regulators in whose STATUS_WORD a fault bit stands are handled as failed transactions (R445). -/
def execPmbAlert (t : Nat) (faults : List Bool) (s : State) : Out :=
  run t (fun s => (faults.take 4).foldl (fun s f => if f then s.pmbusErr else s) s) s

/-- REFCLK_LOST (R447). -/
def execRefclkLost (t : Nat) (s : State) : Out :=
  run t (fun s => (s.put CM.STAT_REFCLK_OK 0).raise CM.EVT_REFCLK_LOST 3) s

/-- The clock domains of a PLL (R446): base A, base B, dies 0 to 3. -/
def pllDomain (pll : Nat) : Nat := if pll = 0 then 8 else if pll = 1 then 9 else pll - 2

/-- The base die whose spare PLL takes over for a PLL (R447, R452): 0 A, 1 B. -/
def pllBase (pll : Nat) : Nat := if pll = 0 || pll = 2 || pll = 3 then 0 else 1

/-- A clock event (R447): recorded, counted; the spare PLL of the base die takes the service, C2, or C3 where it already
carries one. -/
def State.clockEvent (s : State) (evt : Fld) (dom base : Nat) : State :=
  let s := ((s.put CM.LAST_DOMAIN dom).set1 CM.LAST_VALID).bump CM.UNLOCK_CNT
  let use := s.get CM.STAT_SPARE_USE
  if bitOf use base then s.raise evt 3
  else
    let s := (s.put CM.STAT_SPARE_USE (Nat.lor use (2 ^ base))).set1 CM.EVT_SPARE_SWITCH
    s.raise evt 2

/-- PLL_UNLOCK (R447): PLL 0 base A, 1 base B, 2 to 5 compute dies. -/
def execPllUnlock (t : Nat) (pll : Fin 6) (s : State) : Out :=
  run t (fun s =>
    (s.put CM.STAT_PLL_LOCK (withBits (s.get CM.STAT_PLL_LOCK) pll 1 0)).clockEvent CM.EVT_PLL_UNLOCK (pllDomain pll) (pllBase pll)) s

/-- The base die whose PLLs clock a domain (R446): those of both base dies stand on A. -/
def domBase (dom : Nat) : Nat :=
  if dom < 8 then dom % 4 / 2 else if dom = 9 || dom = 11 || dom = 15 || dom = 26 then 1 else 0

/-- CLK_WINDOW (R447): a recovered head-port clock that is lost is a link loss of its port (R108). -/
def execClkWindow (t : Nat) (dom : Fin 27) (s : State) : Out :=
  run t (fun s => if 17 ≤ dom.val && dom.val ≤ 24 then s.headDown (dom.val - 17) else s.clockEvent CM.EVT_CLK_WINDOW dom (domBase dom)) s

end Sys2Proof.Machine
end

