-- ==== Sys2Proof/Machine/Boot.lean ====
section
/-! DEFINITION. Reset, the boot of the firmware and the Dawn steps, recovery (R415, R419 to R423, R438, R439, R448). -/

namespace Sys2Proof.Machine

/-- PORST_N low (R448): a low of 10 us or more resets the whole device, below 1 us it is ignored, between the two it may be
taken (assumption 29). Flash, OTP, the ageing log, the TAP and the waiting commands are not reset. -/
def execPorstNLow (_t lowNs : Nat) (s : State) : Out :=
  .next (if 10000 ≤ lowNs || (1000 ≤ lowNs && Config.shortReset lowNs) then
      { State.reset with
          pending := s.pending, p2 := s.p2, free := s.free, outbox := s.outbox, sec := { flash := s.sec.flash, otp := s.sec.otp, jtag := s.sec.jtag },
          age := { log := s.age.log } }
    else s)

/-- A memory with the pieces of a list programmed into it. -/
def programmed (m : Mem) (l : List (Nat × Bytes)) : Mem := l.foldl (fun m e => Mem.store m e.1 e.2) m

/-- What PORST_N release samples: straps and OTP shown in their registers (R415, R423, R474). -/
def State.sampleOtp (s : State) (b : BootInput) : State :=
  let o := s.sec.otp
  let word (a : Nat) : Nat := Mem.num o a 4
  let s := (s.put SYS.STATE_PAIR_ROLE (b2n b.pairRole)).put SYS.STATE_LIFECYCLE (stepsTaken o 0x10 3)
  let s := (s.put SEC.ARB_VALUE (stepsTaken o 0x20 64)).put SEC.BOOT_STAT_ROM_REV (word 0x30 % 4)
  let s := (List.range 4).foldl (fun s j => s.put (SEC.SERIAL j) (word (4 * j))) s
  let s := (List.range 4).foldl (fun s k => s.put (SEC.KEYSLOT_ATTR k) (word (0x60 + 0x30 * k) % 8)) s
  let s := (List.range 8).foldl (fun s j => s.put (SEC.DEV_PK j) (word (0x120 + 4 * j))) s
  let s := (List.range 2).foldl (fun s p =>
    let m := Mem.bytes o (0x140 + 6 * p) 6
    (s.put (HS.MAC_HI_MAC p) (beNat (m.take 2))).put (HS.MAC_LO p) (beNat (m.drop 2))) s
  (List.range 4).foldl (fun (s : State) d =>
    (s.put (AGE.AVS_FUSE_MIN d) (word (0x150 + 3 * d) % 256)).put (AGE.AVS_FUSE_MAX d) (word (0x151 + 3 * d) % 256)) s

/-- The first failing check of R421 step 5 on a firmware image, 0 where it passes all. -/
def State.fwCode (s : State) (h : Bytes) (sigOk : Bool) : Nat :=
  let len := fwLen h
  if !(fieldB h 0 4 = 0x57464C45 && fieldB h 4 2 = 1 && 256 + 7856 ≤ len && len ≤ 2 ^ 20) then 1
  else if fieldB h 6 2 ≠ 0x0048 then 2
  else if 1 < fieldB h 8 1 || bitOf (s.get SEC.BOOT_STAT_ROM_REV) (fieldB h 8 1) then 3
  else if !sigOk then 4
  else if fieldB h 9 1 < s.get SEC.ARB_VALUE then 5
  else 0

/-- A failed boot check, or a flash that does not answer (7): the device waits in Dawn for recovery (R422). -/
def State.bootFail (s : State) (b : BootInput) (code : Nat) : State :=
  ((s.put SEC.BOOT_STAT_CODE code).set1 SEC.EVT_BOOT_FAIL).sc (fun x => { x with waits := some b })

/-- The flash directory (R420, assumption 34): MAGIC, image offset and length, log base sector and count, certificate
offset, CRC-32 over these 24 bytes; none where it is invalid. -/
def flashDir (m : Mem) : Option (List Nat) :=
  let b := Mem.bytes m 0x100000 28
  if fieldB b 0 4 = 0x52494446 && fieldB b 24 4 = crc32 (b.take 24) then some ((List.range 5).map (fun i => fieldB b (4 + 4 * i) 4))
  else none

/-- The pipeline image named by the flash directory read into the load buffer and verified (R421, R438 step 7). -/
def State.flashImage (s : State) (sigOk : Bool) : State :=
  match flashDir s.sec.flash with
  | none => s
  | some d =>
    let s := (s.put AGE.LOG_BASE (d.getD 2 0)).put AGE.LOG_SECTORS (d.getD 3 0)
    let len := d.getD 1 0
    if len = 0 then s
    else
      let s : State := { s with loadBuf := Mem.store [] 0 ((Mem.bytes s.sec.flash (d.getD 0 0) (min len loadBufLen))) }
      s.judgeImage sigOk 1

/-- `f` unless a C3 of an earlier Dawn step has ended Dawn (R439). -/
def State.dawnStep (s : State) (f : State → State) : State := if s.safety.act = 3 then s else f s

/-- A Dawn test whose failure is C3 (R439), reported by the Safety Island without an event bit. -/
def State.dawnTest (s : State) (ok : Bool) (f : State → State) : State :=
  s.dawnStep (fun s => if ok then f s else s.plain 0x039 3)

/-- The record with the highest sequence number (R383). -/
def newestRec : List AgeRec → Option AgeRec
  | [] => none
  | r :: l =>
    match newestRec l with
    | none => some r
    | some x => if x.seq < r.seq then some r else some x

/-- Dawn step 4 (R196, R438, R440): every quadrant and die fabric is powered, every tile in fixed-latency mode. -/
def State.dawnTiles (s : State) : State :=
  (List.range 80).foldl (fun s g => s.set1 (TILE.SPD_STAT_LAT_MODE g)) (s.put PM.DOM_ON_ON (Nat.lor (s.get PM.DOM_ON_ON) 0xFFFFF))

/-- Dawn step 5 (R371, R439): a slice that fails is retried once at once. -/
def State.dawnSlice (s : State) (id g : Nat) (sigs : List (BitVec 32)) : State :=
  ((sigs.take 2).foldl (fun s w => s.sliceFail id g w.toNat false) s).failGone id g

/-- Dawn step 2 (R383, R438, R442): margins restored, PLLs locked, regulators enabled. The measured always-on clock is a free
value. -/
def State.dawnClocks (s : State) : State :=
  let (v, s) := s.random
  let s := ((s.set1 CM.STAT_REFCLK_OK).set1 CM.STAT_AON_TRIM).put CM.STAT_PLL_LOCK 0xFF
  let s := s.put CM.AON_KHZ_KHZ (v % 2 ^ 16)
  let s := match newestRec s.age.log with
    | none => s
    | some r =>
      let s := (List.range 4).foldl (fun (s : State) d => s.put (AGE.AVS_OFS d) (lowBits 8 (r.ofs.getD d 0))) s
      let s := (List.range 2).foldl (fun (s : State) u => s.put (DRAM.STAT_REF_DIV u) (r.ref.getD u 0)) s
      ({ s with age := { s.age with hours0 := r.hours } } : State).put AGE.LOG_SEQ r.seq
  let s := (List.range 4).foldl (fun (s : State) d =>
    (s.put (PM.VCMP_MV d) (((Config.vcmpNominal d).toNat : Int) + s.getI (AGE.AVS_OFS d)).toNat).set1 (PM.VCMP_EN d)) s
  { s with pins := { s.pins with cmpPwrEn := true } }

/-- The rest of Dawn after the firmware has been verified (R421 step 6, R438 steps 2 to 7, R439): `h` is its header, `src` 1
for a recovered one. -/
def State.bootFrom (s : State) (b : BootInput) (h : Bytes) (src : Nat) : State :=
  let s := s.sc (fun x => { x with fwHead := h, waits := none, recovered := src = 1 })
  let s := ((s.put SEC.BOOT_STAT_CODE 0).put SEC.BOOT_STAT_SRC src).put SEC.BOOT_STAT_ROM_KEY (fieldB h 8 1)
  let s := (s.put SEC.BOOT_STAT_FW_SVN (fieldB h 9 1)).put SYS.REV_FW (fieldB h 10 2)
  let s := s.dawnTest b.pllOk State.dawnClocks
  let s := s.dawnTest b.dramOk (fun s => (s.set1 (DRAM.STAT_TRAINED 0)).set1 (DRAM.STAT_TRAINED 1))
  let s := s.dawnStep State.dawnTiles
  let s := s.dawnTest b.spdOk id
  let s := b.slicesBad.foldl (fun s e => s.dawnStep (fun s => s.dawnSlice e.1 e.2.1 e.2.2)) s
  let s := s.dawnTest b.fsqOk id
  s.dawnStep (fun s => s.flashImage b.imgSigOk)

/-- The ageing log as the release finds it: a record put there from outside stands alone (R383). -/
def ageLogOf (b : BootInput) (l : List AgeRec) : List AgeRec :=
  match b.log with
  | none => l
  | some (seq, ofs, ra, rb, hours) => [{ seq := seq, hours := hours, ofs := ofs, ref := [ra, rb] }]

/-- PORST_N_RELEASE (R415, R421, R422, R438 to R440): TB_MONO counts from here. -/
def execPorstNRelease (_t : Nat) (b : BootInput) (s : State) : Out :=
  if s.released then .next s
  else
    let s := s.sc (fun x => { x with
      flash := programmed x.flash b.flash
      otp := b.otp.foldl (fun m e => otpBlow m (e.1 % 4096) e.2) x.otp })
    let s : State := { s with safety := { s.safety with released := true }, age := { s.age with log := ageLogOf b s.age.log } }
    .next (s.finish (
      let s := (s.sampleOtp b).put PM.DOM_ON_ON 0x2F700000
      let s := s.phyBanks
      if b.otpBad then s.plain 0x03F 3
      else
        let h := Mem.bytes s.sec.flash 0 256
        let code := if b.flashOk then s.fwCode h b.fwSigOk else 7
        if code = 0 then s.bootFrom b h 0 else s.bootFail b code))

/-- SEC.BOOT_CTRL.RECOVER set (R422): accepted while the device waits for a recovery image; `sigOk` is the signature
engine's verdict; none: REJECTED. -/
def State.recover (s : State) (sigOk : Bool) : Option State :=
  match s.sec.waits with
  | none => none
  | some b =>
    let h := Mem.bytes s.sec.recBuf 0 256
    let code := s.fwCode h sigOk
    some (if code = 0 then s.bootFrom b h 1 else s.bootFail b code)

end Sys2Proof.Machine
end

