-- ==== Sys2Proof/Machine/RegRead.lean ====
section
/-! DEFINITION. Reading the register space (R8, R11, R12, R109, R135, R282, R330 to R335, R440, R441): aliases, pending SH
values and the registers whose value is formed at the read. -/

namespace Sys2Proof.Machine

/-- Copies of configuration registers on a second page (R109, R135, R282): the address whose register they show. -/
def aliasOf (addr : Nat) : Nat :=
  let page := addr / 4096
  let ofs := addr % 4096
  if page = 0x021 && (ofs = 0x040 || ofs = 0x044 || ofs = 0x048 || ofs = 0x04C || ofs = 0x0A0 || ofs = 0x0A4) then 0x020000 + ofs
  else if page = 0x023 && (ofs = 0x040 || ofs = 0x04C || ofs = 0x050 || ofs = 0x054 || ofs = 0x058 ||
      (0x060 ≤ ofs && ofs < 0x0C0 && (ofs % 0x20 = 0 || ofs % 0x20 = 4 || ofs % 0x20 = 8)) || (0x100 ≤ ofs && ofs < 0x180)) then
    0x022000 + ofs
  else if page = 0x02B && 0x040 ≤ ofs then 0x02A000 + ofs
  else addr

/-- The power domain of a page that can be off (R440); none: always on, or a head port's page, whose registers do not stand in
its PHY bank (assumption 36). -/
def pageDomain (page : Nat) : Option Nat :=
  if 0x100 ≤ page then some (5 * ((page - 0x100) / 20) + (page - 0x100) % 20 / 5)
  else if page = 0x020 || page = 0x022 then some 21
  else if page = 0x021 || page = 0x023 then some 26
  else if page = 0x028 || page = 0x02A || page = 0x030 then some 22
  else if page = 0x029 || page = 0x02B || page = 0x031 then some 27
  else none

/-- The power domain of a page is off (R315, R441). -/
def State.pageOff (s : State) (page : Nat) : Bool :=
  match pageDomain page with
  | none => false
  | some d => !bitOf (s.get PM.DOM_ON_ON) d

/-- The block of a page counts as running for IW writes (R16, R61, R75, R108, R109, R135, R215, R270, R304, R333, R361, R389,
R411). -/
def State.blockRuns (s : State) (page : Nat) : Bool :=
  let active := !(s.dev = dsDawn || s.dev = dsReady)
  match blockCode page with
  | 0x02 => active
  | 0x03 => s.on (AT.CTRL_EN (page - 0x002))
  | 0x04 => s.on (HP.CTRL_EN (page - 0x010))
  | 0x05 => s.on (HS.CTRL_EN (page - 0x018))
  | 0x06 => s.on PLK.CTRL_EN
  | 0x07 => active
  | 0x08 => active
  | 0x0A => s.get (MAP.STAT_EMPTY 0) ≠ 0xFFFF
  | 0x0D => s.dev ≠ dsReady
  | 0x10 => active
  | 0x14 => s.on OUT.CTRL_EN
  | 0x20 => active
  | _ => false

/-- The lease that remains, in ms. -/
def State.leaseMs (s : State) : Nat := if s.own.owner.isSome then (s.own.leaseEnd - s.mono) / tickMs else 0

/-- SYS.OWN (R335). -/
def State.ownWord (s : State) : Nat :=
  let o := s.own
  let st : Nat := if o.owner.isSome then (if o.offer.isSome then 3 else 1) else if o.window.isSome then 2 else 0
  let m : Nat := (o.owner.getD 0) * 4 + (if o.owner.isSome then o.prio else 0) * 16
  st + m + ((o.offer.map Prod.fst).getD 0) * 2 ^ 8 + s.leaseMs * 2 ^ 16

/-- The word of a fault-log entry (R345). -/
def FaultEntry.word (e : FaultEntry) (j : Nat) : Nat :=
  match j with
  | 0 => e.w0
  | 1 => e.w1
  | 2 => e.tNs % 2 ^ 32
  | _ => e.tNs / 2 ^ 32

/-- A restart of the last second shown in SI.STAT.RST_WIN, and HANDLING (R347, R348, R361). -/
def State.siStat (s : State) : Nat :=
  withBits (withBits (s.reg SI.STAT.addr) 16 2 (min 3 s.recentRestarts.length)) 24 1 (b2n s.safety.handling)

/-- TMU.SNS_VEH_OFS (R61). -/
def State.snsVehOfs (s : State) : Nat := lowBits 32 (clampInt (-2147483647) 2147483647 ((s.veh - s.sns) / 16))

/-- The signature engine is at work: a report, an image or a head's answer (R413, R431). -/
def State.engineBusy (s : State) : Bool :=
  s.on SEC.ATT_CTRL_BUSY || s.on SYS.IMG_STAT_BUSY || s.headCheck

/-- SEC.DBG (R431): the scopes unlocked, and the validity of the one that lasts longest. -/
def State.dbgWord (s : State) : Nat :=
  s.scopes + ((List.range 3).foldl (fun n i =>
    if s.scope i then max n ((s.sec.unlockEnd.getD i 0 - s.mono) / tickS) else n) 0) * 2 ^ 8

/-- The hot-row entry that TGE.HOT_IDX selects (R264, R283): the table holds the 1,024 most frequently sampled rows. -/
def State.hotWord (s : State) (u ofs : Nat) : Nat :=
  match ((s.tge u).hot.take 1024)[s.get (TGE.HOT_IDX_IDX u)]? with
  | none => 0
  | some (k, n) =>
    if ofs = 0x0A4 then k.row + k.level * 2 ^ 22 + k.slot * 2 ^ 26 + k.table * 2 ^ 27 + 2 ^ 31 else satU 32 n

/-- MS.STAT (R387): a commit waits while MAP.COMMIT asks for one, an injection runs until its wedge closes, and the patrol scrub wherever
it is allowed (DEDUCED, assumption 118). -/
def State.msWord (s : State) : Nat :=
  Nat.lor (s.reg MS.STAT.addr)
    (2 ^ 5 * b2n s.age.goldT0.isSome + 2 ^ 11 * b2n (s.msAllowed 11) + 2 ^ 16 * b2n (decide (s.get (MAP.COMMIT_LEVELS 0) ≠ 0)))

/-- The word that a register holds: a key register's stands outside the page, where it reads 0 (R310, R315). -/
def State.heldWord (s : State) (addr : Nat) : Nat :=
  let page := addr / 4096
  let ofs := addr % 4096
  if (page = 0x018 || page = 0x019) && 0x080 ≤ ofs && ofs < 0x0A0 then
    ((s.hosts.getD (page - 0x018) {}).key).getD ((ofs - 0x080) / 4) 0
  else s.reg addr

/-- The value that a read of the register at a page offset shows where it is formed at the read: mirrors, times, windows. -/
def State.formed (s : State) (page ofs : Nat) : Option Nat :=
  if ofs = 0x00C then
    some (s.get (PG.STAT_WREJ page) + 2 * b2n (s.shadow.any (fun e => e.1 / 4096 = page)) + 4 * b2n (s.blockRuns page) +
      8 * s.get (PG.FAULT_VALID page))
  else if ofs = 0x010 then some (s.irqRaw page)
  else if ofs = 0x018 then some (s.irqOut page)
  else if page = 0x000 then (if ofs = 0x050 then some s.ownWord else none)
  else if page = 0x001 then
    (if ofs = 0x048 then
      some (withBits (withBits (s.reg TMU.STAT.addr) 4 2 s.snsTarget) 10 1 (b2n (!s.tracking (s.get TMU.REF_REF_HEAD))))
    else if ofs = 0x06C then some s.snsVehOfs else none)
  else if 0x002 ≤ page && page ≤ 0x009 then (if ofs = 0x070 then some (s.angle24 (page - 0x002)) else none)
  else if page = 0x018 || page = 0x019 then
    (if ofs = 0x044 then some (withBits (s.reg (HS.STAT (page - 0x018)).addr) 2 1 (s.get (HS.MACSEC_TX_AN (page - 0x018)))) else none)
  else if page = 0x028 || page = 0x029 then (if ofs = 0x0A4 || ofs = 0x0A8 then some (s.hotWord (page - 0x028) ofs) else none)
  else if page = 0x039 then
    (if ofs = 0x044 then some s.siStat
    else if 0x050 ≤ ofs && ofs < 0x060 then
      some (match s.safety.flog[s.get SI.FLOG_SEL_IDX]? with
        | none => 0
        | some e => e.word ((ofs - 0x050) / 4))
    else none)
  else if page = 0x03A then (if ofs = 0x048 then some s.msWord else none)
  else if page = 0x03C then (if ofs = 0x070 then some s.hours else none)
  else if page = 0x03F then
    (if ofs = 0x048 then some (withBits (s.reg SEC.STAT.addr) 0 1 (b2n s.engineBusy))
    else if 0x080 ≤ ofs && ofs < 0x0A0 then
      some (Mem.num s.sec.otp (0x40 + 0x30 * s.get SEC.KEY_RD_SLOT + (ofs - 0x080)) 4)
    else if ofs = 0x128 then some s.dbgWord
    else if 0x800 ≤ ofs then some (fieldB s.sec.att (2048 * s.get SEC.ATT_SEG_SEG + (ofs - 0x800)) 4)
    else none)
  else none

/-- What a read of the register at an address shows (R11, R12): a pending SH value before the one in effect. -/
def State.readReg (s : State) (addr : Nat) : Nat :=
  let a := aliasOf addr
  match s.formed (a / 4096) (a % 4096) with
  | some v => v
  | none =>
    match find a s.shadow with
    | some v => v.toNat
    | none => s.reg a

end Sys2Proof.Machine
end

