-- ==== Sys2Proof/Machine/RegWrite.lean ====
section
/-! DEFINITION. Writing the register space: field types, ranges, what a write starts, and a master's write (R11 to R16, R49,
R55, R215, R269, R310, R311, R315, R320, R331 to R335). -/

namespace Sys2Proof.Machine

/-! ### Statuses of an access (R315) -/

abbrev stOk : Nat := 0
abbrev stNotOwner : Nat := 1
abbrev stReadOnly : Nat := 2
abbrev stUnmapped : Nat := 3
abbrev stRejected : Nat := 4
abbrev stAlign : Nat := 5
abbrev stBadOp : Nat := 6
abbrev stPoweredOff : Nat := 7

/-- The register row of an address with a value in effect; none for an unmapped address. -/
def regRow (addr : Nat) : Option RegDef := (regDef addr).map Prod.snd

/-- `cur` with the bits of `m` taken from `new`. -/
def mixBits (cur new m : BitVec 32) : BitVec 32 := (cur &&& ~~~m) ||| (new &&& m)

/-- Written values brought into their fields' stated ranges (R51, R75, R109, R135, R167, R215, R304, R305, R387 to R390, R411,
R451). -/
def clampWord (addr v : Nat) : Nat :=
  match blockOf (addr / 4096) with
  | none => v
  | some b => (ranges.filter (fun r => r.block = b.page && r.ofs = (if b.page = 0x022 && 0x060 ≤ addr % 4096 && addr % 4096 < 0x0C0
      then 0x060 + addr % 4096 % 0x20 else addr % 4096))).foldl
    (fun v r => withBits v r.lo r.w (clampNat r.min r.max (bitsOf v r.lo r.w))) v

/-! ### Counters cleared by CNT_CLR -/

/-- The page offsets that a block's CNT_CLR clears to 0, by block code, and the offset of CNT_CLR. -/
def cntClr (code : Nat) : Option (Nat × List Nat) :=
  let run (a n : Nat) : List Nat := (List.range n).map (fun i => a + 4 * i)
  (find code [
    (0x01, (0x088, run 0x070 6)),
    (0x04, (0x08C, run 0x200 11)),
    (0x05, (0x0B4, run 0x0A4 4)),
    (0x06, (0x0B0, run 0x080 12)),
    (0x07, (0x094, run 0x088 3)),
    (0x08, (0x0F4, run 0x0C8 10)),
    (0x09, (0x084, run 0x050 13)),
    (0x0A, (0x098, run 0x090 2)),
    (0x0B, (0x068, run 0x05C 3)),
    (0x0C, (0x0CC, run 0x05C 2 ++ run 0x080 16 ++ run 0x0C0 3)),
    (0x0D, (0x090, [0x064, 0x078] ++ run 0x080 4)),
    (0x0E, (0x0B0, run 0x080 12)),
    (0x0F, (0x09C, run 0x080 7)),
    (0x10, (0x0B0, [0x08C])),
    (0x11, (0x080, run 0x078 2)),
    (0x12, (0x054, [0x050])),
    (0x13, (0x138, run 0x130 2)),
    (0x14, (0x0A4, run 0x080 9 ++ [0x0A8])),
    (0x20, (0x080, run 0x068 4 ++ run 0x228 5 ++ [0x314, 0x334, 0x354, 0x374, 0x318, 0x338, 0x358, 0x378]))])

/-- A page's counters cleared, with what else its CNT_CLR clears (R167, R193, R215, R216, R305, R361, R109). -/
def State.clearCounters (s : State) (page : Nat) : State :=
  match cntClr (blockCode page) with
  | none => s
  | some (_, l) =>
    let s := l.foldl (fun s o => s.setReg (page * 4096 + o) 0) s
    if 0x100 ≤ page then
      let g := page - 0x100
      [TILE.SPD_CONF_INFO_VALID g, TILE.SPD_ECC_INFO_VALID g, TILE.SPD_TAG_INFO_VALID g, TILE.SPD_WIN_INFO_VALID g].foldl
        (fun s f => s.put f 0) s
    else if page = 0x039 then s.put SI.STAT_MAXSEV 0
    else if page = 0x020 || page = 0x021 then s.put (ING.SHED_STAT_MAX (page - 0x020)) 0
    else s

/-! ### What a write starts -/

/-- PG_COMMIT.COMMIT set (R13); none: REJECTED. -/
def State.pgCommit (s : State) (page : Nat) : Option State :=
  if s.noWedge then some (s.commitShadow (fun a => a / 4096 = page)).masksChanged else none

/-- HS.KEY_CTRL.LOAD set (R310): the key words become the key of the selected SA. SA 6 and 7 stand for none. -/
def State.keyLoad (s : State) (p : Nat) : State :=
  let k := (s.host p).key
  s.setHost p (fun x => { x with sas := x.sas.modify (s.get (HS.KEY_SEL_SA p)) (fun _ => { key := some k }),
                                 key := List.replicate 8 0 })

/-- Whether a host-port register is locked (R311): TX_AN alone of HS.MACSEC stays writable. -/
def State.macLocked (s : State) (p ofs : Nat) (data mask : BitVec 32) : Bool :=
  s.on (HS.MACSEC_LOCK p) &&
    ((ofs = 0x060 && ((data ^^^ BitVec.ofNat 32 (s.reg (HS.MACSEC p).addr)) &&& mask &&& 0xFFFF0003#32 ≠ 0#32))
      || (0x064 ≤ ofs && ofs < 0x0A0))

/-- HS.MACSEC written: EN set takes effect after the response to the frame that carried it (R309). -/
def State.macsecWritten (s : State) (p : Nat) (new : Nat) (lock : Bool) : State :=
  let s := s.setReg (HS.MACSEC p).addr new
  let s := s.set1If lock (HS.MACSEC_LOCK p)
  if !s.on (HS.MACSEC_EN p) then (s.put (HS.STAT_PROTECT p) 0).setHost p (fun x => { x with enAfter := false })
  else if s.on (HS.STAT_PROTECT p) then s
  else s.setHost p (fun x => { x with enAfter := true })

/-- The frame that set MACSEC.EN has been answered: MACsec is in force (R309). -/
def State.secAfter (s : State) : State :=
  [0, 1].foldl (fun s p =>
    if (s.host p).enAfter then (s.set1 (HS.STAT_PROTECT p)).setHost p (fun x => { x with enAfter := false }) else s) s

/-- HP.CTRL written (R76, R84, R108). -/
def State.hpCtrl (s : State) (h : Fin 8) (addr new : Nat) : State :=
  (s.setReg addr (withBits new 0 1 (s.get (HP.CTRL_EN h)))).headEnable h (bitOf new 0)

/-- PLK.CTRL written (R397, R411). -/
def State.plkCtrl (s : State) (addr new : Nat) : State :=
  (s.setReg addr (withBits new 0 1 (s.get PLK.CTRL_EN))).linkEnable (bitOf new 0)

/-- OUT.CTRL written (R296, R304): EN set starts the resolution of both destinations. -/
def State.outCtrl (s : State) (addr new : Nat) : State :=
  let was := s.on OUT.CTRL_EN
  let s := s.setReg addr new
  if bitOf new 0 && !was then (s.arpStart 0).arpStart 1 else s

/-- SEC.BOOT_CTRL written (R422): `sig` is the signature engine's verdict where the command brings one, else a free value
(assumption 4). -/
def State.bootCtrl (s : State) (sets : Nat) (sig : Option Bool) : Option State :=
  let (v, s) := match sig with
    | some b => (b, s)
    | none => let (r, s) := s.random; (r % 2 = 1, s)
  let s := if bitOf sets 0 then s.recover v else some s
  if bitOf sets 1 then s.bind State.flashWr else s

/-- The effect of a write on a register of the common page header: `old` and `new` are its word before and after the field
types have acted, `sets` the W1S bits set. -/
def State.headerWrite (s : State) (page ofs old new sets : Nat) : Option State :=
  let addr := page * 4096 + ofs
  if ofs = 0x01C then some (s.setReg addr (if bitOf old 2 && !bitOf new 2 then 0 else new))
  else if ofs = 0x020 then
    let s := s.setReg addr new
    if bitOf sets 8 then s.fireInj page else some s
  else if ofs = 0x024 then (if bitOf sets 0 then s.pgCommit page else some s)
  else some (s.setReg addr new)

/-- MAP.COMMIT.LEVELS bits set (R269, R13); a running migration defers the switch. -/
def State.mapCommit (s : State) (levels : Nat) : State :=
  let old := s.reg (MAP.COMMIT 0).addr
  let s := s.set1If (decide (levels ≠ 0) && s.migrating) (MAP.EVT_COMMIT_WAIT 0)
  ((s.setReg (MAP.COMMIT 0).addr (Nat.lor old levels)).actNow).noteAgain (MAP.COMMIT_LEVELS 0) (Nat.land old levels)

/-- TMU.PPS_OUT written (R52): another base meets its whole seconds anew; off, the pin is low. -/
def State.ppsOutWritten (s : State) (addr old new : Nat) : State :=
  let s := s.setReg addr new
  let s := if old % 4 = new % 4 then s else s.tm (fun x => { x with ppsLast := none })
  if new % 4 = 0 then { s.tm (fun x => { x with ppsHigh := none }) with pins := { s.pins with ppsOut := false } } else s

/-- The effect of a write on a block register; none: REJECTED. A write of 1 to IMU_CFG.EN that finds it 1 starts nothing (DESIGN
CHOICE, assumption 103). -/
def State.blockWrite (s : State) (page ofs old new sets : Nat) (sig : Option Bool) : Option State :=
  let addr := page * 4096 + ofs
  let plain := s.setReg addr new
  if (cntClr (blockCode page)).map Prod.fst = some ofs then some (if bitOf sets 0 then s.clearCounters page else s)
  else if page = 0x000 then
    (if ofs = 0x04C then s.sysCmd (new % 8)
    else if ofs = 0x058 then (if bitOf sets 0 then s.verify else some s)
    else some plain)
  else if page = 0x001 then
    (if ofs = 0x064 then some (if bitOf sets 0 then s.stepAccept else s)
    else if ofs = 0x080 then some (if bitOf sets 0 then s.snapshotGo else s)
    else if ofs = 0x068 then some plain.slewWritten
    else if ofs = 0x070 then some (s.ppsOutWritten addr old new)
    else some plain)
  else if page ≤ 0x009 then
    (if ofs = 0x040 then some (s.trackerEnable (page - 0x002) (bitOf new 0)) else some plain)
  else if page ≤ 0x017 then
    let h : Fin 8 := Fin.ofNat 8 (page - 0x010)
    (if ofs = 0x040 then some (s.hpCtrl h addr new)
    else if ofs = 0x080 then some (if bitOf sets 0 then plain.rechal h else plain)
    else some plain)
  else if page ≤ 0x019 then
    let p : Fin 2 := Fin.ofNat 2 (page - 0x018)
    (if ofs = 0x040 then some (if bitOf new 0 then plain else plain.hostDown p)
    else if ofs = 0x060 then some (s.macsecWritten p new (bitOf sets 2))
    else if ofs = 0x078 then some (if bitOf sets 0 then s.keyLoad p else s)
    else if 0x080 ≤ ofs && ofs < 0x0A0 then some (s.setHost p (fun x => { x with key := x.key.set ((ofs - 0x080) / 4) new }))
    else some plain)
  else if page = 0x01A then
    (if ofs = 0x040 then some (s.plkCtrl addr new)
    else if ofs = 0x050 then some (if bitOf sets 24 then plain.pulse else plain)
    else some plain)
  else if page = 0x020 && ofs = 0x0A0 then some (if bitOf new 0 && !bitOf old 0 then plain.imuEnabled else plain)
  else if page = 0x022 && ofs = 0x04C then some ((plain.vhuOcc 0).vhuOcc 1)
  else if page = 0x02A && ofs = 0x044 then some (s.mapCommit sets)
  else if page = 0x039 then
    (if ofs = 0x040 then some plain.faultN
    else if ofs = 0x04C then some (if bitOf sets 0 then s.flogPop else s)
    else some plain)
  else if page = 0x03F then
    (if ofs = 0x044 then s.bootCtrl sets sig
    else if ofs = 0x058 then (if sets % 8 = 0 then some plain else plain.otpCmd (sets % 8))
    else if ofs = 0x120 then (if bitOf sets 0 then s.attGo else some s)
    else some plain)
  else if page = 0x040 then
    (if ofs = 0x040 then some (s.outCtrl addr new)
    else if ofs = 0x050 then some (plain.dstWritten 0)
    else if ofs = 0x058 then some (plain.dstWritten 1)
    else some plain)
  else some plain

/-- A rejected write: PG_STAT.WREJ of the page is set (R315). -/
def State.reject (s : State) (page : Nat) : Nat × State := (stRejected, s.set1 (PG.STAT_WREJ page))

/-- Registers writable in Hold (R334). -/
def holdWritable (addr : Nat) : Bool :=
  addr / 4096 = 0x000 || addr / 4096 = 0x018 || addr / 4096 = 0x019 || addr = SI.FLOG_SEL.addr || addr = SI.FLOG_POP.addr ||
    addr = SI.EVT.addr || addr = SI.CNT_CLR.addr

/-- The owner's write of `data` under `mask` to the register at an aligned address: its status and the state after (R11 to R18,
R311, R315, R334). -/
def State.writeReg (s : State) (addr : Nat) (data mask : BitVec 32) (sig : Option Bool) : Nat × State :=
  let page := addr / 4096
  let ofs := addr % 4096
  match regRow addr with
  | none => if s.dev = dsHold && !holdWritable addr then (stRejected, s) else (stUnmapped, s)
  | some d =>
    let rw := BitVec.ofNat 32 (d.rw ||| d.iw)
    let w1c := BitVec.ofNat 32 d.w1c
    let w1s := BitVec.ofNat 32 d.w1s
    let sh := BitVec.ofNat 32 d.sh
    if s.dev = dsHold && !holdWritable addr then (if s.pageOff page then (stRejected, s) else s.reject page)
    else if s.pageOff page then (stPoweredOff, s)
    else if aliasOf addr ≠ addr || rw ||| w1c ||| w1s ||| sh = 0#32 then (stReadOnly, s)
    else if (page = 0x018 || page = 0x019) && s.macLocked (page - 0x018) ofs data mask then s.reject page
    else if d.sh ≠ 0 then
      let v := clampWord addr (mixBits (BitVec.ofNat 32 (s.readReg addr)) data (mask &&& sh)).toNat
      (stOk, { s with shadow := ins addr (BitVec.ofNat 32 v) s.shadow })
    else
      let old := BitVec.ofNat 32 (s.heldWord addr)
      let new := BitVec.ofNat 32 (clampWord addr (mixBits old data (mask &&& rw)).toNat)
      let iw := BitVec.ofNat 32 d.iw
      if s.blockRuns page && (old ^^^ new) &&& iw ≠ 0#32 then s.reject page
      else
        -- what the hardware does in the same cycle stands: it loads the register after the write (R18), bits it has set stay (R17)
        let new := (find addr s.cyc.loads).getD new
        let new := new &&& ~~~(data &&& mask &&& w1c &&& ~~~((find addr s.cyc.sets).getD 0#32))
        let sets := (data &&& mask &&& w1s).toNat
        let r := if ofs < 0x040 then s.headerWrite page ofs old.toNat new.toNat sets
          else s.blockWrite page ofs old.toNat new.toNat sets sig
        match r with
        | none => s.reject page
        | some s => (stOk, s)

/-! ### Masters (R320, R323) -/

/-- Master `m` owns the device now: a lease that has run out does not count (R323). -/
def State.owns (s : State) (m : Nat) : Bool := s.own.owner = some m && decide (s.mono < s.own.leaseEnd)

/-- Ownership changed. -/
def State.ow (s : State) (f : OwnSt → OwnSt) : State := { s with own := f s.own }

/-- The lease of 200 ms from now (R323). -/
def State.renewLease (s : State) : State := s.ow (fun o => { o with leaseEnd := s.mono + 200 * tickMs })

/-- A write by master `m` (R315, R320): its status and the state after. -/
def State.tryWrite (s : State) (m addr : Nat) (data mask : BitVec 32) (sig : Option Bool) : Nat × State :=
  if !s.owns m then (stNotOwner, s.bump SYS.NOT_OWNER_CNT) else s.writeReg addr data mask sig

/-- A write that a command names: the only entry of an accepted frame of a host client, or the monitor's (assumption 37). -/
def State.masterWrite (s : State) (m : Master) (addr : Nat) (data mask : BitVec 32) (sig : Option Bool := none) : State :=
  let s := if m ≠ .monitor && s.owns m.num then s.renewLease else s
  (s.tryWrite m.num addr data mask sig).2.secAfter

end Sys2Proof.Machine
end

