-- ==== Sys2Proof/Machine/Own.lean ====
section
/-! DEFINITION. Ownership of the device: claims, the election, the lease, handover, and the notifications to host clients (R320
to R325, R329). -/

namespace Sys2Proof.Machine

/-! ### Frame and entry statuses, frame types (R314, R318) -/

abbrev frOk : Nat := 0x00
abbrev frBadFormat : Nat := 0x01
abbrev frBadVersion : Nat := 0x02
abbrev frNotOwner : Nat := 0x03
abbrev frOwned : Nat := 0x04
abbrev frLost : Nat := 0x05
abbrev frDenied : Nat := 0x06
abbrev frBusy : Nat := 0x08
abbrev frRejected : Nat := 0x09
abbrev frRange : Nat := 0x0A

/-- The 16-byte ERAP header (R313). -/
def erapHead (type seq token client count status : Nat) : Bytes :=
  leBytes 2 0x4552 ++ leBytes 1 1 ++ leBytes 1 type ++ leBytes 4 seq ++ leBytes 4 token ++ leBytes 1 client ++ leBytes 1 count ++
    leBytes 1 status ++ [0]

/-- A response to a request (R313): header with bit 7 of TYPE set, and its body. -/
def ErapFrame.respond (f : ErapFrame) (status token : Nat) (body : Bytes) : Bytes :=
  erapHead (f.type % 128 + 128) f.seq token f.client f.count status ++ body

/-- A UDP payload sent to where a frame came from (R306, R313): at once where the port is free and nothing goes before it, else it waits
(R307); nothing while the port's link is down. -/
def State.erapTx (s : State) (f : ErapFrame) (b : Bytes) : State :=
  let p : Fin 2 := Fin.ofNat 2 f.port
  let x : TxWait := { mac := f.srcMac, ip := f.srcIp, dst := f.srcUdp, src := s.get (HS.ERAP_UDP_PORT p), plain := !s.secOn p, body := b }
  if !s.on (HS.STAT_LINK p) then s
  else
    let first := s.portBar p = 0 && s.on OUT.CTRL_EN && s.dev ≠ dsHold && s.colReady p
    if decide ((s.host p).busyUntil ≤ s.mono) && (s.host p).txQ.isEmpty && !first then s.udpTx p x.plain x.mac x.ip x.dst x.src x.body
    else s.setHost p (fun h => { h with txQ := h.txQ ++ [x] })

/-! ### Ownership -/

/-- The monitor may own the device (R321, R424, R429). -/
def State.monMay (s : State) : Bool := s.openLife || s.scope 0

/-- No owner any more. -/
def State.ownerGone (s : State) : State := s.ow (fun o => { o with owner := none, token := 0, prio := 0, leaseEnd := 0, offer := none })

/-- The lease has run out (R323): no owner, OWNER_LOST and a C0 entry; nothing else changes. -/
def State.leaseEnds (s : State) : State :=
  if s.own.owner.isSome && decide (s.own.leaseEnd ≤ s.mono) then s.ownerGone.raise SYS.EVT_OWNER_LOST 0 else s

/-- An offer of handover that has lapsed (R324). -/
def State.offerLapses (s : State) : State :=
  match s.own.offer with
  | none => s
  | some (_, e) => if e ≤ s.mono then s.ow (fun o => { o with offer := none }) else s

/-- A new token: a non-zero random u32 (R322). -/
def State.newToken (s : State) : Nat × State :=
  let (r, s) := s.random
  (r % (2 ^ 32 - 1) + 1, s)

/-- Ownership granted to `m` with a new token; the lease starts at `from_` (R322 to R324). -/
def State.grant (s : State) (m prio from_ : Nat) : State :=
  let (t, s) := s.newToken
  s.ow (fun o => { o with owner := some m, token := t, prio := prio, leaseEnd := from_ + 200 * tickMs, offer := none })

/-- The body of a CLAIM response (R314): the owner's number and PRIO, and the lease remaining in ms. -/
def State.claimBody (s : State) : Bytes :=
  leBytes 1 (s.own.owner.getD 0) ++ leBytes 1 s.own.prio ++ [0, 0] ++ leBytes 4 s.leaseMs

/-- The claim that wins (R322 step 3): lowest PRIO, then lowest NONCE, then lowest master. -/
def winner : List Claim → Option Claim
  | [] => none
  | c :: cs =>
    match winner cs with
    | none => some c
    | some d =>
      if c.prio < d.prio || (c.prio = d.prio && (c.nonce < d.nonce || (c.nonce = d.nonce && c.m < d.m))) then some c else some d

/-- The response of the last executed frame of a master kept for replay (R317), where it still is that frame. -/
def State.keepResp (s : State) (f : ErapFrame) (b : Bytes) : State :=
  s.ow (fun o => { o with last := o.last.modify f.client (fun l => l.map (fun x => if x.seq = f.seq then { x with resp := some b } else x)) })

/-- A claimant answered: a host client by its held response, the monitor by a line of its own. -/
def State.claimAnswer (s : State) (c : Claim) (status token : Nat) (line : Bytes) : State :=
  match c.req with
  | some f =>
    let b := f.respond status token s.claimBody
    (s.keepResp f b).erapTx f b
  | none => s.emit (.uart line)

/-- The close of the election window (R322 steps 3 and 4); it waits while the random source is stopped (R414). `ok` and `lost`
are the monitor's answers. -/
def State.electionCloses (s : State) (ok lost : Bytes) : State :=
  match s.own.window with
  | none => s
  | some e =>
    if s.mono < e || !s.rngOk then s
    else
      let cs := s.own.claims
      let s := s.ow (fun o => { o with window := none, claims := [] })
      match winner cs with
      | none => s
      | some w =>
        let s := (s.grant w.m w.prio s.mono).set1 SYS.EVT_OWNER_GRANTED
        cs.foldl (fun s c => if c.m = w.m then s.claimAnswer c frOk s.own.token ok else s.claimAnswer c frLost 0 lost) s

/-- What a claim comes to at once (R321, R322, R324): granted or refused with its frame status, held for the election (none), or
waiting for the random source. -/
inductive ClaimRes where
  | answer (status token : Nat)
  | held
  | waits

/-- A claim of master `m` (R321, R322, R324); `at_` is the acceptance of its frame. -/
def State.claim (s : State) (c : Claim) (at_ : Nat) : ClaimRes × State :=
  let s := s.leaseEnds.offerLapses
  if c.m = 2 && !s.monMay then (.answer frDenied 0, s)
  else
    match s.own.owner with
    | some o =>
      if o = c.m then
        (.answer frOk s.own.token, s.ow (fun x => { x with prio := c.prio, leaseEnd := max x.leaseEnd (at_ + 200 * tickMs) }))
      else if s.own.offer.map Prod.fst = some c.m then
        if !s.rngOk then (.waits, s)
        else
          let s := (s.grant c.m c.prio at_).set1 SYS.EVT_HANDOVER
          (.answer frOk s.own.token, s)
      else (.answer frOwned 0, s.set1 SYS.EVT_CLAIM_REFUSED)
    | none =>
      (.held, s.ow (fun o => { o with
        window := o.window.orElse (fun _ => some (s.mono + 10 * tickMs))
        claims := o.claims.filter (fun x => x.m ≠ c.m) ++ [c] }))

/-- RELEASE (R324): ownership ends at once. -/
def State.release (s : State) : State := s.ownerGone.set1 SYS.EVT_RELEASED

/-- HANDOVER by the owner to `target` (R321, R324), with its frame status. -/
def State.handover (s : State) (target : Nat) : Nat × State :=
  if s.own.owner = some target then (frOk, s.ow (fun o => { o with offer := none }))
  else if target = 2 && !s.monMay then (frDenied, s)
  else (frOk, s.ow (fun o => { o with offer := some (target, s.mono + 50 * tickMs) }))

/-- HANDOVER_OFFER_LAPSE (R324). -/
def execHandoverOfferLapse (t : Nat) (s : State) : Out := run t State.offerLapses s

/-- LEASE_EXPIRY (R323). -/
def execLeaseExpiry (t : Nat) (s : State) : Out := run t State.leaseEnds s

/-! ### Notifications (R329) -/

/-- NOTIFY frame to host client `c`, to where its last accepted frame came from. -/
def State.sendNotify (s : State) (c : Nat) : State :=
  match s.own.acc.getD c none with
  | none => s
  | some l =>
    let pages := s.outPages
    let n := s.own.notifySeq.getD c 0
    let b := erapHead 0x08 n 0 c (min 64 pages.length) (b2n (64 < pages.length)) ++ (pages.take 64).flatMap (leBytes 2)
    (s.ow (fun o => { o with notifySeq := o.notifySeq.set c ((n + 1) % 2 ^ 32), notifyAt := o.notifyAt.set c (some s.mono),
                             notifyDue := o.notifyDue.set c false })).erapTx l b

/-- The holdoff of client `c` has passed, or none runs. -/
def State.holdoffOver (s : State) (c : Nat) : Bool :=
  match s.own.notifyAt.getD c none with
  | none => true
  | some a => decide (a + s.get SYS.NOTIFY_HOLDOFF_US * tickUs ≤ s.mono)

/-- NOTIFY: a page has raised notification and no holdoff runs. -/
def execNotify (t : Nat) (c : Fin 2) (s : State) : Out :=
  run t (fun s => s.when (s.own.notifyDue.getD c false && s.holdoffOver c) (fun s => s.sendNotify c)) s

/-- HOLDOFF_EXPIRY: what raised notification during the holdoff is reported at its end. -/
def execHoldoffExpiry (t : Nat) (c : Fin 2) (s : State) : Out :=
  run t (fun s => s.when (s.own.notifyDue.getD c false && (s.own.notifyAt.getD c none).isSome && s.holdoffOver c)
    (fun s => s.sendNotify c)) s

end Sys2Proof.Machine
end

