-- ==== Sys2Proof/Machine/Erap.lean ====
section
/-! DEFINITION. The Elvile Register Access Protocol: reception, queueing, checks, replay and execution of its frames, loading
included (R313 to R319, R326 to R328). -/

namespace Sys2Proof.Machine

/-! ### Checks of a frame (R313 to R315, R318, R326) -/

/-- Further fields of a LOAD body (R326). -/
def ErapFrame.loadDie (f : ErapFrame) : Nat := fieldB f.body 1 1
def ErapFrame.loadLen (f : ErapFrame) : Nat := fieldB f.body 2 2
def ErapFrame.loadOfs (f : ErapFrame) : Nat := fieldB f.body 4 4
def ErapFrame.loadData (f : ErapFrame) : Bytes := f.body.drop 16

/-- The body of a request fits its TYPE (R314, R315, R326). -/
def ErapFrame.bodyOk (f : ErapFrame) : Bool :=
  let b := f.body
  match f.type with
  | 1 => f.count ≤ 64 && b.length = 16 * f.count && (List.range f.count).all (fun i => fieldB b (16 * i + 2) 2 = 0)
  | 2 => f.count = 0 && b.length = 8 && fieldB b 0 1 ≤ 15 && fieldB b 1 3 = 0
  | 3 => f.count = 0 && b.isEmpty
  | 4 => f.count = 0 && b.isEmpty
  | 5 => f.count = 0 && b.length = 4 && fieldB b 0 1 ≤ 2 && fieldB b 1 3 = 0
  | 6 => f.count = 0 && 16 ≤ b.length && b.length = 16 + f.loadLen && f.loadLen % 8 = 0 && 8 ≤ f.loadLen && f.loadLen ≤ 1024 &&
      f.target ≤ 2 && f.loadDie ≤ (if f.target = 1 then 1 else 0) && fieldB b 11 5 = 0
  | _ => false

/-- The frame status of a frame that is not executed, 0 for one that is (R313, R318). -/
def ErapFrame.bad (f : ErapFrame) : Nat :=
  let p := f.payload
  let chanOk := match f.chan with
    | none => true
    | some c => f.client = c
  if p.length < 16 || fieldB p 0 2 ≠ 0x4552 || fieldB p 14 2 ≠ 0 || 1 < f.client || !chanOk then frBadFormat
  else if fieldB p 2 1 ≠ 1 then frBadVersion
  else if f.bodyOk then 0 else frBadFormat

/-- The stored response of a frame that repeats its master's last SEQ within 1 s (R317): none where it does not; none inside
where an election still holds the response. -/
def State.replayOf (s : State) (f : ErapFrame) : Option (Option Bytes) :=
  match s.own.last.getD f.client none with
  | none => none
  | some l => if l.seq = f.seq && f.arrived < l.at_ + tickS then some l.resp else none

/-- A frame accepted (R313, R329): where its client's NOTIFY frames go, and the address shown in SYS.CLIENT; a frame whose header or
body is bad is none of a client's. -/
def State.noteClient (s : State) (f : ErapFrame) : State :=
  if f.bad ≠ 0 then s
  else (s.put (SYS.CLIENT_ADDR f.client) f.srcIp).ow (fun o => { o with acc := o.acc.set f.client (some f) })

/-- Frames at the front of the queue that are not executed are answered and removed: bad ones and repeated ones. -/
def State.flushBad (s : State) : List ErapFrame → State
  | [] => { s with erapQ := [] }
  | f :: fs =>
    if f.bad ≠ 0 then
      let s := if f.bad = frBadFormat then (s.bump SYS.ERAP_BAD_CNT).set1 (HS.EVT_ERAP_BAD f.port) else s
      (s.erapTx f (f.respond f.bad 0 f.body)).flushBad fs
    else
      match s.replayOf f with
      | none => { s with erapQ := f :: fs }
      | some r =>
        let s := s.bump SYS.REPLAY_CNT
        (match r with
        | none => s
        | some b => s.erapTx f b).flushBad fs

/-- The queue brought to a frame that can be executed. -/
def State.erapNext (s : State) : State := s.flushBad s.erapQ

/-- A frame put into the order of acceptance (R316): HS0 first among frames of one instant. -/
def insFrame (f : ErapFrame) : List ErapFrame → List ErapFrame
  | [] => [f]
  | g :: gs => if f.arrived = g.arrived && decide (f.port < g.port) then f :: g :: gs else g :: insFrame f gs

/-- ERAP_FRAME (R307, R309, R313, R316, R319, R323): the frame is queued, up to 16 a port; one that carries the owner's valid
token renews the lease. -/
def execErapFrame (t : Nat) (p : Fin 2) (d : Datagram) (sec : SecInfo) (s : State) : Out :=
  run t (fun s => s.hostRx p sec (fun s => s.when (frameTaken d sec.protected_ && d.dstUdp = s.get (HS.ERAP_UDP_PORT p)) (fun s =>
    if 16 ≤ (s.erapQ.filter (fun f => f.port = p.val)).length then s.bump SYS.ERAP_DROP_CNT
    else
      let f : ErapFrame := {
        port := p, srcMac := d.srcMac, srcIp := d.srcIp, srcUdp := d.srcUdp, payload := d.payload, arrived := s.mono
        chan := if s.secOn p then s.rxChan p sec.sci else none, own := false }
      let mine := decide (16 ≤ d.payload.length) && s.owns f.client && f.token = s.own.token
      let s := (if mine then s.renewLease else s).noteClient f
      ({ s with erapQ := insFrame { f with own := mine } s.erapQ } : State).erapNext))) s

/-! ### Execution (R316, R317, R320, R323) -/

/-- The frame executes as the owner's. -/
def State.frameOwns (s : State) (f : ErapFrame) : Bool := f.own && s.own.owner = some f.client && f.token = s.own.token

/-- A frame taken for execution (R313, R317, R323): it is counted, a wrong token counted. -/
def State.taken (s : State) (f : ErapFrame) : State :=
  let s := ({ s with erapQ := s.erapQ.drop 1 } : State).bump SYS.ERAP_RX_CNT
  let s := s.ow (fun o => { o with last := o.last.set f.client (some { seq := f.seq, at_ := f.arrived, resp := none }) })
  let valid := f.token = 0 || (s.own.owner.isSome && f.token = s.own.token && (f.own || decide (f.arrived < s.own.leaseEnd)))
  if valid then s else s.bump SYS.TOKEN_CNT

/-- A frame answered: its response stored and sent, a MACsec enable it carried in force from then on (R309, R317). -/
def State.answer (s : State) (f : ErapFrame) (status token : Nat) (body : Bytes) : State :=
  let b := f.respond status token body
  (((s.keepResp f b).erapTx f b).secAfter).erapNext

/-- The front frame executed by `f` where it is of the row's kind; a front frame that is not executed is answered first. -/
def State.onFront (s : State) (kind : ErapFrame → Bool) (f : ErapFrame → State → State) : State :=
  let s := s.erapNext
  match s.erapQ with
  | [] => s
  | x :: _ => if kind x then f x s else s

/-! ### ACCESS (R315) -/

/-- What a read of an address shows, with its status. -/
def State.readAt (s : State) (addr : Nat) : Nat × Nat :=
  if (regRow addr).isNone then (stUnmapped, 0)
  else if s.pageOff (addr / 4096) then (stPoweredOff, 0)
  else (stOk, s.readReg addr)

/-- READ. -/
def State.entryRead (s : State) (addr : Nat) : Nat × Nat × State :=
  let (st, v) := s.readAt addr
  (st, v, s)

/-- WRITE and MASKED: status and the value read back; a non-owner's writes nothing (R315, R320). The entries of a frame do not fall in
one cycle: what an entry makes the hardware do, and the faults that it raises, are behind the next (R17, R344). -/
def State.entryWrite (s : State) (own : Bool) (addr data mask : Nat) : Nat × Nat × State :=
  let c := s.cyc
  let (st, s) := if own then s.writeReg addr (BitVec.ofNat 32 data) (BitVec.ofNat 32 mask) none else (stNotOwner, s.bump SYS.NOT_OWNER_CNT)
  let s := s.settle
  (st, (s.readAt addr).2, { s with cyc := { s.cyc with sets := c.sets, loads := c.loads }, safety := { s.safety with now := {} } })

/-- One entry of an ACCESS frame (R315): its response bytes and the state after. -/
def State.entry (s : State) (own : Bool) (e : Bytes) : Bytes × State :=
  let op := fieldB e 0 1
  let addr := fieldB e 4 4
  let data := fieldB e 8 4
  let (st, v, s) : Nat × Nat × State :=
    if addr % 4 ≠ 0 || 2 ^ 24 ≤ addr then (stAlign, data, s)
    else match op with
      | 1 => s.entryRead addr
      | 2 => s.entryWrite own addr data 0xFFFFFFFF
      | 3 => s.entryWrite own addr data (fieldB e 12 4)
      | _ => (stBadOp, data, s)
  (e.take 1 ++ leBytes 1 st ++ sliceB e 2 6 ++ leBytes 4 v ++ sliceB e 12 4, s)

/-- The entries of a frame in order (R316). -/
def State.entries (s : State) (own : Bool) (b : Bytes) : Nat → Bytes × State
  | 0 => ([], s)
  | n + 1 =>
    let (r, s) := s.entry own (b.take 16)
    let (rs, s) := s.entries own (b.drop 16) n
    (r ++ rs, s)

/-- ACCESS: the front frame's entries executed as one unit (R14, R315, R316). -/
def execAccess (t : Nat) (s : State) : Out :=
  run t (fun s => s.onFront (fun x => x.type = 1) (fun x s =>
    let s := s.taken x
    let (b, s) := s.entries (s.frameOwns x) x.body x.count
    s.answer x frOk 0 b)) s

/-! ### Ownership frames (R314, R322 to R324) -/

/-- CLAIM. A granted or refused claim is answered at once; one of an election at its close. -/
def execClaim (t : Nat) (s : State) : Out :=
  run t (fun s => s.onFront (fun x => x.type = 2) (fun x s =>
    let c : Claim := { m := x.client, prio := fieldB x.body 0 1, nonce := fieldB x.body 4 4, req := some x }
    match (s.claim c x.arrived).1 with
    | .waits => s
    | _ =>
      match (s.taken x).claim c x.arrived with
      | (.answer st tok, s) => s.answer x st tok s.claimBody
      | (_, s) => s.erapNext)) s

/-- ASCII text as bytes. -/
def ascii (t : String) : Bytes := t.toList.map (fun c => BitVec.ofNat 8 c.toNat)

/-- ELECTION_CLOSE (R322). -/
def execElectionClose (t : Nat) (s : State) : Out :=
  run t (fun s => s.electionCloses (ascii "OK\r\nmr> ") (ascii "ERR LOST\r\nmr> ")) s

/-- A frame that needs ownership executed: NOT_OWNER for any other master (R314, R318). -/
def State.owned (s : State) (x : ErapFrame) (f : State → Nat × State) : State :=
  let s := s.taken x
  if !s.frameOwns x then s.answer x frNotOwner 0 x.body
  else
    let (st, s) := f s
    s.answer x st 0 x.body

/-- RENEW (R323): the lease was renewed at the frame's acceptance. -/
def execRenew (t : Nat) (s : State) : Out :=
  run t (fun s => s.onFront (fun x => x.type = 3) (fun x s => s.owned x (fun s => (frOk, s)))) s

/-- RELEASE (R324). -/
def execRelease (t : Nat) (s : State) : Out :=
  run t (fun s => s.onFront (fun x => x.type = 4) (fun x s => s.owned x (fun s => (frOk, s.release)))) s

/-- HANDOVER (R324). -/
def execHandover (t : Nat) (s : State) : Out :=
  run t (fun s => s.onFront (fun x => x.type = 5) (fun x s => s.owned x (fun s => s.handover (fieldB x.body 0 1)))) s

/-! ### LOAD (R326 to R328) -/

/-- Bytes of the recovery buffer (R422). -/
abbrev recBufLen : Nat := 2 ^ 20

/-- Image data into the load buffer (R327). -/
def State.loadImg (s : State) (x : ErapFrame) : Nat × State :=
  if !(s.dev = dsDawn || s.dev = dsReady) then (frRejected, s)
  else if loadBufLen < x.loadOfs + x.loadLen then (frRange, s)
  else (frOk, { s with loadBuf := Mem.store s.loadBuf x.loadOfs x.loadData })

/-- Firmware into the recovery buffer (R327, R422). -/
def State.loadRec (s : State) (x : ErapFrame) : Nat × State :=
  if s.sec.waits.isNone then (frRejected, s)
  else if recBufLen < x.loadOfs + x.loadLen then (frRange, s)
  else (frOk, s.sc (fun r => { r with recBuf := Mem.store r.recBuf x.loadOfs x.loadData }))

/-- A row removed from a unit's bad-row list (R279). -/
def State.dropBadRow (s : State) (u : Nat) (k : RowKey) : State :=
  (List.range 16).foldl (fun s i =>
    if s.on (TGE.BADROW_KEY_VALID u i) && s.get (TGE.BADROW_KEY_LEVEL u i) = k.level && s.get (TGE.BADROW_KEY_SLOT u i) = k.slot &&
        s.get (TGE.BADROW_KEY_TABLE u i) = k.table && s.get (TGE.BADROW_ROW_ROW u i) = k.row then
      (s.setReg (TGE.BADROW_KEY u i).addr 0).setReg (TGE.BADROW_ROW u i).addr 0
    else s) s

/-- One map-load write: a stored row of ROWB bytes (R252, R328), where the map region admits P2 (R339). -/
def State.loadRow (s : State) (u : Nat) (k : RowKey) (b : Bytes) : State :=
  let pb := partB (s.lvlFp16 k.level) (partFeat s.get k.level)
  match s.rowAccess u k 2 true with
  | (false, s) => s
  | (true, s) => (((s.storePart (2 * u) k (b.take pb)).storePart (2 * u + 1) k (b.drop pb))).dropBadRow u k

/-- Map rows into a slot (R268, R328). -/
def State.loadRows (s : State) (x : ErapFrame) : Nat × State :=
  let u := x.loadDie
  let l := fieldB x.body 8 1
  let v := fieldB x.body 9 1
  let tb := fieldB x.body 10 1
  let rowB := 2 * partB (s.lvlFp16 l) (partFeat s.get l)
  let n := x.loadLen / rowB
  let exists_ := decide (l < 16) && decide (v < 2) && s.on (MAP.LVL_CFG_EN 0 l) && decide (tb < 1 + s.get (MAP.LVL_CFG_COMPOSE 0 l))
  if s.dev = dsHold then (frRejected, s)
  else if !exists_ || x.loadLen % rowB ≠ 0 || tableRows s.get l < x.loadOfs + n then (frRange, s)
  else if s.activeSlot l = v || bitOf (s.get (if v = 0 then MAP.BUSY_SLOT0 0 else MAP.BUSY_SLOT1 0)) l then
    (frBusy, s.set1 (MAP.EVT_SLOT_REJ 0))
  else
    (frOk, (List.range n).foldl (fun s i =>
      s.loadRow u { level := l, slot := v, table := tb, row := x.loadOfs + i } (sliceB x.loadData (rowB * i) rowB)) s)

/-- LOAD_IMAGE. -/
def execLoadImage (t : Nat) (s : State) : Out :=
  run t (fun s => s.onFront (fun x => x.type = 6 && x.target = 0) (fun x s => s.owned x (fun s => s.loadImg x))) s

/-- LOAD_MAP (R267, R328): its writes wait behind a running apply. -/
def execLoadMap (t : Nat) (s : State) : Out :=
  run t (fun s => s.onFront (fun x => x.type = 6 && x.target = 1) (fun x s =>
    if s.applying && s.frameOwns x then s else s.owned x (fun s => s.loadRows x))) s

/-- LOAD_RECOVERY. -/
def execLoadRecovery (t : Nat) (s : State) : Out :=
  run t (fun s => s.onFront (fun x => x.type = 6 && x.target = 2) (fun x s => s.owned x (fun s => s.loadRec x))) s

end Sys2Proof.Machine
end

