-- ==== Sys2Proof/Machine/Writes.lean ====
section
/-! DEFINITION. The rows of the table that are one register write of a master: each is that write, by the rules of every write
(R11 to R16, R315, R320, R334). -/

namespace Sys2Proof.Machine

/-- The address of a page's CNT_CLR; the page's first address where it has none, whose write is ignored. -/
def cntClrAddr (page : Nat) : Nat := page * 4096 + (((cntClr (blockCode page)).map Prod.fst).getD 0)

/-- STEP_ACCEPT (R49, R50). -/
def execStepAccept (t : Nat) (m : Master) (s : State) : Out :=
  run t (fun s => s.masterWrite m TMU.STEP_ACCEPT.addr 1 1) s

/-- SNAPSHOT_GO (R55). -/
def execSnapshotGo (t : Nat) (m : Master) (s : State) : Out :=
  run t (fun s => s.masterWrite m TMU.SNAP_CTRL.addr 1 1) s

/-- HEAD_PORT_ENABLE (R76, R84, R108). -/
def execHeadPortEnable (t : Nat) (m : Master) (h : Fin 8) (s : State) : Out :=
  run t (fun s => s.masterWrite m (HP.CTRL h).addr 1 1) s

/-- RECHAL (R90). -/
def execRechal (t : Nat) (m : Master) (h : Fin 8) (s : State) : Out :=
  run t (fun s => s.masterWrite m (HP.ID_CTRL h).addr 1 1) s

/-- MAP_COMMIT (R269). -/
def execMapCommit (t : Nat) (m : Master) (levels : BitVec 16) (s : State) : Out :=
  run t (fun s => s.masterWrite m (MAP.COMMIT 0).addr (levels.zeroExtend 32) 0xFFFF) s

/-- PG_COMMIT (R13). -/
def execPgCommit (t : Nat) (m : Master) (page : BitVec 12) (s : State) : Out :=
  run t (fun s => s.masterWrite m (page.toNat * 4096 + 0x024) 1 1) s

/-- COUNTER_CLEAR (R10): the page's CNT_CLR.CLR set. -/
def execCounterClear (t : Nat) (m : Master) (page : BitVec 12) (s : State) : Out :=
  run t (fun s => s.masterWrite m (cntClrAddr page.toNat) 1 1) s

/-- VERIFY (R327). -/
def execVerify (t : Nat) (m : Master) (s : State) : Out :=
  run t (fun s => s.masterWrite m SYS.IMG_CTRL.addr 1 1) s

/-- KEY_LOAD (R310). -/
def execKeyLoad (t : Nat) (m : Master) (p : Fin 2) (s : State) : Out :=
  run t (fun s => s.masterWrite m (HS.KEY_CTRL p).addr 1 1) s

/-- MACSEC_LOCK (R311). -/
def execMacsecLock (t : Nat) (m : Master) (p : Fin 2) (s : State) : Out :=
  run t (fun s => s.masterWrite m (HS.MACSEC p).addr 4 4) s

/-- MACSEC_ENABLE (R309). -/
def execMacsecEnable (t : Nat) (m : Master) (p : Fin 2) (s : State) : Out :=
  run t (fun s => s.masterWrite m (HS.MACSEC p).addr 1 1) s

/-- GO_NOON (R433, R434). -/
def execGoNoon (t : Nat) (m : Master) (s : State) : Out :=
  run t (fun s => s.masterWrite m SYS.CMD.addr 1 7) s

/-- GO_DUSK (R433, R435). -/
def execGoDusk (t : Nat) (m : Master) (s : State) : Out :=
  run t (fun s => s.masterWrite m SYS.CMD.addr 2 7) s

/-- GO_READY (R433, R436). -/
def execGoReady (t : Nat) (m : Master) (s : State) : Out :=
  run t (fun s => s.masterWrite m SYS.CMD.addr 3 7) s

/-- GO_HOLD (R352, R433). -/
def execGoHold (t : Nat) (m : Master) (s : State) : Out :=
  run t (fun s => s.masterWrite m SYS.CMD.addr 4 7) s

/-- FLOG_POP (R345). -/
def execFlogPop (t : Nat) (m : Master) (s : State) : Out :=
  run t (fun s => s.masterWrite m SI.FLOG_POP.addr 1 1) s

/-- FIRE (R356). -/
def execFire (t : Nat) (m : Master) (page : BitVec 12) (s : State) : Out :=
  run t (fun s => s.masterWrite m (page.toNat * 4096 + 0x020) 0x100 0x100) s

/-- PULSE (R409). -/
def execPulse (t : Nat) (m : Master) (s : State) : Out :=
  run t (fun s => s.masterWrite m PLK.RST.addr 0x1000000 0x1000000) s

/-- FLASH_WR (R422). -/
def execFlashWr (t : Nat) (m : Master) (s : State) : Out :=
  run t (fun s => s.masterWrite m SEC.BOOT_CTRL.addr 2 2) s

/-- PROG_KEY (R416, R417). -/
def execProgKey (t : Nat) (m : Master) (s : State) : Out :=
  run t (fun s => s.masterWrite m SEC.OTP_CMD.addr 1 7) s

/-- REVOKE (R416, R417). -/
def execRevoke (t : Nat) (m : Master) (s : State) : Out :=
  run t (fun s => s.masterWrite m SEC.OTP_CMD.addr 2 7) s

/-- ADV_ARB (R416, R418). -/
def execAdvArb (t : Nat) (m : Master) (s : State) : Out :=
  run t (fun s => s.masterWrite m SEC.OTP_CMD.addr 3 7) s

/-- ADV_LC (R416, R423). -/
def execAdvLc (t : Nat) (m : Master) (s : State) : Out :=
  run t (fun s => s.masterWrite m SEC.OTP_CMD.addr 4 7) s

/-- ATT_GO (R425). -/
def execAttGo (t : Nat) (m : Master) (s : State) : Out :=
  run t (fun s => s.masterWrite m SEC.ATT_CTRL.addr 1 1) s

/-- TRACKER_ENABLE (R65). -/
def execTrackerEnable (t : Nat) (m : Master) (h : Fin 8) (en : Bool) (s : State) : Out :=
  run t (fun s => s.masterWrite m (AT.CTRL h).addr (BitVec.ofNat 32 (b2n en)) 1) s

/-- PARTNER_LINK_ENABLE (R397). -/
def execPartnerLinkEnable (t : Nat) (m : Master) (en : Bool) (s : State) : Out :=
  run t (fun s => s.masterWrite m PLK.CTRL.addr (BitVec.ofNat 32 (b2n en)) 1) s

/-- IMU_ENABLE (R98). -/
def execImuEnable (t : Nat) (m : Master) (s : State) : Out :=
  run t (fun s => s.masterWrite m (ING.IMU_CFG 0).addr 1 1) s

/-- OUTPUT_ENABLE (R296, R304). -/
def execOutputEnable (t : Nat) (m : Master) (s : State) : Out :=
  run t (fun s => s.masterWrite m OUT.CTRL.addr 1 1) s

/-- RECOVER (R422): `sigOk` is the signature engine's verdict on the recovery buffer (assumption 4). -/
def execRecover (t : Nat) (m : Master) (sigOk : Bool) (s : State) : Out :=
  run t (fun s => s.masterWrite m SEC.BOOT_CTRL.addr 1 1 (some sigOk)) s

end Sys2Proof.Machine
end

