-- ==== Sys2Proof/Machine/Monitor.lean ====
section
/-! DEFINITION. The Miride monitor, debug-unlock tokens and JTAG debug access (R321, R426 to R430). -/

namespace Sys2Proof.Machine

/-! ### Lines of the monitor (R428, assumption 38) -/

/-- One hexadecimal digit. -/
def hexDigit (n : Nat) : Byte := if n % 16 < 10 then BitVec.ofNat 8 (48 + n % 16) else BitVec.ofNat 8 (55 + n % 16)

/-- `n` hexadecimal digits of a number. -/
def hexOf : Nat → Nat → Bytes
  | 0, _ => []
  | n + 1, x => hexOf n (x / 16) ++ [hexDigit x]

/-- Numbers of eight digits, each after a space. -/
def hexWords (l : List Nat) : Bytes := l.flatMap (fun x => ascii " " ++ hexOf 8 x)

/-- `OK`, its data, and the prompt. -/
def monOk (data : Bytes) : Bytes := ascii "OK" ++ data ++ ascii "\r\nmr> "

/-- `ERR`, a status name, and the prompt. -/
def monErr (name : String) : Bytes := ascii "ERR " ++ ascii name ++ ascii "\r\nmr> "

/-- The name of an entry status (R315). -/
def stName (st : Nat) : String :=
  match st with
  | 0 => "OK"
  | 1 => "NOT_OWNER"
  | 2 => "READ_ONLY"
  | 3 => "UNMAPPED"
  | 4 => "REJECTED"
  | 5 => "ALIGN"
  | 6 => "BAD_OP"
  | _ => "POWERED_OFF"

/-- The name of a frame status (R318). -/
def frName (st : Nat) : String :=
  match st with
  | 0x03 => "NOT_OWNER"
  | 0x04 => "OWNED"
  | 0x05 => "LOST"
  | 0x06 => "DENIED"
  | _ => "OK"

/-- The monitor runs on the Safety Island, until the Fault Sequencer acts (R355, R428). -/
def State.monRuns (s : State) : Bool := s.siRuns && !s.on SI.FSQ_ACTED

/-- A line received by the monitor: `f` gives its answer and the state after. -/
def monLine (t : Nat) (f : State → Bytes × State) (s : State) : Out :=
  run t (fun s => s.when s.monRuns (fun s =>
    let s := s.sc (fun x => { x with lineAt := s.mono })
    let (b, s) := f s
    s.emit (.uart b))) s

/-- A command that needs monitor write access (R429). -/
def State.monWrite (s : State) (f : State → Bytes × State) : Bytes × State := if s.monMay then f s else (monErr "DENIED", s)

/-! ### Commands that read (R429) -/

/-- `help`. -/
def execMonHelp (t : Nat) (s : State) : Out :=
  monLine t (fun s => (monOk (ascii " help id state rd flog claim release handover wr pop unlock tok lock baud"), s)) s

/-- `id`: SYS.ID, SYS.REV, lifecycle, serial number, device public key. -/
def execMonId (t : Nat) (s : State) : Out :=
  monLine t (fun s => (monOk (hexWords ([s.readReg SYS.ID.addr, s.readReg SYS.REV.addr, s.lifecycle] ++
    (List.range 4).map (fun j => s.get (SEC.SERIAL j)) ++ (List.range 8).map (fun j => s.get (SEC.DEV_PK j)))), s)) s

/-- `state`: SYS.STATE, SYS.OWN, SI.STAT, SEC.BOOT_STAT. -/
def execMonState (t : Nat) (s : State) : Out :=
  monLine t (fun s => (monOk (hexWords ([SYS.STATE, SYS.OWN, SI.STAT, SEC.BOOT_STAT].map (fun f => s.readReg f.addr))), s)) s

/-- A register address as R315 wants it. -/
def addrOk (a : Nat) : Bool := a % 4 = 0 && a < 2 ^ 24

/-- `rd ADDR [N]`: the values, or the status of the first register that has no OK. -/
def execMonRd (t addr n : Nat) (s : State) : Out :=
  monLine t (fun s =>
    if n = 0 || 64 < n then (monErr "SYNTAX", s)
    else
      let rs := (List.range n).map (fun i => if addrOk (addr + 4 * i) then s.readAt (addr + 4 * i) else (stAlign, 0))
      match rs.find? (fun r => r.1 ≠ stOk) with
      | some r => (monErr (stName r.1), s)
      | none => (monOk (hexWords (rs.map Prod.snd)), s)) s

/-- `flog`: the fault log, oldest entry first. -/
def execMonFlog (t : Nat) (s : State) : Out :=
  monLine t (fun s => (monOk (hexWords (s.safety.flog.flatMap (fun e => (List.range 4).map e.word))), s)) s

/-! ### Ownership and writes (R321, R322, R324, R429) -/

/-- A claim of the monitor; its NONCE is a free value (assumption 5). A claim of an election is answered at the window's close, one that
must wait for the random source when that passes again (R414). -/
def State.monClaim (s : State) (prio : Nat) : State :=
  let (n, s) := s.random
  match s.claim { m := 2, prio := prio, nonce := n, req := none } s.mono with
  | (.answer st _, s) => s.emit (.uart (if st = frOk then monOk [] else monErr (frName st)))
  | (.held, s) => s
  | (.waits, s) => s.sc (fun x => { x with monWait := x.monWait ++ [some prio] })

/-- `claim PRIO`. -/
def execMonClaim (t prio : Nat) (s : State) : Out :=
  run t (fun s => s.when s.monRuns (fun s =>
    let s := s.sc (fun x => { x with lineAt := s.mono })
    if !s.monMay then s.emit (.uart (monErr "DENIED"))
    else if 15 < prio then s.emit (.uart (monErr "SYNTAX"))
    else s.monClaim prio)) s

/-- `release`. -/
def execMonRelease (t : Nat) (s : State) : Out :=
  monLine t (fun s => s.monWrite (fun s => if s.owns 2 then (monOk [], s.release) else (monErr "NOT_OWNER", s))) s

/-- `handover M`. -/
def execMonHandover (t target : Nat) (s : State) : Out :=
  monLine t (fun s => s.monWrite (fun s =>
    if 2 < target then (monErr "SYNTAX", s)
    else if !s.owns 2 then (monErr "NOT_OWNER", s)
    else
      let (st, s) := s.handover target
      (if st = frOk then monOk [] else monErr (frName st), s))) s

/-- A write of the monitor, with its answer (R315, R320). -/
def State.monTryWrite (s : State) (addr : Nat) (data mask : BitVec 32) : Bytes × State :=
  if !addrOk addr then (monErr "ALIGN", s)
  else
    let (st, s) := s.tryWrite 2 addr data mask none
    let s := s.settle.secAfter
    (if st = stOk then monOk (hexWords [(s.readAt addr).2]) else monErr (stName st), s)

/-- `wr ADDR DATA [MASK]`. -/
def execMonWr (t addr : Nat) (data : Word) (mask : Option Word) (s : State) : Out :=
  monLine t (fun s => s.monWrite (fun s => s.monTryWrite addr data (mask.getD 0xFFFFFFFF#32))) s

/-- `pop`. -/
def execMonPop (t : Nat) (s : State) : Out :=
  monLine t (fun s => s.monWrite (fun s => s.monTryWrite SI.FLOG_POP.addr 1 1)) s

/-! ### Debug unlock (R426, R427) -/

/-- A fresh unlock nonce, printed with the device public key. -/
def State.monNonce (s : State) : State :=
  let (ws, s) := s.randoms 8
  let s := s.sc (fun x => { x with nonce := some (ws.flatMap (leBytes 4), s.mono) })
  s.emit (.uart (monOk (hexWords (ws ++ (List.range 8).map (fun j => s.get (SEC.DEV_PK j))))))

/-- `unlock`; it waits while the random source is stopped (R414). -/
def execMonUnlock (t : Nat) (s : State) : Out :=
  run t (fun s => s.when s.monRuns (fun s =>
    let s := s.sc (fun x => { x with lineAt := s.mono })
    if s.rngOk then s.monNonce else s.sc (fun x => { x with monWait := x.monWait ++ [none] }))) s

/-- RNG_PASS: the random source passes its health tests again (R414); the monitor's commands that have waited go on. -/
def execRngPass (t : Nat) (s : State) : Out :=
  run t (fun s =>
    let l := if s.monRuns then s.sec.monWait else []
    let s := s.sc (fun x => { x with rngBad := false, monWait := [] })
    l.foldl (fun s c => match c with
      | none => s.monNonce
      | some prio => s.monClaim prio) s) s

/-- `tok HEX`: up to 124 bytes appended. -/
def execMonTok (t : Nat) (hex : Bytes) (s : State) : Out :=
  monLine t (fun s => if 124 < hex.length then (monErr "SYNTAX", s) else (monOk [], s.sc (fun x => { x with tok := x.tok ++ hex }))) s

/-- The signer of a token may unlock (R417, R427): a usable customer slot with DEBUG_OK, or an Elvile key not revoked; only an
Elvile key in RETURNED or for scope RETURN. -/
def State.signerOk (s : State) (signer scope : Nat) : Bool :=
  if signer < 4 then
    s.slotUsable signer && bitOf (s.get (SEC.KEYSLOT_ATTR signer)) 1 && s.lifecycle ≠ lcReturned && !bitOf scope 2
  else signer < 6 && !bitOf (s.get SEC.BOOT_STAT_ROM_REV) (signer - 4)

/-- The token's nonce is the one last issued, within its 60 s (R427). -/
def State.nonceOk (s : State) (b : Bytes) : Bool :=
  match s.sec.nonce with
  | none => false
  | some (n, a) => sliceB b 40 32 = n && decide (s.mono < a + 60 * tickS)

/-- A token passes everything R426 and R427 ask of it but its signature. -/
def State.tokenOk (s : State) (b : Bytes) : Bool :=
  b.length = 7956 && fieldB b 0 4 = 0x55474244 && fieldB b 4 1 = 1 && fieldB b 5 1 < 8 && fieldB b 7 1 = 0 &&
    sliceB b 8 32 = (List.range 8).flatMap (fun j => leBytes 4 (s.get (SEC.DEV_PK j))) && s.nonceOk b &&
    1 ≤ fieldB b 72 4 && fieldB b 72 4 ≤ 86400 && fieldB b 76 24 = 0 && s.signerOk (fieldB b 6 1) (fieldB b 5 1)

/-- The scopes of an accepted token unlocked for its validity (R427). -/
def State.unlockScopes (s : State) (scope secs : Nat) : State :=
  let ends := (List.range 3).map (fun i =>
    if bitOf scope i then max (s.sec.unlockEnd.getD i 0) (s.mono + secs * tickS) else s.sec.unlockEnd.getD i 0)
  (s.put SEC.DBG_SCOPE (Nat.lor (s.get SEC.DBG_SCOPE) scope)).sc (fun x => { x with unlockEnd := ends })

/-- `tok end`: the token is checked; `sigOk` is the signature engine's verdict (assumption 4). None is checked within 10 s of a
rejection. -/
def execMonTokEnd (t : Nat) (sigOk : Bool) (s : State) : Out :=
  monLine t (fun s =>
    let b := s.sec.tok
    let s := s.sc (fun x => { x with tok := [] })
    let early := match s.sec.failAt with
      | none => false
      | some a => decide (s.mono < a + 10 * tickS)
    if early then (monErr "DENIED", s)
    else
      let ok := s.tokenOk b && sigOk
      let used := s.nonceOk b
      let s := s.sc (fun x => { x with nonce := if used then none else x.nonce })
      if ok then (monOk [], (s.unlockScopes (fieldB b 5 1) (fieldB b 72 4)).raise SEC.EVT_UNLOCK 0)
      else
        let s := s.sc (fun x => { x with failAt := some s.mono })
        (monErr "DENIED", (s.bump SEC.UNLOCK_FAIL_CNT).raise SEC.EVT_UNLOCK_FAIL 0)) s

/-- The monitor's session ended by a release (R429). -/
def State.monRelease (s : State) : State := if s.owns 2 then s.release else s

/-- `lock`: every unlocked scope ends, and with it the session where that takes the monitor's access away. -/
def execMonLock (t : Nat) (s : State) : Out :=
  monLine t (fun s =>
    let s := s.lockScopes
    (monOk [], if s.monMay then s else s.monRelease)) s

/-- The rates that `baud` selects (R428). -/
def baudRates : List Nat := [230400, 460800, 921600, 1000000, 2000000, 3000000]

/-- `baud RATE`: the new rate applies after the answer. -/
def execMonBaud (t rate : Nat) (s : State) : Out :=
  run t (fun s => s.when s.monRuns (fun s =>
    let s := s.sc (fun x => { x with lineAt := s.mono })
    if baudRates.contains rate then (s.emit (.uart (monOk []))).sc (fun x => { x with baud := rate })
    else s.emit (.uart (monErr "SYNTAX")))) s

/-- MONITOR_IDLE: no line for IDLE_S seconds. -/
def execMonitorIdle (t : Nat) (s : State) : Out :=
  run t (fun s => s.when (s.monRuns && s.owns 2 && decide (s.sec.lineAt + s.get SEC.MON_CFG_IDLE_S * tickS ≤ s.mono)) State.release) s

/-- MONITOR_LEASE_RENEW: every 50 ms while the monitor owns the device. -/
def execMonitorLeaseRenew (t : Nat) (s : State) : Out :=
  run t (fun s => s.when (s.monRuns && s.owns 2 && decide (s.own.leaseEnd ≤ s.mono + 150 * tickMs)) State.renewLease) s

/-! ### JTAG debug access (R430) -/

/-- A debug access: the register read is shifted out; it writes in MANUFACTURE and DEVELOPMENT only, whoever owns the device.
Where it is not available the TAP acts as in BYPASS. -/
def execJtagDebugAccess (t addr : Nat) (write : Option Word) (s : State) : Out :=
  if !(s.released && (s.at_ t).jtagOpen) then tap t (fun s => s.tapTo tapBypass) s
  else
    run t (fun s =>
      let s := s.tapTo tapDebug
      if !addrOk addr then s
      else match write with
        | none => s.emit (.tdo (s.readAt addr).2)
        | some w => if s.openLife then (s.writeReg addr w 0xFFFFFFFF#32 none).2.secAfter else s) s

end Sys2Proof.Machine
end

