-- ==== Sys2Proof/Machine/TimeCmds.lean ====
section
/-! DEFINITION. The commands of the time bases, PPS and gPTP (R41 to R62). -/

namespace Sys2Proof.Machine

/-- SYNC_RX (R45, R47 to R49, R57 to R59): on the selected host port, source time is the Sync's origin plus d_in. -/
def execSyncRx (t : Nat) (p : Fin 2) (y : SyncInfo) (s : State) : Out :=
  run t (fun s =>
    let q := Port.host p
    let s := s.rxCount q
    if !(y.usable && s.portUp q && y.domain = s.get TMU.GPTP_CFG_VEH_DOMAIN) then s
    else
      let intv := (16000000000 * (2 : Nat) ^ (y.logIntv + 16).toNat) / 2 ^ 16
      let hs0 := decide (s.mono < s.time.usable.getD 0 0)
      let s := s.tm (fun x => { x with usable := x.usable.set p.val (s.mono + 3 * intv) })
      let sel := s.get TMU.CTRL_VEH_PORT
      if !(sel = p.val + 1 || (sel = 0 && (p.val = 0 || !hs0))) then s
      else
        let rx := s.ingMdi q y.rxIntern
        let dIn := (s.get (TS.PDELAY_DELAY (portPage q)) : Int) - s.getI (TS.ASYM_ASYM (portPage q))
        let ofs := y.origin + dIn - s.time.veh.at_ rx
        let s := s.tm (fun x => { x with srcIntv := intv, lastSync := s.mono })
        s.measure ofs (y.gmId.toNat, p.val) intv) s

/-- HOLDOVER (R48). -/
def execHoldover (t : Nat) (s : State) : Out :=
  run t (fun s => s.when (s.follows && decide (s.time.lastSync + 3 * s.time.srcIntv ≤ s.mono)) State.holdover) s

/-- SYNC_TX (R42, R56, R58, R59): two-step Sync and Follow_Up; the correctionField carries TS_ASYM in 2^-16 ns. -/
def execSyncTx (t : Nat) (h : Fin 8) (s : State) : Out :=
  run t (fun s =>
    let q := Port.head h
    let due := match (s.gpOf q).syncAt with
      | none => true
      | some a => decide (a + s.snsIntv ≤ s.sns)
    s.when (s.portUp q && due) (fun s =>
      let n := ((s.gpOf q).syncSeq + 1) % 2 ^ 16
      let d := s.gptpDomain q
      ((s.gp q (fun g => { g with syncAt := some s.sns, syncSeq := n })).emit (gptpMsg q 0x0 d 0 n [])).emit
        (gptpMsg q 0x8 d (s.getI (TS.ASYM_ASYM (portPage q)) * 4096) n (timeValue (s.egrMdi q s.sns))))) s

/-- ANNOUNCE_TX (R56). -/
def execAnnounceTx (t : Nat) (h : Fin 8) (s : State) : Out :=
  run t (fun s =>
    let q := Port.head h
    let due := match (s.gpOf q).annAt with
      | none => true
      | some a => decide (a + tickS ≤ s.mono)
    s.when (s.portUp q && due) (fun s =>
      let n := ((s.gpOf q).annSeq + 1) % 2 ^ 16
      (s.gp q (fun g => { g with annAt := some s.mono, annSeq := n })).emit (gptpMsg q 0xB (s.gptpDomain q) 0 n []))) s

/-- ANNOUNCE_RX (R56): discarded. -/
def execAnnounceRx (t : Nat) (_h : Fin 8) (s : State) : Out := run t id s

/-- PDELAY_REQ_TX (R56, R57, R58). -/
def execPdelayReqTx (t : Nat) (q : Port) (s : State) : Out :=
  run t (fun s =>
    let due := match (s.gpOf q).pdAt with
      | none => true
      | some a => decide (a + tickS ≤ s.mono)
    s.when (s.portUp q && due) (fun s =>
      let n := ((s.gpOf q).pdSeq + 1) % 2 ^ 16
      (s.gp q (fun g => { g with pdAt := some s.mono, pdSeq := n, pdT1 := some (n, s.egrMdi q s.mono) })).emit
        (gptpMsg q 0x2 (s.gptpDomain q) 0 n []))) s

/-- PDELAY_REQ_RX (R42, R56, R57, R58): answered as responder with the receive and transmit times at the MDI, in the time
base of the port. -/
def execPdelayReqRx (t : Nat) (q : Port) (seq : Nat) (s : State) : Out :=
  run t (fun s => (s.rxCount q).when (s.portUp q) (fun s =>
    let now := match q with
      | .head _ => s.sns
      | .host _ => s.veh
    let d := s.gptpDomain q
    (s.emit (gptpMsg q 0x3 d 0 seq (timeValue (s.ingMdi q now)))).emit (gptpMsg q 0xA d 0 seq (timeValue (s.egrMdi q now))))) s

/-- PDELAY_RESP_RX (R58, R59, R62): mean link delay ((t4 - t1) - (t3 - t2)) / 2, floored to 1/16 ns (DESIGN CHOICE,
assumption 101); `turn` is t3 - t2. -/
def execPdelayRespRx (t : Nat) (q : Port) (seq : Nat) (turn : Int) (s : State) : Out :=
  run t (fun s =>
    let s := s.rxCount q
    match (s.gpOf q).pdT1 with
    | none => s
    | some (n, t1) =>
      s.when (s.portUp q && n = seq) (fun s =>
        (s.gp q (fun g => { g with pdT1 := none })).put (TS.PDELAY_DELAY (portPage q))
          (lowBits 32 ((s.ingMdi q s.mono - t1 - turn) / 2)))) s

/-- PPS_IN_EDGE (R53, R45, R49): PPS_IN_NS is written at every edge, TB_VEH measured where PPS_IN disciplines it. -/
def execPpsInEdge (t : Nat) (s : State) : Out :=
  run t (fun s =>
    let s := s.tm (fun x => { x with lastPps := some s.mono })
    let takes := s.on TMU.CTRL_PPS_IN_EN && !s.network
    let goal := if s.time.vehInit then nearestSec s.veh else nearestSec s.mono
    let s := s.put TMU.PPS_IN_NS_NS (if s.time.vehInit || !takes then lowBits 32 (s.veh % 16000000000 / 16) else 0)
    s.when takes (fun s => s.measure (goal * 16000000000 - s.veh) (0, 2) tickS)) s

/-- PPS_IN_LOST (R53). -/
def execPpsInLost (t : Nat) (s : State) : Out :=
  run t (fun s =>
    let lost := match s.time.lastPps with
      | none => false
      | some a => decide (a + 1500 * tickMs ≤ s.mono)
    let fromPps := (s.vehState = vehPps || s.vehState = vehRefused) && (s.time.src.map Prod.snd) = some 2
    s.when (lost && fromPps) (fun s => s.holdover.set1 TMU.EVT_PPS_IN_LOST)) s

/-- PPS_OUT_EDGE (R52): once for each whole second of the selected base, within 8 ns of it. -/
def execPpsOutEdge (t : Nat) (s : State) : Out :=
  run t (fun s =>
    match s.ppsBase with
    | none => s
    | some x =>
      let n := nearestSec x
      s.when (decide ((x - n * 16000000000).natAbs ≤ 128) && s.time.ppsLast ≠ some n && s.dev ≠ dsDawn) (fun s =>
        let s := s.tm (fun y => { y with ppsLast := some n, ppsHigh := some s.mono })
        { s with pins := { s.pins with ppsOut := true } })) s

/-- PPS_OUT_PULSE_END (R52): WIDTH_MS milliseconds after the edge, 0 counting as 1. -/
def execPpsOutPulseEnd (t : Nat) (s : State) : Out :=
  run t (fun s =>
    match s.time.ppsHigh with
    | none => s
    | some a =>
      s.when (decide (a + max 1 (s.get TMU.PPS_OUT_WIDTH_MS) * tickMs ≤ s.mono)) (fun s =>
        let s := s.tm (fun y => { y with ppsHigh := none })
        { s with pins := { s.pins with ppsOut := false } })) s

/-- SNAPSHOT_DONE (R55). -/
def execSnapshotDone (t : Nat) (s : State) : Out :=
  run t (fun s =>
    match s.time.snap with
    | none => s
    | some l =>
      let s := (l.zipIdx).foldl (fun s e => s.snapOne e.2 e.1) s
      ((s.tm (fun x => { x with snap := none })).set1 TMU.SNAP_CTRL_DONE).put TMU.SNAP_CTRL_GO 0) s

end Sys2Proof.Machine
end

