-- ==== Sys2Proof/Machine/Dispatch.lean ====
section
/-! DEFINITION. One arm per command: its meaning. -/

namespace Sys2Proof.Machine

def exec (i : Instr) (s : State) : Host.Outcome State Fault Refusal :=
  match i with
  | .porstNLow t lowNs => Sys2Proof.Machine.execPorstNLow t lowNs s
  | .porstNRelease t boot => Sys2Proof.Machine.execPorstNRelease t boot s
  | .tapReset t => Sys2Proof.Machine.execTapReset t s
  | .syncRx t p y => Sys2Proof.Machine.execSyncRx t p y s
  | .holdover t => Sys2Proof.Machine.execHoldover t s
  | .syncTx t h => Sys2Proof.Machine.execSyncTx t h s
  | .announceTx t h => Sys2Proof.Machine.execAnnounceTx t h s
  | .announceRx t h => Sys2Proof.Machine.execAnnounceRx t h s
  | .pdelayReqTx t q => Sys2Proof.Machine.execPdelayReqTx t q s
  | .pdelayReqRx t q seq => Sys2Proof.Machine.execPdelayReqRx t q seq s
  | .pdelayRespRx t q seq turn => Sys2Proof.Machine.execPdelayRespRx t q seq turn s
  | .ppsInEdge t => Sys2Proof.Machine.execPpsInEdge t s
  | .ppsInLost t => Sys2Proof.Machine.execPpsInLost t s
  | .ppsOutEdge t => Sys2Proof.Machine.execPpsOutEdge t s
  | .ppsOutPulseEnd t => Sys2Proof.Machine.execPpsOutPulseEnd t s
  | .stepAccept t m => Sys2Proof.Machine.execStepAccept t m s
  | .snapshotGo t m => Sys2Proof.Machine.execSnapshotGo t m s
  | .snapshotDone t => Sys2Proof.Machine.execSnapshotDone t s
  | .sampleGap t h => Sys2Proof.Machine.execSampleGap t h s
  | .stopped t h => Sys2Proof.Machine.execStopped t h s
  | .sectorStart t h k => Sys2Proof.Machine.execSectorStart t h k s
  | .farEdgeCrossing t h w => Sys2Proof.Machine.execFarEdgeCrossing t h w s
  | .wedgeTimeout t w => Sys2Proof.Machine.execWedgeTimeout t w s
  | .wedgeCloseAfterCommit t w => Sys2Proof.Machine.execWedgeCloseAfterCommit t w s
  | .columnEmissionDeadline t h c => Sys2Proof.Machine.execColumnEmissionDeadline t h c s
  | .twilightSlotOpen t h => Sys2Proof.Machine.execTwilightSlotOpen t h s
  | .twilightSlotClose t h => Sys2Proof.Machine.execTwilightSlotClose t h s
  | .revolutionMark t => Sys2Proof.Machine.execRevolutionMark t s
  | .headLinkUp t h => Sys2Proof.Machine.execHeadLinkUp t h s
  | .headLinkDown t h => Sys2Proof.Machine.execHeadLinkDown t h s
  | .headPortEnable t m h => Sys2Proof.Machine.execHeadPortEnable t m h s
  | .arpRequestRx t q a sec => Sys2Proof.Machine.execArpRequestRx t q a sec s
  | .icmpEchoRx t p d sec => Sys2Proof.Machine.execIcmpEchoRx t p d sec s
  | .challengeSend t h => Sys2Proof.Machine.execChallengeSend t h s
  | .challengeTimeout t h => Sys2Proof.Machine.execChallengeTimeout t h s
  | .answerSegmentRx t h d => Sys2Proof.Machine.execAnswerSegmentRx t h d s
  | .headCheckDone t h sigOk digest => Sys2Proof.Machine.execHeadCheckDone t h sigOk digest s
  | .rechal t m h => Sys2Proof.Machine.execRechal t m h s
  | .rechallengePeriod t h => Sys2Proof.Machine.execRechallengePeriod t h s
  | .intDrift t h => Sys2Proof.Machine.execIntDrift t h s
  | .pointPacket t h d => Sys2Proof.Machine.execPointPacket t h d s
  | .poseFrame t p d sec => Sys2Proof.Machine.execPoseFrame t p d sec s
  | .imuDrdy t => Sys2Proof.Machine.execImuDrdy t s
  | .imuReadDone t rec => Sys2Proof.Machine.execImuReadDone t rec s
  | .imuLost t => Sys2Proof.Machine.execImuLost t s
  | .poseWaitTimeout t u => Sys2Proof.Machine.execPoseWaitTimeout t u s
  | .deskew t u => Sys2Proof.Machine.execDeskew t u s
  | .shedLevelUpdate t u => Sys2Proof.Machine.execShedLevelUpdate t u s
  | .voxelInsert t u ecc => Sys2Proof.Machine.execVoxelInsert t u ecc s
  | .ageingPassStart t u es => Sys2Proof.Machine.execAgeingPassStart t u s es
  | .ageingPassDone t u => Sys2Proof.Machine.execAgeingPassDone t u s
  | .recentringPassStart t u es => Sys2Proof.Machine.execRecentringPassStart t u s es
  | .recentringPassDone t u => Sys2Proof.Machine.execRecentringPassDone t u s
  | .wedgeBuildStart t ea eb => Sys2Proof.Machine.execWedgeBuildStart t s ea eb
  | .wedgeBuildDone t => Sys2Proof.Machine.execWedgeBuildDone t s
  | .chainNone t g x => Sys2Proof.Machine.execChainNone t g x s
  | .chainDense t g x => Sys2Proof.Machine.execChainDense t g x s
  | .chainSparse t g x => Sys2Proof.Machine.execChainSparse t g x s
  | .chainDenseSm t g x => Sys2Proof.Machine.execChainDenseSm t g x s
  | .gather t g x => Sys2Proof.Machine.execGather t g x s
  | .moveLinear t g x => Sys2Proof.Machine.execMoveLinear t g x s
  | .moveStrided t g x => Sys2Proof.Machine.execMoveStrided t g x s
  | .moveTransposedInt8 t g x => Sys2Proof.Machine.execMoveTransposedInt8 t g x s
  | .moveTransposedFp16 t g x => Sys2Proof.Machine.execMoveTransposedFp16 t g x s
  | .moveAllGather t g x => Sys2Proof.Machine.execMoveAllGather t g x s
  | .moveReduceScatter t g x => Sys2Proof.Machine.execMoveReduceScatter t g x s
  | .select t g x => Sys2Proof.Machine.execSelect t g x s
  | .merge t g x => Sys2Proof.Machine.execMerge t g x s
  | .maplookLookup t g x => Sys2Proof.Machine.execMaplookLookup t g x s
  | .maplookUpdate t g x => Sys2Proof.Machine.execMaplookUpdate t g x s
  | .waitFull t g x => Sys2Proof.Machine.execWaitFull t g s x
  | .waitEmpty t g x => Sys2Proof.Machine.execWaitEmpty t g s x
  | .setFull t g x => Sys2Proof.Machine.execSetFull t g s x
  | .setEmpty t g x => Sys2Proof.Machine.execSetEmpty t g s x
  | .barrier t g x => Sys2Proof.Machine.execBarrier t g s x
  | .barrierComplete t stage => Sys2Proof.Machine.execBarrierComplete t stage s
  | .tagWaitSatisfied t g x => Sys2Proof.Machine.execTagWaitSatisfied t g s x
  | .wedgeAccept t g x => Sys2Proof.Machine.execWedgeAccept t g s x
  | .wedgeDone t g x => Sys2Proof.Machine.execWedgeDone t g s x
  | .wedgeFptrWb t g x => Sys2Proof.Machine.execWedgeFptrWb t g s x
  | .loop t g x => Sys2Proof.Machine.execLoop t g s x
  | .late t g => Sys2Proof.Machine.execLate t g s
  | .hang t g => Sys2Proof.Machine.execHang t g s
  | .tagTo t g => Sys2Proof.Machine.execTagTo t g s
  | .barTo t g => Sys2Proof.Machine.execBarTo t g s
  | .ringArrival t g x => Sys2Proof.Machine.execRingArrival t g s x
  | .windowWrite t g x => Sys2Proof.Machine.execWindowWrite t g s x
  | .scrubSweepLine t g grp word ecc => Sys2Proof.Machine.execScrubSweepLine t g grp word ecc s
  | .scrubWriteBack t g ecc => Sys2Proof.Machine.execScrubWriteBack t g ecc s
  | .forcedScrubSlot t g grp word ecc => Sys2Proof.Machine.execForcedScrubSlot t g grp s word ecc
  | .overflowSweepDone t g errs => Sys2Proof.Machine.execOverflowSweepDone t g s errs
  | .mapDramReadDone t u ecc => Sys2Proof.Machine.execMapDramReadDone t u ecc s
  | .batchApplyDone t u err errs => Sys2Proof.Machine.execBatchApplyDone t u err s errs
  | .shadowBankClear t => Sys2Proof.Machine.execShadowBankClear t s
  | .slotBusyEnd t => Sys2Proof.Machine.execSlotBusyEnd t s
  | .mapCommit t m levels => Sys2Proof.Machine.execMapCommit t m levels s
  | .migrationRun t u moves errs => Sys2Proof.Machine.execMigrationRun t u moves errs s
  | .cacheRefresh t u unpin loads => Sys2Proof.Machine.execCacheRefresh t u unpin s loads
  | .columnEntryDrain t g x => Sys2Proof.Machine.execColumnEntryDrain t g s x
  | .resultBlockDrain t g x => Sys2Proof.Machine.execResultBlockDrain t g s x
  | .colPackHoldExpiry t p => Sys2Proof.Machine.execColPackHoldExpiry t p s
  | .datagramTxStart t p => Sys2Proof.Machine.execDatagramTxStart t p s
  | .columnExpectationMissed t => Sys2Proof.Machine.execColumnExpectationMissed t s
  | .wedgeExpectationMissed t => Sys2Proof.Machine.execWedgeExpectationMissed t s
  | .hostLinkUp t p => Sys2Proof.Machine.execHostLinkUp t p s
  | .hostLinkDown t p => Sys2Proof.Machine.execHostLinkDown t p s
  | .arpRetry t p => Sys2Proof.Machine.execArpRetry t p s
  | .arpRefresh t p => Sys2Proof.Machine.execArpRefresh t p s
  | .arpRefreshTimeout t p => Sys2Proof.Machine.execArpRefreshTimeout t p s
  | .arpReplyRx t p a sec => Sys2Proof.Machine.execArpReplyRx t p a sec s
  | .erapFrame t p d sec => Sys2Proof.Machine.execErapFrame t p d sec s
  | .access t => Sys2Proof.Machine.execAccess t s
  | .claim t => Sys2Proof.Machine.execClaim t s
  | .electionClose t => Sys2Proof.Machine.execElectionClose t s
  | .renew t => Sys2Proof.Machine.execRenew t s
  | .release t => Sys2Proof.Machine.execRelease t s
  | .handover t => Sys2Proof.Machine.execHandover t s
  | .handoverOfferLapse t => Sys2Proof.Machine.execHandoverOfferLapse t s
  | .leaseExpiry t => Sys2Proof.Machine.execLeaseExpiry t s
  | .loadImage t => Sys2Proof.Machine.execLoadImage t s
  | .loadMap t => Sys2Proof.Machine.execLoadMap t s
  | .loadRecovery t => Sys2Proof.Machine.execLoadRecovery t s
  | .notify t c => Sys2Proof.Machine.execNotify t c s
  | .pgCommit t m page => Sys2Proof.Machine.execPgCommit t m page s
  | .counterClear t m page => Sys2Proof.Machine.execCounterClear t m page s
  | .verify t m => Sys2Proof.Machine.execVerify t m s
  | .imageVerifyDone t sigOk => Sys2Proof.Machine.execImageVerifyDone t sigOk s
  | .keyLoad t m p => Sys2Proof.Machine.execKeyLoad t m p s
  | .macsecLock t m p => Sys2Proof.Machine.execMacsecLock t m p s
  | .macsecEnable t m p => Sys2Proof.Machine.execMacsecEnable t m p s
  | .goNoon t m => Sys2Proof.Machine.execGoNoon t m s
  | .noonEntryComplete t checkOk => Sys2Proof.Machine.execNoonEntryComplete t checkOk s
  | .goDusk t m => Sys2Proof.Machine.execGoDusk t m s
  | .drainComplete t logFail => Sys2Proof.Machine.execDrainComplete t logFail s
  | .duskTo t => Sys2Proof.Machine.execDuskTo t s
  | .goReady t m => Sys2Proof.Machine.execGoReady t m s
  | .goHold t m => Sys2Proof.Machine.execGoHold t m s
  | .refillComplete t dramUe => Sys2Proof.Machine.execRefillComplete t dramUe s
  | .refillCheckDone t crcOk spdUe => Sys2Proof.Machine.execRefillCheckDone t crcOk spdUe s
  | .flogPop t m => Sys2Proof.Machine.execFlogPop t m s
  | .fire t m page => Sys2Proof.Machine.execFire t m page s
  | .lockstepMismatch t => Sys2Proof.Machine.execLockstepMismatch t s
  | .wdt t => Sys2Proof.Machine.execWdt t s
  | .holdTo t => Sys2Proof.Machine.execHoldTo t s
  | .goldenWedgeClose t => Sys2Proof.Machine.execGoldenWedgeClose t s
  | .sliceStart t => Sys2Proof.Machine.execSliceStart t s
  | .sliceDone t words passes => Sys2Proof.Machine.execSliceDone t words passes s
  | .abort t => Sys2Proof.Machine.execAbort t s
  | .roundTimeout t => Sys2Proof.Machine.execRoundTimeout t s
  | .missed t code inst => Sys2Proof.Machine.execMissed t code inst s
  | .dramScrubRead t u ecc => Sys2Proof.Machine.execDramScrubRead t u ecc s
  | .zqCalibration t u => Sys2Proof.Machine.execZqCalibration t u s
  | .readRetraining t u => Sys2Proof.Machine.execReadRetraining t u s
  | .portPhyCalibration t port => Sys2Proof.Machine.execPortPhyCalibration t port s
  | .ageingMeasurement t r => Sys2Proof.Machine.execAgeingMeasurement t r s
  | .canary t die slackPs => Sys2Proof.Machine.execCanary t die slackPs s
  | .lifeLimit t => Sys2Proof.Machine.execLifeLimit t s
  | .telemetrySnapshot t r => Sys2Proof.Machine.execTelemetrySnapshot t r s
  | .laneLock t lane => Sys2Proof.Machine.execLaneLock t lane s
  | .laneLockLoss t lane => Sys2Proof.Machine.execLaneLockLoss t lane s
  | .hello t hd x => Sys2Proof.Machine.execHello t hd x s
  | .fwd t hd slot key payload => Sys2Proof.Machine.execFwd t hd slot key payload s
  | .drop t hd slot count firstAz lastAz => Sys2Proof.Machine.execDrop t hd slot count firstAz lastAz s
  | .timeTx t => Sys2Proof.Machine.execTimeTx t s
  | .time t x => Sys2Proof.Machine.execTime t x s
  | .idle t => Sys2Proof.Machine.execIdle t s
  | .replayTimeout t => Sys2Proof.Machine.execReplayTimeout t s
  | .xc t hd r => Sys2Proof.Machine.execXc t hd r s
  | .xcWaitExpiry t => Sys2Proof.Machine.execXcWaitExpiry t s
  | .mirrorLineSend t g x => Sys2Proof.Machine.execMirrorLineSend t g s x
  | .mirror t hd part line => Sys2Proof.Machine.execMirror t hd part line s
  | .rej t hd => Sys2Proof.Machine.execRej t hd s
  | .mapck t hd recs errs => Sys2Proof.Machine.execMapck t hd recs s errs
  | .maprow t hd rows => Sys2Proof.Machine.execMaprow t hd rows s
  | .hbLost t => Sys2Proof.Machine.execHbLost t s
  | .linkDown t => Sys2Proof.Machine.execLinkDown t s
  | .pulse t m => Sys2Proof.Machine.execPulse t m s
  | .autoResetDelay t => Sys2Proof.Machine.execAutoResetDelay t s
  | .resetPulseEnd t => Sys2Proof.Machine.execResetPulseEnd t s
  | .recover t m sigOk => Sys2Proof.Machine.execRecover t m sigOk s
  | .flashWr t m => Sys2Proof.Machine.execFlashWr t m s
  | .flashDone t => Sys2Proof.Machine.execFlashDone t s
  | .progKey t m => Sys2Proof.Machine.execProgKey t m s
  | .revoke t m => Sys2Proof.Machine.execRevoke t m s
  | .advArb t m => Sys2Proof.Machine.execAdvArb t m s
  | .advLc t m => Sys2Proof.Machine.execAdvLc t m s
  | .otpDone t readBack => Sys2Proof.Machine.execOtpDone t readBack s
  | .attGo t m => Sys2Proof.Machine.execAttGo t m s
  | .attDone t fwHash imgHash signature => Sys2Proof.Machine.execAttDone t fwHash imgHash signature s
  | .rngFail t => Sys2Proof.Machine.execRngFail t s
  | .unlockExpiry t => Sys2Proof.Machine.execUnlockExpiry t s
  | .monHelp t => Sys2Proof.Machine.execMonHelp t s
  | .monId t => Sys2Proof.Machine.execMonId t s
  | .monState t => Sys2Proof.Machine.execMonState t s
  | .monRd t addr n => Sys2Proof.Machine.execMonRd t addr n s
  | .monFlog t => Sys2Proof.Machine.execMonFlog t s
  | .monClaim t prio => Sys2Proof.Machine.execMonClaim t prio s
  | .monRelease t => Sys2Proof.Machine.execMonRelease t s
  | .monHandover t target => Sys2Proof.Machine.execMonHandover t target s
  | .monWr t addr data mask => Sys2Proof.Machine.execMonWr t addr data mask s
  | .monPop t => Sys2Proof.Machine.execMonPop t s
  | .monUnlock t => Sys2Proof.Machine.execMonUnlock t s
  | .monTok t hex => Sys2Proof.Machine.execMonTok t hex s
  | .monTokEnd t sigOk => Sys2Proof.Machine.execMonTokEnd t sigOk s
  | .monLock t => Sys2Proof.Machine.execMonLock t s
  | .monBaud t rate => Sys2Proof.Machine.execMonBaud t rate s
  | .monitorIdle t => Sys2Proof.Machine.execMonitorIdle t s
  | .monitorLeaseRenew t => Sys2Proof.Machine.execMonitorLeaseRenew t s
  | .bypass t => Sys2Proof.Machine.execBypass t s
  | .idcode t => Sys2Proof.Machine.execIdcode t s
  | .samplePreload t => Sys2Proof.Machine.execSamplePreload t s
  | .extest t => Sys2Proof.Machine.execExtest t s
  | .clamp t => Sys2Proof.Machine.execClamp t s
  | .highz t => Sys2Proof.Machine.execHighz t s
  | .jtagDebugAccess t addr write => Sys2Proof.Machine.execJtagDebugAccess t addr write s
  | .thermalRead t temps => Sys2Proof.Machine.execThermalRead t temps s
  | .railCheck t rail dev => Sys2Proof.Machine.execRailCheck t rail dev s
  | .pmbAlert t faults => Sys2Proof.Machine.execPmbAlert t faults s
  | .refclkLost t => Sys2Proof.Machine.execRefclkLost t s
  | .pllUnlock t pll => Sys2Proof.Machine.execPllUnlock t pll s
  | .clkWindow t dom => Sys2Proof.Machine.execClkWindow t dom s
  | .lastDawnStepComplete t => Sys2Proof.Machine.execLastDawnStepComplete t s
  | .trackerEnable t m h en => Sys2Proof.Machine.execTrackerEnable t m h en s
  | .partnerLinkEnable t m en => Sys2Proof.Machine.execPartnerLinkEnable t m en s
  | .imuEnable t m => Sys2Proof.Machine.execImuEnable t m s
  | .outputEnable t m => Sys2Proof.Machine.execOutputEnable t m s
  | .partnerHbInEdge t => Sys2Proof.Machine.execPartnerHbInEdge t s
  | .idleRx t ack => Sys2Proof.Machine.execIdleRx t ack s
  | .holdoffExpiry t c => Sys2Proof.Machine.execHoldoffExpiry t c s
  | .rngPass t => Sys2Proof.Machine.execRngPass t s

end Sys2Proof.Machine
end

