-- ==== Sys2Proof/Safety.lean ====
section
/-! DEFINITION. The terms in which claims are made: a machine out of reset, a command that completes, and what a command leaves
unchanged. -/

namespace Sys2Proof.Machine

/-- Out of reset at the instant `t` of a command: no fault action is left due by an earlier command, and no wedge that came due in an
evaluation step already over has still to close (R71). -/
abbrev State.Running (s : State) (t : Nat) : Prop := s.released = true ∧ s.safety.act = 0 ∧ s.at_ t = s.clock t

/-- The command `c` completes from `s`: it answers a next state, and `P` holds of it. -/
def Completes (c : Instr) (s : State) (P : State → Prop) : Prop := ∃ u, exec c s = .next u ∧ P u

/-- Every register of the page map but those at the listed addresses reads as before. -/
def RegsBut (l : List Nat) (s u : State) : Prop := ∀ a, a ∉ l → u.reg a = s.reg a

/-- Every byte of every memory reads as before, and no tag has changed. -/
def MemKept (s u : State) : Prop :=
  (∀ a, Mem.byte u.spd a = Mem.byte s.spd a) ∧ (∀ a, Mem.byte u.dram a = Mem.byte s.dram a) ∧
  (∀ a, Mem.byte u.map.mem a = Mem.byte s.map.mem a) ∧ (∀ a, Mem.byte u.loadBuf a = Mem.byte s.loadBuf a) ∧
  (∀ a, Mem.byte u.sec.recBuf a = Mem.byte s.sec.recBuf a) ∧ (∀ a, Mem.byte u.sec.flash a = Mem.byte s.sec.flash a) ∧
  (∀ a, Mem.byte u.sec.otp a = Mem.byte s.sec.otp a) ∧ u.tags = s.tags

/-- Everything that PORST_N holds at its reset value is there (R448): all but the waiting commands, what the outside has been
sent, flash, OTP and ageing log, the TAP, and the model's counter of free values. -/
def State.AtReset (s : State) : Prop :=
  s = { State.reset with
          pending := s.pending, p2 := s.p2, free := s.free, outbox := s.outbox,
          sec := { flash := s.sec.flash, otp := s.sec.otp, jtag := s.sec.jtag }, age := { log := s.age.log } }

/-- What every step keeps: nothing is left due, and a machine that PORST_N holds in reset is at its reset values. -/
def State.Inv (s : State) : Prop := s.safety.act = 0 ∧ (s.released = false → s.AtReset)

/-- The commands that act while PORST_N is low: PORST_N itself and the TAP (R448). -/
def actsInReset : Instr → Bool
  | .porstNLow _ _ | .porstNRelease _ _ | .tapReset _ | .bypass _ | .idcode _ | .samplePreload _ | .extest _ | .clamp _ | .highz _
  | .jtagDebugAccess _ _ _ => true
  | _ => false

/-- A master that owns the device at `t`, on a machine out of reset. -/
abbrev State.Owned (s : State) (t : Nat) (m : Master) : Prop := s.Running t ∧ (s.at_ t).owns m.num = true

/-- The state in which a write of an owner takes effect: a host client's frame has renewed its lease (R323). -/
def State.asOwner (s : State) (t : Nat) (m : Master) : State :=
  if m = .monitor then s.at_ t else (s.at_ t).renewLease

/-- The instant of a command: its first operand, TB_MONO in sixteenths of a nanosecond (assumption 1). -/
def instantOf : Instr → Nat
  | .porstNLow t _ | .porstNRelease t _ | .tapReset t | .syncRx t _ _ | .holdover t | .syncTx t _ | .announceTx t _ | .announceRx t _
  | .pdelayReqTx t _ | .pdelayReqRx t _ _ | .pdelayRespRx t _ _ _ | .ppsInEdge t | .ppsInLost t | .ppsOutEdge t | .ppsOutPulseEnd t
  | .stepAccept t _ | .snapshotGo t _ | .snapshotDone t | .sampleGap t _ | .stopped t _ | .sectorStart t _ _ | .farEdgeCrossing t _ _
  | .wedgeTimeout t _ | .wedgeCloseAfterCommit t _ | .columnEmissionDeadline t _ _ | .twilightSlotOpen t _ | .twilightSlotClose t _
  | .revolutionMark t | .headLinkUp t _ | .headLinkDown t _ | .headPortEnable t _ _ | .arpRequestRx t _ _ _ | .icmpEchoRx t _ _ _
  | .challengeSend t _ | .challengeTimeout t _ | .answerSegmentRx t _ _ | .headCheckDone t _ _ _ | .rechal t _ _ | .rechallengePeriod t _
  | .intDrift t _ | .pointPacket t _ _ | .poseFrame t _ _ _ | .imuDrdy t | .imuReadDone t _ | .imuLost t | .poseWaitTimeout t _
  | .deskew t _ | .shedLevelUpdate t _ | .voxelInsert t _ _ | .ageingPassStart t _ _ | .ageingPassDone t _ | .recentringPassStart t _ _
  | .recentringPassDone t _ | .wedgeBuildStart t _ _ | .wedgeBuildDone t | .chainNone t _ _ | .chainDense t _ _ | .chainSparse t _ _
  | .chainDenseSm t _ _ | .gather t _ _ | .moveLinear t _ _ | .moveStrided t _ _ | .moveTransposedInt8 t _ _ | .moveTransposedFp16 t _ _
  | .moveAllGather t _ _ | .moveReduceScatter t _ _ | .select t _ _ | .merge t _ _ | .maplookLookup t _ _ | .maplookUpdate t _ _
  | .waitFull t _ _ | .waitEmpty t _ _ | .setFull t _ _ | .setEmpty t _ _ | .barrier t _ _ | .barrierComplete t _
  | .tagWaitSatisfied t _ _ | .wedgeAccept t _ _ | .wedgeDone t _ _ | .wedgeFptrWb t _ _ | .loop t _ _ | .late t _ | .hang t _
  | .tagTo t _ | .barTo t _ | .ringArrival t _ _ | .windowWrite t _ _ | .scrubSweepLine t _ _ _ _ | .scrubWriteBack t _ _
  | .forcedScrubSlot t _ _ _ _ | .overflowSweepDone t _ _ | .mapDramReadDone t _ _ | .batchApplyDone t _ _ _ | .shadowBankClear t
  | .slotBusyEnd t | .mapCommit t _ _ | .migrationRun t _ _ _ | .cacheRefresh t _ _ _ | .columnEntryDrain t _ _
  | .resultBlockDrain t _ _ | .colPackHoldExpiry t _ | .datagramTxStart t _ | .columnExpectationMissed t | .wedgeExpectationMissed t
  | .hostLinkUp t _ | .hostLinkDown t _ | .arpRetry t _ | .arpRefresh t _ | .arpRefreshTimeout t _ | .arpReplyRx t _ _ _
  | .erapFrame t _ _ _ | .access t | .claim t | .electionClose t | .renew t | .release t | .handover t | .handoverOfferLapse t
  | .leaseExpiry t | .loadImage t | .loadMap t | .loadRecovery t | .notify t _ | .pgCommit t _ _ | .counterClear t _ _ | .verify t _
  | .imageVerifyDone t _ | .keyLoad t _ _ | .macsecLock t _ _ | .macsecEnable t _ _ | .goNoon t _ | .noonEntryComplete t _ | .goDusk t _
  | .drainComplete t _ | .duskTo t | .goReady t _ | .goHold t _ | .refillComplete t _ | .refillCheckDone t _ _ | .flogPop t _
  | .fire t _ _ | .lockstepMismatch t | .wdt t | .holdTo t | .goldenWedgeClose t | .sliceStart t | .sliceDone t _ _ | .abort t
  | .roundTimeout t | .missed t _ _ | .dramScrubRead t _ _ | .zqCalibration t _ | .readRetraining t _ | .portPhyCalibration t _
  | .ageingMeasurement t _ | .canary t _ _ | .lifeLimit t | .telemetrySnapshot t _ | .laneLock t _ | .laneLockLoss t _ | .hello t _ _
  | .fwd t _ _ _ _ | .drop t _ _ _ _ _ | .timeTx t | .time t _ | .idle t | .replayTimeout t | .xc t _ _ | .xcWaitExpiry t
  | .mirrorLineSend t _ _ | .mirror t _ _ _ | .rej t _ | .mapck t _ _ _ | .maprow t _ _ | .hbLost t | .linkDown t | .pulse t _
  | .autoResetDelay t | .resetPulseEnd t | .recover t _ _ | .flashWr t _ | .flashDone t | .progKey t _ | .revoke t _ | .advArb t _
  | .advLc t _ | .otpDone t _ | .attGo t _ | .attDone t _ _ _ | .rngFail t | .unlockExpiry t | .monHelp t | .monId t | .monState t
  | .monRd t _ _ | .monFlog t | .monClaim t _ | .monRelease t | .monHandover t _ | .monWr t _ _ _ | .monPop t | .monUnlock t
  | .monTok t _ | .monTokEnd t _ | .monLock t | .monBaud t _ | .monitorIdle t | .monitorLeaseRenew t | .bypass t | .idcode t
  | .samplePreload t | .extest t | .clamp t | .highz t | .jtagDebugAccess t _ _ | .thermalRead t _ | .railCheck t _ _ | .pmbAlert t _
  | .refclkLost t | .pllUnlock t _ | .clkWindow t _ | .lastDawnStepComplete t | .trackerEnable t _ _ _ | .partnerLinkEnable t _ _
  | .imuEnable t _ | .outputEnable t _ | .partnerHbInEdge t | .idleRx t _ | .holdoffExpiry t _ | .rngPass t => t

end Sys2Proof.Machine
end

