-- ==== Sys2Proof/Certificates/Slice0/Obligations.lean ====
section
/-! DEFINITION. The statements for the provers. `x` or `s.at_ t` is the state at the instant of the command; `finish` ends a command
(the actions of the faults it raised, the record of notifications). -/

open Sys2Proof Sys2Proof.Machine

/-! ### The machine as a whole -/

/-- The block takes its commands first in, first out; with nothing waiting it idles (assumption 1). -/
def Obligations.StepRunsFrontCommand : Prop :=
  (∀ (s : State) (c : Instr) (rest : List Instr), s.pending = c :: rest → step s = exec c { s with pending := rest }) ∧
  (∀ s : State, s.pending = [] → step s = .next s)

/-- The state after reset: PORST_N low, nothing waiting, every register at its reset value, nothing pending, every memory empty
and in canonical form, TB_MONO 0, FAULT_N low, CMP_PWR_EN and the heartbeat off; and it meets the invariant of every step. -/
def Obligations.ResetState : Prop :=
  State.reset.Inv ∧ State.reset.released = false ∧ State.reset.pending = [] ∧ State.reset.mono = 0 ∧ State.reset.regs = [] ∧
  State.reset.shadow = [] ∧ (∀ a, State.reset.reg a = (regDefault a).toNat) ∧
  Mem.wf State.reset.spd = true ∧ Mem.wf State.reset.dram = true ∧ Mem.wf State.reset.map.mem = true ∧ State.reset.tags = [] ∧
  State.reset.pins.faultN = false ∧ State.reset.pins.cmpPwrEn = false ∧ State.reset.pins.hbOut = false ∧
  State.reset.dev = dsDawn ∧ State.reset.own.owner = none

/-- Every step of the block, whatever command is in front, keeps `State.Inv`: no fault action is left due, and while PORST_N is
low all that it resets stands at its reset value. -/
def Obligations.EveryStepKeepsInv : Prop :=
  ∀ s u : State, s.Inv → step s = .next u → u.Inv

/-- While PORST_N is low no command but PORST_N's own and the TAP's changes anything (R448). -/
def Obligations.NothingHappensInReset : Prop :=
  ∀ (c : Instr) (s : State), s.released = false → actsInReset c = false → exec c s = .next s

/-- No command stops the model: every command of the table, on every state, answers a next state.

No command touches the queue; TB_MONO never runs backwards but at a reset by PORST_N (R43); and out of reset every command but
PORST_N_LOW leaves the machine out of reset with no fault action due. A wedge that came due in an evaluation step already over
closes before the command acts (R71): the command does what it does from the state in which it has closed. -/
def Obligations.EveryCommandAnswers : Prop :=
  (∀ (c : Instr) (s : State), ∃ u, exec c s = .next u) ∧
  (∀ (c : Instr) (s u : State), exec c s = .next u →
     u.pending = s.pending ∧
     ((∀ t n, c ≠ .porstNLow t n) → s.mono ≤ u.mono ∧
       (s.released = true → s.safety.act = 0 → u.released = true ∧ u.safety.act = 0)) ∧
     (∀ a, s.released = true → actsInReset c = false → s.pipe.dueAt = some a → evalStep a < evalStep (max s.mono (instantOf c)) →
       s.closeDue.pipe.dueAt = none → exec c s.closeDue = .next u))

/-- Faults (R343 to R345, R348, R354, R355): a report adds an entry of its class to a log that has room, counts on its page, and
from C2 on leaves its class due; a second report of the same instant, of a lower page or of a lower event of the same page, is
logged before the first; at the end of the command C3 enters Hold, and C2 in Noon enters Midnight, counted, with the
restart recorded. Once the Fault Sequencer has acted nothing is reported; a lockstep mismatch, a watchdog that is not served and a
Hold entry that does not complete make it act.

A command at whose end nothing is due changes no register, no memory, no pin and no time base by ending: what `finish` adds is
the record of pages that raise notification (R329). -/
def Obligations.FaultsAct : Prop :=
  ((∀ (s : State) (cls page ev parts admNo : Nat) (inj : Bool), s.on SI.FSQ_ACTED = false → s.safety.now.at_ ≠ some s.mono → s.safety.flog.length < 16 → cls < 4 →
     (∃ e, (s.report cls page ev parts admNo inj).safety.flog = s.safety.flog ++ [e] ∧ bitsOf e.w0 0 2 = cls ∧
       e.tNs = s.monoNs % 2 ^ 64) ∧
     (s.report cls page ev parts admNo inj).safety.act = (if cls < 2 then s.safety.act else max s.safety.act cls)) ∧
   (∀ (s : State) (c₁ c₂ p₁ p₂ v₁ v₂ parts a₁ a₂ : Nat), s.on SI.FSQ_ACTED = false → s.safety.now.at_ ≠ some s.mono → s.safety.flog.length < 15 →
     c₁ < 4 → c₂ < 4 → p₁ < 4096 → v₁ < 256 → v₂ < 256 → (p₂ < p₁ ∨ (p₂ = p₁ ∧ v₂ < v₁)) →
     let u := (s.report c₁ p₁ v₁ parts a₁ false).report c₂ p₂ v₂ parts a₂ false
     (∃ e₁ e₂, u.safety.flog = s.safety.flog ++ [e₂, e₁] ∧ bitsOf e₁.w0 16 12 = p₁ ∧ bitsOf e₂.w0 16 12 = p₂ ∧
       bitsOf e₁.w1 0 8 = v₁ ∧ bitsOf e₂.w1 0 8 = v₂ ∧ bitsOf e₁.w0 0 2 = c₁ ∧ bitsOf e₂.w0 0 2 = c₂) ∧
     u.safety.act = max (s.report c₁ p₁ v₁ parts a₁ false).safety.act (if c₂ < 2 then 0 else c₂)) ∧
   (∀ (s : State) (cls page ev parts admNo : Nat) (inj : Bool), s.on SI.FSQ_ACTED = true → s.report cls page ev parts admNo inj = s) ∧
   (∀ s : State, s.dev ≠ dsHold →
     (s.safety.act = 3 → s.settle.dev = dsHold ∧ s.settle.pins.faultN = false ∧ s.settle.pins.hbOut = false ∧
       s.settle.pins.cmpPwrEn = false ∧ s.settle.shadow = [] ∧ s.settle.spd = []) ∧
     (s.safety.act = 2 → s.dev = dsNoon → s.recentRestarts.length < 2 → s.safety.restarts.head? ≠ some s.mono → s.settle.dev = dsMidnight ∧
       s.settle.get SI.RST_CNT = satU 32 (s.get SI.RST_CNT + 1) ∧ s.settle.safety.restarts = s.mono :: s.recentRestarts)) ∧
   (∀ (s : State) (t : Nat), s.Running t → s.siRuns = true →
     let x := s.at_ t
     exec (.lockstepMismatch t) s = .next (x.finish (x.fsqAct SI.FSQ_LOCKSTEP)) ∧
     (s.safety.wdtStop = none → exec (.wdt t) s = .next (x.finish (x.fsqAct SI.FSQ_WDT))) ∧
     (∀ a, s.safety.holdAt = some a → s.dev = dsHold → a + tickMs ≤ x.mono → s.on SI.FSQ_ACTED = false →
       Completes (.holdTo t) s (fun u => u.on SI.FSQ_ACTED = true ∧ u.on SI.FSQ_HOLD_TO = true ∧ RegsBut [SI.FSQ.addr] s u ∧ MemKept s u)))) ∧
  (∀ s0 s : State, s.safety.act = 0 → RegsBut [] s (s0.finish s) ∧ MemKept s (s0.finish s) ∧ (s0.finish s).pins = s.pins ∧
     (s0.finish s).time = s.time ∧ (s0.finish s).shadow = s.shadow ∧ (s0.finish s).outbox = s.outbox ∧
     (s0.finish s).own.owner = s.own.owner ∧ (s0.finish s).own.token = s.own.token ∧ (s0.finish s).safety.flog = s.safety.flog)

/-! ### Reset and the TAP -/

/-- PORST_N low for 10 us or more resets everything that `State.AtReset` names; one shorter than 1 us changes nothing.

PORST_N released: the straps and the OTP are sampled; an uncorrectable OTP word is C3; a firmware header that fails a check of
R421, or a flash that does not answer (code 7), leaves the device waiting in Dawn; one that passes boots. -/
def Obligations.PorstN : Prop :=
  (∀ (s : State) (t n : Nat),
     (10000 ≤ n → Completes (.porstNLow t n) s (fun u => u.AtReset ∧ u.released = false ∧ u.pins.cmpPwrEn = false ∧
       RegsBut [] State.reset u ∧ u.sec.flash = s.sec.flash ∧ u.sec.otp = s.sec.otp ∧ u.pending = s.pending)) ∧
     (n < 1000 → exec (.porstNLow t n) s = .next s)) ∧
  (∀ (s : State) (t : Nat) (b : BootInput), s.released = false → s.safety.act = 0 →
     let x : State := ({ s with
       sec := { s.sec with flash := programmed s.sec.flash b.flash
                           otp := b.otp.foldl (fun m e => otpBlow m (e.1 % 4096) e.2) s.sec.otp }
       safety := { s.safety with released := true }
       age := { s.age with log := ageLogOf b s.age.log } } : State)
     let y := ((x.sampleOtp b).put PM.DOM_ON_ON 0x2F700000).phyBanks
     let h := Mem.bytes y.sec.flash 0 256
     let code := if b.flashOk then y.fwCode h b.fwSigOk else 7
     (b.otpBad = true → exec (.porstNRelease t b) s = .next (x.finish (y.plain 0x03F 3))) ∧
     (b.otpBad = false → code ≠ 0 → Completes (.porstNRelease t b) s (fun u => u.get SEC.BOOT_STAT_CODE = code ∧
       u.on SEC.EVT_BOOT_FAIL ∧ u.sec.waits = some b ∧ u.released = true)) ∧
     (b.otpBad = false → code = 0 → exec (.porstNRelease t b) s = .next (x.finish (y.bootFrom b h 0))))

/-- The public instructions of the TAP set its instruction and, in reset or out of it, nothing else but TB_MONO's instant:
TAP_RESET and IDCODE leave IDCODE (its value shifted out by IDCODE), BYPASS and SAMPLE_PRELOAD leave their own; EXTEST, CLAMP and
HIGHZ do so outside Noon, Dusk and Midnight.

In Noon, Dusk and Midnight the instructions that drive the pins act as BYPASS and set SEC.EVT.JTAG_BLOCK (R430). -/
def Obligations.TapInstructions : Prop :=
  (∀ (s : State) (t : Nat),
     let inst (code : Nat) (u : State) : Prop :=
       u.sec = { s.sec with jtag := code } ∧ u.regs = s.regs ∧ u.pins = s.pins ∧ MemKept s u
     (s.released = true → s.Running t) →
     Completes (.tapReset t) s (inst 1) ∧ Completes (.bypass t) s (inst 0) ∧
     Completes (.idcode t) s (fun u => inst 1 u ∧ u.outbox = s.outbox ++ [.tdo 0x1004856F]) ∧
     Completes (.samplePreload t) s (inst 2) ∧
     (s.dev ≠ dsNoon → s.dev ≠ dsDusk → s.dev ≠ dsMidnight →
       Completes (.extest t) s (inst 3) ∧ Completes (.clamp t) s (inst 4) ∧ Completes (.highz t) s (inst 5))) ∧
  (∀ (s : State) (t : Nat) (c : Instr), s.Running t → (s.dev = dsNoon ∨ s.dev = dsDusk ∨ s.dev = dsMidnight) →
     (c = .extest t ∨ c = .clamp t ∨ c = .highz t) →
     Completes c s (fun u => u.sec.jtag = 0 ∧ u.on SEC.EVT_JTAG_BLOCK ∧ RegsBut [SEC.EVT.addr] s u ∧ u.pins = s.pins ∧ MemKept s u))

/-- JTAG debug access (R430): where it is open, a read shifts the register out and changes no register; a write is made in
MANUFACTURE and DEVELOPMENT only, whoever owns the device; where it is closed the TAP acts as in BYPASS. -/
def Obligations.JtagDebugAccess : Prop :=
  ∀ (s : State) (t addr : Nat) (w : Word), s.Running t →
    let x := (s.at_ t).sc (fun k => { k with jtag := tapDebug })
    ((s.at_ t).jtagOpen = false → ∀ d, Completes (.jtagDebugAccess t addr d) s (fun u => u.sec.jtag = 0 ∧ u.regs = s.regs ∧ u.outbox = s.outbox)) ∧
    ((s.at_ t).jtagOpen = true → addr % 4 = 0 → addr < 2 ^ 24 →
      Completes (.jtagDebugAccess t addr none) s (fun u => u.sec.jtag = tapDebug ∧ u.regs = s.regs ∧
        u.outbox = s.outbox ++ [.tdo (x.readAt addr).2]) ∧
      (s.openLife = true → exec (.jtagDebugAccess t addr (some w)) s =
        .next ((s.at_ t).finish ((x.writeReg addr w 0xFFFFFFFF#32 none).2.secAfter))) ∧
      (s.openLife = false → Completes (.jtagDebugAccess t addr (some w)) s (fun u => u.regs = s.regs ∧ u.sec.jtag = tapDebug)))

/-! ### Time bases, PPS and gPTP -/

/-- HOLDOVER (R48): the third interval without a usable Sync of the master that TB_VEH follows takes TB_VEH to HOLDOVER, counts it
and changes nothing else.

SYNC_RX and PPS_IN_EDGE are measurements of TB_VEH: on the port that TMU.CTRL.VEH_PORT names, source time is the Sync's origin
plus d_in (R58, R59); a PPS_IN edge is the nearest whole second (R53). Where PPS_IN does not discipline TB_VEH its edge writes
PPS_IN_NS and moves nothing. PPS_IN_LOST is an entry to HOLDOVER with its own event. -/
def Obligations.VehicleTimeSources : Prop :=
  (∀ (s : State) (t : Nat), s.Running t → (s.at_ t).follows = true → s.time.lastSync + 3 * s.time.srcIntv ≤ max s.mono t →
     Completes (.holdover t) s (fun u => u.vehState = vehHoldover ∧ u.get TMU.STAT_VEH_PORT_ACT = 0 ∧ u.on TMU.EVT_HOLDOVER ∧
       u.get TMU.HOLDOVER_CNT = satU 32 (s.get TMU.HOLDOVER_CNT + 1) ∧
       RegsBut [TMU.STAT.addr, TMU.EVT.addr, TMU.HOLDOVER_CNT.addr] s u ∧ u.time = s.time ∧ u.outbox = s.outbox ∧ MemKept s u)) ∧
  (∀ (s : State) (t : Nat), s.Running t →
     (∀ (p : Fin 2) (y : SyncInfo),
       let x := (s.at_ t).rxCount (.host p)
       let intv := (16000000000 * (2 : Nat) ^ (y.logIntv + 16).toNat) / 2 ^ 16
       let x1 := x.tm (fun k => { k with usable := k.usable.set p.val (x.mono + 3 * intv) })
       let x2 := x1.tm (fun k => { k with srcIntv := intv, lastSync := x1.mono })
       y.usable = true → x.portUp (.host p) = true → y.domain = x.get TMU.GPTP_CFG_VEH_DOMAIN → x.get TMU.CTRL_VEH_PORT = p.val + 1 →
       exec (.syncRx t p y) s = .next ((s.at_ t).finish (x2.measure
         (y.origin + ((x1.get (TS.PDELAY_DELAY (portPage (.host p))) : Int) - x1.getI (TS.ASYM_ASYM (portPage (.host p)))) -
           x1.time.veh.at_ (x1.ingMdi (.host p) y.rxIntern)) (y.gmId.toNat, p.val) intv))) ∧
     (let x := s.at_ t
      x.on TMU.CTRL_PPS_IN_EN = true → x.network = false →
       (let x1 := (x.tm (fun k => { k with lastPps := some x.mono })).put TMU.PPS_IN_NS_NS
           (if x.time.vehInit then lowBits 32 (x.veh % 16000000000 / 16) else 0)
        exec (.ppsInEdge t) s = .next (x.finish (x1.measure
         ((if x.time.vehInit then nearestSec x.veh else nearestSec x.mono) * 16000000000 - x.veh) (0, 2) tickS)))) ∧
     (let x := s.at_ t
      (x.on TMU.CTRL_PPS_IN_EN = false ∨ x.network = true) →
       Completes (.ppsInEdge t) s (fun u => u.get TMU.PPS_IN_NS_NS = lowBits 32 (x.veh % 16000000000 / 16) ∧
         RegsBut [TMU.PPS_IN_NS.addr] s u ∧ u.time = { s.time with lastPps := some x.mono } ∧ MemKept s u)) ∧
     (∀ a id, s.time.lastPps = some a → a + 1500 * tickMs ≤ max s.mono t → (s.vehState = vehPps ∨ s.vehState = vehRefused) →
       s.time.src = some (id, 2) →
       Completes (.ppsInLost t) s (fun u => u.vehState = vehHoldover ∧ u.on TMU.EVT_PPS_IN_LOST ∧ u.on TMU.EVT_HOLDOVER ∧
         RegsBut [TMU.STAT.addr, TMU.EVT.addr, TMU.HOLDOVER_CNT.addr] s u ∧ u.time = s.time ∧ MemKept s u)))

/-- Measurements of TB_VEH (R46, R47, R49): the first source initialises it with no limit and takes it to its lock state; later an
offset beyond STEP_LIM is refused: TB_VEH keeps its value and its rate, the offset and the source are recorded. Whole nanoseconds
are floored (assumption 101). -/
def Obligations.VehicleTimeMeasured : Prop :=
  ∀ (s : State) (ofs : Int) (gm port intv : Nat), port < 3 →
    (s.time.vehInit = false → s.on TMU.CTRL_COUPLE = false →
      (s.measure ofs (gm, port) intv).veh = s.veh + ofs ∧ (s.measure ofs (gm, port) intv).vehState = lockState port ∧
      (s.measure ofs (gm, port) intv).time.vehInit = true ∧ (s.measure ofs (gm, port) intv).time.sns = s.time.sns) ∧
    (s.time.vehInit = true → s.stepLim < (ofs.natAbs : Int) → s.time.src ≠ some (gm, port) →
      (s.measure ofs (gm, port) intv).time.veh = s.time.veh ∧ (s.measure ofs (gm, port) intv).vehState = vehRefused ∧
      (s.measure ofs (gm, port) intv).on TMU.EVT_STEP_REFUSED ∧
      (s.measure ofs (gm, port) intv).get TMU.STEP_REF_CNT = satU 32 (s.get TMU.STEP_REF_CNT + 1) ∧
      (s.measure ofs (gm, port) intv).get TMU.STEP_OFS_LO = lowBits 64 (ofs / 16) % 2 ^ 32 ∧
      (s.measure ofs (gm, port) intv).get TMU.STEP_GM_LO = gm % 2 ^ 32 ∧
      (s.measure ofs (gm, port) intv).time.refused = some ofs)

/-- PPS_OUT (R52): an edge within 8 ns of a whole second of the selected base raises the pin, once a second; WIDTH_MS milliseconds
later, 0 counting as 1, it falls. Neither changes a register.

SNAPSHOT_DONE (R55): DONE set, GO cleared, the captured bases written; nothing is captured any more. -/
def Obligations.PpsOutAndSnapshot : Prop :=
  (∀ (s : State) (t : Nat), s.Running t →
     (∀ v, (s.at_ t).ppsBase = some v → (v - nearestSec v * 16000000000).natAbs ≤ 128 → s.time.ppsLast ≠ some (nearestSec v) →
       s.dev ≠ dsDawn →
       Completes (.ppsOutEdge t) s (fun u => u.pins = { s.pins with ppsOut := true } ∧ u.time.ppsHigh = some (max s.mono t) ∧
         u.time.ppsLast = some (nearestSec v) ∧ u.regs = s.regs ∧ MemKept s u)) ∧
     (∀ a, s.time.ppsHigh = some a → a + max 1 (s.get TMU.PPS_OUT_WIDTH_MS) * tickMs ≤ max s.mono t →
       Completes (.ppsOutPulseEnd t) s (fun u => u.pins = { s.pins with ppsOut := false } ∧ u.time.ppsHigh = none ∧
         u.regs = s.regs ∧ MemKept s u))) ∧
  (∀ (s : State) (t : Nat) (l : List (Option (Int × Bool))), s.Running t → s.time.snap = some l →
     Completes (.snapshotDone t) s (fun u => u.on TMU.SNAP_CTRL_DONE ∧ u.get TMU.SNAP_CTRL_GO = 0 ∧ u.time = { s.time with snap := none } ∧
       u.outbox = s.outbox ∧ MemKept s u))

/-- What a head port sends as gPTP grandmaster, and the peer delay (R56 to R59): a two-step Sync and its Follow_Up of the same
sequence number, an Announce, a peer-delay request, each with the domain of its port and times as seconds and whole nanoseconds
(R42); a request is answered with both times at the MDI, in the time base of the port. An Announce received changes nothing. The
bytes of a message are those of assumption 114, and half a round trip is floored (assumption 101). -/
def Obligations.GptpMessages : Prop :=
  ∀ (s : State) (t : Nat), s.Running t →
    let x := s.at_ t
    (∀ h : Fin 8, let q := Port.head h; let d := x.get TMU.GPTP_CFG_SNS_DOMAIN
      (x.portUp q = true → (∀ a, (x.gpOf q).syncAt = some a → a + (x.snsIntv : Int) ≤ x.sns) →
        Completes (.syncTx t h) s (fun u => u.regs = s.regs ∧ MemKept s u ∧ u.outbox = s.outbox ++
          [gptpMsg q 0x0 d 0 (((x.gpOf q).syncSeq + 1) % 2 ^ 16) [],
           gptpMsg q 0x8 d (x.getI (TS.ASYM_ASYM (portPage q)) * 4096) (((x.gpOf q).syncSeq + 1) % 2 ^ 16) (timeValue (x.egrMdi q x.sns))] ∧
          u.gptp = s.gptp.modify (portIdx q) (fun g => { g with syncAt := some x.sns, syncSeq := ((x.gpOf q).syncSeq + 1) % 2 ^ 16 }))) ∧
      (x.portUp q = true → (∀ a, (x.gpOf q).annAt = some a → a + tickS ≤ x.mono) →
        Completes (.announceTx t h) s (fun u => u.regs = s.regs ∧ MemKept s u ∧
          u.outbox = s.outbox ++ [gptpMsg q 0xB d 0 (((x.gpOf q).annSeq + 1) % 2 ^ 16) []])) ∧
      Completes (.announceRx t h) s (fun u => u.regs = s.regs ∧ u.outbox = s.outbox ∧ u.time = s.time ∧ u.gptp = s.gptp)) ∧
    (∀ q : Port, x.portUp q = true → (∀ a, (x.gpOf q).pdAt = some a → a + tickS ≤ x.mono) →
      Completes (.pdelayReqTx t q) s (fun u => u.regs = s.regs ∧ MemKept s u ∧
        u.outbox = s.outbox ++ [gptpMsg q 0x2 (x.gptpDomain q) 0 (((x.gpOf q).pdSeq + 1) % 2 ^ 16) []] ∧
        u.gptp = s.gptp.modify (portIdx q) (fun g => { g with
          pdAt := some x.mono, pdSeq := ((x.gpOf q).pdSeq + 1) % 2 ^ 16,
          pdT1 := some (((x.gpOf q).pdSeq + 1) % 2 ^ 16, x.egrMdi q x.mono) }))) ∧
    (∀ (q : Port) (seq : Nat), x.portUp q = true →
      let now : Int := match q with
        | .head _ => x.sns
        | .host _ => x.veh
      Completes (.pdelayReqRx t q seq) s (fun u => MemKept s u ∧
        u.outbox = s.outbox ++ [gptpMsg q 0x3 (x.gptpDomain q) 0 seq (timeValue (x.ingMdi q now)),
          gptpMsg q 0xA (x.gptpDomain q) 0 seq (timeValue (x.egrMdi q now))])) ∧
    (∀ (q : Port) (seq : Nat) (turn t1 : Int), x.portUp q = true → (x.gpOf q).pdT1 = some (seq, t1) →
      Completes (.pdelayRespRx t q seq turn) s (fun u => MemKept s u ∧ u.outbox = s.outbox ∧
        u.get (TS.PDELAY_DELAY (portPage q)) = lowBits 32 ((x.ingMdi q x.mono - t1 - turn) / 2)))

/-! ### Trackers, angle events and wedges -/

/-- An angle event fires once a pass (R68): recorded as fired it is no longer due.

Angle events that come about (R68, R70, R71, R105), after the wedge closes of their evaluation step: the first sector start
that is due clears the sector's shed count and applies the level in force; the start of a twilight arc is an opportunity for
golden injection; its end is recorded. Nothing else changes. -/
def Obligations.SectorAndTwilightEvents : Prop :=
  (∀ (s : State) (h key a : Nat), h < s.trackers.length → (s.fire h key a).due? h key a = false) ∧
  (∀ (s : State) (t : Nat) (h : Fin 8), s.Running t →
     let x := (s.at_ t).closeDue
     (∀ k : Nat, x.safety.act = 0 → k < 2 ^ x.get (AT.CFG_SECT_LOG2 h) →
       let n := 2 ^ x.get (AT.CFG_SECT_LOG2 h)
       let a := k * 2 ^ 24 / n
       x.due? h (keySector k) a = true → x.first? h a ((List.range n).map (fun i => (keySector i, i * 2 ^ 24 / n))) = true →
       Completes (.sectorStart t h k) s (fun u => u.get (HP.SECT_SHED h) = 0 ∧
         u.heads = x.heads.modify h (fun y => { y with level := x.get (ING.SHED_STAT_LEVEL (h / 4)) }) ∧
         u.trackers = x.trackers.modify h (fun k' => { k' with fired := ins (keySector k) (x.lastPass h a) k'.fired }) ∧
         RegsBut [(HP.SECT_SHED h).addr] x u ∧ u.outbox = x.outbox ∧ MemKept x u)) ∧
     (x.hasTwilight h = true → x.due? h keyTwiClose (x.get (AT.TWI_END_ANGLE h)) = true →
       exec (.twilightSlotClose t h) s = .next ((s.at_ t).finish (x.fire h keyTwiClose (x.get (AT.TWI_END_ANGLE h))))) ∧
     (x.hasTwilight h = true → x.due? h keyTwiOpen (x.get (AT.TWI_START_ANGLE h)) = true →
       exec (.twilightSlotOpen t h) s =
         .next ((s.at_ t).finish ((x.fire h keyTwiOpen (x.get (AT.TWI_START_ANGLE h))).goldOpportunity h))))

/-- SAMPLE_GAP (R66): a LOCKED tracker without a sample for 2 ms enters FALLBACK at its latched rate.

STOPPED (R65, R67): after FB_REVS revolutions at the latched rate the tracker stops, with its event and a C0 entry; the
wedges' masks lose the head. -/
def Obligations.TrackerFallsBackAndStops : Prop :=
  (∀ (s : State) (t : Nat) (h : Fin 8), s.Running t → s.atState h = atLocked → (s.tk h).lastArr + 2 * tickMs ≤ max s.mono t →
     Completes (.sampleGap t h) s (fun u => u.atState h = atFallback ∧ u.on (AT.EVT_SAMPLE_GAP h) ∧ u.on (AT.EVT_FALLBACK h) ∧
       u.get (AT.FB_CNT h) = satU 32 (s.get (AT.FB_CNT h) + 1) ∧
       u.trackers = s.trackers.modify h (fun k => { k with
         t0 := (s.tk h).t0, pos := (s.tk h).pos, r := (s.tk h).r, fbAt := (s.at_ t).monoNs
         fbPos := predictAt (s.tk h).t0 (s.tk h).pos (s.tk h).r (s.at_ t).snsNs, acq := {}, bad := 0 }) ∧
       RegsBut [(AT.STAT h).addr, (AT.EVT h).addr, (AT.FB_CNT h).addr] s u ∧ u.time = s.time ∧ u.outbox = s.outbox ∧ MemKept s u)) ∧
  (∀ (s : State) (t : Nat) (h : Fin 8), s.Running t → s.atState h = atFallback →
     (s.get (AT.CFG_FB_REVS h) : Int) * 2 ^ 40 ≤ predictAt (s.tk h).fbAt 0 (s.tk h).r (s.at_ t).monoNs →
     let y := ((s.at_ t).put (AT.STAT_STATE h) atStopped).setTk h
       (fun k => { k with acq := {} })
     exec (.stopped t h) s = .next ((s.at_ t).finish (y.raise (AT.EVT_STOPPED h) 0).masksChanged))

/-- The wedge scheduler (R71 to R73): in Noon and Midnight the first far-edge crossing that is due, of a head of the mask, sets
its bit where the head is LOCKED and starts the timer; a complete mask makes the wedge due to close, as do the timer and an
evaluation step after the commit point that completed the mask. A crossing in FALLBACK sets no bit. Closes that are due wait for
the end of the step (assumption 41).

Wedges that close in one evaluation step in Midnight make no commit point (R13, R30, R71): nothing pending is made effective;
their masks and timers are empty; they join the backlog in the order given, numbered on, each with the registers then in effect
and closed at the instant at which it came due; and their frames are expected. -/
def Obligations.WedgeCloses : Prop :=
  (∀ (s : State) (t : Nat) (w : Fin 64), s.Running t → s.schedules = true →
     let x := s.at_ t
     (∀ h : Fin 8, x.covers h w = true → x.due? h (keyFar w) (x.farAngle h w) = true →
       x.first? h (x.farAngle h w) (x.farEvents h) = true → bitOf (x.maskHeads w) h = true →
       let f := x.fire h (keyFar w) (x.farAngle h w)
       let bit := if s.atState h = atLocked then 2 ^ h.val else 0
       let y := f.setWd w (fun k =>
         let k := k.enter (f.entryAt h w)
         { k with mask := Nat.lor k.mask bit, timer := k.timer.orElse (fun _ => some x.mono)
                  timerSns := if k.timer.isNone then x.snsNs else k.timerSns })
       exec (.farEdgeCrossing t h w) s = .next (x.finish
         (if Nat.land (y.wd w).mask (x.maskHeads w) = x.maskHeads w then y.wedgeDue w else y))) ∧
     (∀ a, (s.wd w).timer = some a → a + s.get TMU.WEDGE_TO_US * tickUs ≤ x.mono → x.maskHeads w ≠ 0 →
       exec (.wedgeTimeout t w) s = .next (x.finish (x.wedgeDue w))) ∧
     (∀ a, (s.wd w).after = some a → evalStep a < evalStep x.mono → x.maskHeads w ≠ 0 →
       exec (.wedgeCloseAfterCommit t w) s = .next (x.finish (x.wedgeDue w)))) ∧
  (∀ (s : State) (ws : List (Nat × Bool)), s.dev = dsMidnight →
     let u := s.closeWedges ws
     let close (w : Nat) : Int := s.time.sns.at_ ((s.wd w).due.getD s.mono) / 16
     u.regs = s.regs ∧ u.shadow = s.shadow ∧ u.time = s.time ∧ u.pipe.closes = s.pipe.closes + ws.length ∧
     (∃ js : List WJob, u.pipe.backlog = s.pipe.backlog ++ js ∧ js.map (fun j => (j.w, j.timeout)) = ws ∧
       js.map (fun j => j.seq) = (List.range ws.length).map (fun i => s.pipe.closes + i) ∧
       ∀ j ∈ js, j.tClose = close j.w ∧ j.regs = s.regs) ∧
     u.out.expects.length = s.out.expects.length + ws.length ∧
     (∀ w ∈ ws.map Prod.fst, w < s.wedges.length → (u.wd w).mask = 0 ∧ (u.wd w).timer = none ∧ (u.wd w).due = none ∧
       (u.wd w).prev = some (close w)))

/-- COLUMN_EMISSION_DEADLINE (R68, R70, R71, R158, R300): in Noon, after the wedge closes of its evaluation step and the deadline
of the column before it, the column is expected and its service handed to the column tile of the slot, its partly filled line
written.

REVOLUTION_MARK (R70, R74): fired by the tracking reference head, not nearer than half a period to the last, and by the
revolution timer while the head does not track; a mark counts the revolution and starts a sweep (R119).

What a mark does in Dusk (R119, R121): one more revolution and sweep, an ageing pass requested of both units, the
per-revolution limits of the log start again, and the count of LATE at what the present evaluation step has marked (R161). -/
def Obligations.ColumnDeadlineAndMarks : Prop :=
  (∀ (s : State) (t : Nat) (h : Fin 8) (c g : Nat), s.Running t →
     let x := (s.at_ t).closeDue
     let before := (c + x.columns h - 1) % x.columns h
     x.dev = dsNoon → c < x.columns h → x.due? h (keyCol c) (x.colAngle h c) = true →
     x.first? h (x.colAngle h c) [(keyCol before, x.colAngle h before)] = true → x.colTile h = some g →
     let y := (x.fire h (keyCol c) (x.colAngle h c)).expectColumn h c
     let z : State := { y with out := { y.out with svcN := y.out.svcN + 1 } }
     exec (.columnEmissionDeadline t h c) s = .next ((s.at_ t).finish ((z.flushBuf g h c).setTile g (fun k =>
       { k with cols := k.cols ++ [y.columnService g h c], bufs := k.bufs.filter (fun b => !(b.slot = h.val && b.col = c)) })))) ∧
  (∀ (s : State) (t : Nat), s.Running t →
     let x := s.at_ t
     let h := s.get TMU.REF_REF_HEAD
     let a := s.get TMU.REF_REV_ANGLE
     (s.tracking h = true → x.due? h keyRev a = true → (∀ m, s.rev.lastMark = some m → 2 * m + s.revPeriod ≤ 2 * x.mono) →
       exec (.revolutionMark t) s = .next (x.finish
         (({ x.fire h keyRev a with rev := { s.rev with lastHead := x.mono, lastTimer := none } } : State).mark))) ∧
     (s.tracking h = false → (s.rev.lastTimer.getD s.rev.lastHead) + s.revPeriod ≤ x.mono →
       exec (.revolutionMark t) s = .next (x.finish (({ x with rev := { s.rev with lastTimer := some x.mono } } : State).mark)))) ∧
  (∀ s : State, s.dev = dsDusk → s.mark.rev.count = s.rev.count + 1 ∧ s.mark.rev.sweep = s.rev.sweep + 1 ∧
     s.mark.rev.lastMark = some s.mono ∧ s.mark.pipe.lateRev = (if s.pipe.lateNow.1 = evalStep s.mono then s.pipe.lateNow.2 else 0) ∧ s.mark.ms.logged = [] ∧ s.mark.out.staleLog = [] ∧
     (∀ u : Fin 2, s.mark.get (VHU.STAT_SWEEP_CUR u) = (s.rev.sweep + 1) % 256 ∧ s.mark.on (VHU.STAT_AGE_PEND u) ∧
       s.mark.ms.pend.any (fun e => e.code = 1 && e.inst = u.val) = true))

/-! ### Head ports -/

/-- HEAD_LINK_UP (R44, R58, R88): the link shows up with its calibrated latencies and a challenge due. After the first session of
the device TB_SNS is left alone; at the first, with COUPLE set and TB_VEH LOCKED, it is loaded with TB_VEH. That session starts
with the first link-up of a head port (assumption 102).

HEAD_LINK_DOWN (R90, R91, R108): identity lost, the head quarantined at the commit point and its tracker off. -/
def Obligations.HeadLink : Prop :=
  (∀ (s : State) (t : Nat) (h : Fin 8), s.Running t → s.on (HP.CTRL_EN h) = true → s.on (HP.STAT_LINK h) = false → s.dev ≠ dsHold →
     (s.time.snsSession = true →
       Completes (.headLinkUp t h) s (fun u => u.on (HP.STAT_LINK h) ∧
         u.get (TS.ING_LAT_LAT (0x010 + h.val)) = (Config.calIngress (s.get (HP.CTRL_SPEED h))).toNat ∧
         u.get (TS.EGR_LAT_LAT (0x010 + h.val)) = (Config.calEgress (s.get (HP.CTRL_SPEED h))).toNat ∧
         u.heads = s.heads.modify h (fun y => { y with
           linkAt := max s.mono t, chalDue := true, learned := none, intFilt := none, intSum := 0, intN := 0, lastChal := none }) ∧
         u.time = s.time ∧ u.outbox = s.outbox ∧ MemKept s u ∧
         RegsBut [(HP.STAT h).addr, (TS.ING_LAT_LAT (0x010 + h.val)).addr, (TS.EGR_LAT_LAT (0x010 + h.val)).addr] s u)) ∧
     (s.time.snsSession = false → s.on TMU.CTRL_COUPLE = true → s.vehState = vehLocked →
       Completes (.headLinkUp t h) s (fun u => u.on (HP.STAT_LINK h) ∧ u.sns = (s.at_ t).veh ∧ u.on TMU.STAT_SNS_INIT_DONE ∧
         u.time.snsSession = true))) ∧
  (∀ (s : State) (t : Nat) (h : Fin 8), s.Running t → s.on (HP.STAT_LINK h) = true →
     let y := ((((s.at_ t).put (HP.STAT_LINK h) 0).set1 (HP.EVT_LINK_DOWN h)).put (HP.STAT_ID_STATE h) idNone).put (HP.ID_CTRL_RECHAL h) 0
     let z := y.setHd h (fun k => { k with
       sentAt := none, retryAt := none, checking := false, segs := [], chalDue := false, idDue := none, quarDue := some true })
     exec (.headLinkDown t h) s = .next ((s.at_ t).finish (z.quarNow.trackerOff h)))

/-- CHALLENGE_SEND and RECHALLENGE_PERIOD (R88, R90, R92): a challenge that is due, or the periodic one of a TRUSTED head, goes
out with the next sequence number, a nonce drawn from the random source and TB_SNS; a head that was not TRUSTED shows CHALLENGING,
a TRUSTED one stays so. Its MAC address is that of the head's last point packet (assumption 103).

CHALLENGE_TIMEOUT (R90): an attempt without an answer for 100 ms has failed; the next one is due 1 s after it was sent, and
after the third further attempt the outcome is FAILED.

ANSWER_SEGMENT_RX (R89, R90): a segment of the outstanding attempt is kept; the last of them hands the answer to the check.
Its 1,400 bytes count its header (assumption 103). -/
def Obligations.Challenges : Prop :=
  (∀ (s : State) (t : Nat) (h : Fin 8) (ip : Nat), s.Running t →
     let x := s.at_ t
     let seq := ((s.hd h).seq + 1) % 2 ^ 32
     let port := s.get (HP.UDP_CTL_PORT h)
     let nonce := (x.randoms 8).1.flatMap (leBytes 4)
     let sent (u : State) : Prop := u.outbox = s.outbox ++ [.udp (.head h) (s.hd h).mac ip port port {}
         ([1, 0, 0, 0] ++ leBytes 4 seq ++ nonce ++ leBytes 8 (lowBits 64 x.snsNs))] ∧ u.free = s.free + 8 ∧ MemKept s u ∧
       RegsBut [(HP.STAT h).addr, (HP.ID_CTRL h).addr] s u
     s.headAddr h = some ip → s.on (HP.STAT_LINK h) = true → s.get (HP.IPV4_ADDR h) ≠ 0 → s.rngOk = true → h.val < s.heads.length →
     ((s.hd h).chalDue = true →
       Completes (.challengeSend t h) s (fun u => sent u ∧ (u.hd h).seq = seq ∧ (u.hd h).nonce = nonce ∧ (u.hd h).tries = 0 ∧
         (u.hd h).sentAt = some x.mono ∧ (s.get (HP.STAT_ID_STATE h) ≠ idTrusted → u.get (HP.STAT_ID_STATE h) = idChallenging))) ∧
     (∀ a, s.get (HP.STAT_ID_STATE h) = idTrusted → s.get (HP.LIFE_CFG_PERIOD_S h) ≠ 0 → (s.hd h).lastChal = some a →
       a + s.get (HP.LIFE_CFG_PERIOD_S h) * tickS ≤ x.mono → (s.hd h).sentAt = none → (s.hd h).checking = false →
       Completes (.rechallengePeriod t h) s (fun u => sent u ∧ (u.hd h).seq = seq ∧ u.get (HP.STAT_ID_STATE h) = idTrusted))) ∧
  (∀ (s : State) (t a : Nat) (h : Fin 8), s.Running t → (s.hd h).sentAt = some a → (s.hd h).checking = false →
     a + 100 * tickMs ≤ max s.mono t →
     ((s.hd h).tries < 3 →
       Completes (.challengeTimeout t h) s (fun u => u.regs = s.regs ∧ u.outbox = s.outbox ∧ MemKept s u ∧
         u.heads = s.heads.modify h (fun y => { y with sentAt := none, retryAt := some (a + tickS), segs := [] }))) ∧
     (3 ≤ (s.hd h).tries → exec (.challengeTimeout t h) s = .next ((s.at_ t).finish ((s.at_ t).idOutcome h idFailed)))) ∧
  (∀ (s : State) (t a : Nat) (h : Fin 8) (d : Datagram), s.Running t → s.on (HP.STAT_LINK h) = true → d.dstUdp = s.get (HP.UDP_CTL_PORT h) →
     frameTaken d false = true → (s.hd h).sentAt = some a → max s.mono t < a + 100 * tickMs → (s.hd h).checking = false → 8 ≤ d.payload.length →
     d.payload.length ≤ 1400 → fieldB d.payload 0 1 = 2 → fieldB d.payload 1 1 < fieldB d.payload 2 1 →
     fieldB d.payload 4 4 = (s.hd h).seq →
     Completes (.answerSegmentRx t h d) s (fun u => u.regs = s.regs ∧ u.outbox = s.outbox ∧ MemKept s u ∧
       u.heads = s.heads.modify h (fun y =>
         let segs := ins (fieldB d.payload 1 1) (d.payload.drop 8) y.segs
         { y with segs := segs, segCnt := fieldB d.payload 2 1, checking := decide (segs.length = fieldB d.payload 2 1) })))

/-- HEAD_CHECK_DONE (R90, R93): a body that is not of 7,948 bytes, of another version or nonce, whose signature fails or whose
hours run backwards is FAILED; a key whose SHA-256 digest is enrolled is TRUSTED, any other UNENROLLED, and the hours are
recorded. The signature's verdict is an operand (assumption 4).

An identity outcome (R90, R92): a head that was not TRUSTED shows it at once; a TRUSTED one at the next commit point, while a
wedge is being processed.

INT_DRIFT (R94): the mean of the revolution's twilight intensities over the reference enters the filter with weight 1/256, and
the next revolution sums anew; so it does where no reference is set, and nothing else changes then. -/
def Obligations.HeadIdentity : Prop :=
  (∀ (s : State) (t : Nat) (h : Fin 8) (sigOk : Bool), s.Running t → (s.hd h).checking = true →
     let x := s.at_ t
     let b := (s.hd h).body
     let ok := b.length = 7948 ∧ fieldB b 0 2 = 1 ∧ sliceB b 60 32 = (s.hd h).nonce ∧ sigOk = true ∧ s.get (HP.LIFE_HRS h) ≤ fieldB b 56 4
     let c := Instr.headCheckDone t h sigOk (sha256 (sliceB b 4 32))
     (¬ ok → exec c s = .next (x.finish (x.idOutcome h idFailed))) ∧
     (ok → fieldB b 52 4 * 9 > fieldB b 56 4 * 10 →
       let y := (((x.put (HP.LIFE_RATED h) (fieldB b 52 4)).put (HP.LIFE_HRS h) (fieldB b 56 4)).put (HP.STAT_WORN h) 0).put (HP.STAT_LIFE_END h) 0
       exec c s = .next (x.finish (y.idOutcome h
         (if s.on (HP.ID_CTRL_ENROL_VALID h) = true ∧ (List.range 8).flatMap (fun j => leBytes 4 (s.get (HP.ENROL h j))) = sha256 (sliceB b 4 32)
          then idTrusted else idUnenrolled))))) ∧
  (∀ (s : State) (h : Fin 8) (o : Nat), o < 8 → s.noWedge = false → h.val < s.heads.length →
     (s.get (HP.STAT_ID_STATE h) ≠ idTrusted → (s.idOutcome h o).get (HP.STAT_ID_STATE h) = o ∧
       ((s.idOutcome h o).hd h).quarDue = some (decide (o ≠ idTrusted))) ∧
     (s.get (HP.STAT_ID_STATE h) = idTrusted → (s.idOutcome h o).get (HP.STAT_ID_STATE h) = idTrusted ∧
       ((s.idOutcome h o).hd h).idDue = some o) ∧
     ((s.idOutcome h o).hd h).sentAt = none ∧ ((s.idOutcome h o).hd h).checking = false ∧
     (o = idTrusted → s.get (HP.STAT_ID_STATE h) ≠ idTrusted → (s.idOutcome h o).on (HP.EVT_ID_OK h)) ∧
     (o ≠ idTrusted → (s.idOutcome h o).on (HP.EVT_ID_FAIL h))) ∧
  (∀ (s : State) (t : Nat) (h : Fin 8), s.Running t →
     (s.get (HP.INT_REF_MEAN h) = 0 → Completes (.intDrift t h) s (fun u => u.regs = s.regs ∧ u.outbox = s.outbox ∧ MemKept s u ∧
       u.heads = s.heads.modify h (fun y => { y with intSum := 0, intN := 0 }))) ∧
     (s.hasTwilight h = true → s.get (HP.INT_REF_MEAN h) ≠ 0 → (s.hd h).intN ≠ 0 →
     let ratio := (s.hd h).intSum * 2 ^ 32 / ((s.hd h).intN * s.get (HP.INT_REF_MEAN h))
     let f : Nat := match (s.hd h).intFilt with
       | none => ratio
       | some f => ((f : Int) + ((ratio : Int) - f) / 256).toNat
     Completes (.intDrift t h) s (fun u => u.get (HP.INT_DRIFT_RATIO h) = satU 16 (f / 2 ^ 16) ∧ u.outbox = s.outbox ∧ MemKept s u ∧
       u.heads = s.heads.modify h (fun y => { y with intSum := 0, intN := 0, intFilt := some f }))))

/-- A host port's link and its ARP entry (R296, R297): a port that is enabled comes up with its calibrated latencies and asks; one
that goes down loses its entry; an unanswered request is repeated after 100 ms, a resolved entry refreshed after 30 s, and an
unanswered refresh ends the entry after 3 s; a reply from the destination's address is the entry.

ARP_REQUEST_RX and ICMP_ECHO_RX (R76, R306): a port answers for its own address and for no other; a host port's answer carries
the port's 802.1Q tag. -/
def Obligations.HostLinkAndArp : Prop :=
  (∀ (s : State) (t : Nat) (p : Fin 2), s.Running t →
     let x := s.at_ t
     let k := s.host p
     (s.on (HS.CTRL_EN p) = true → s.on (HS.STAT_LINK p) = false → k.off = false →
       exec (.hostLinkUp t p) s = .next (x.finish ((((x.set1 (HS.STAT_LINK p)).load (TS.ING_LAT_LAT (0x018 + p.val))
         (Config.calIngress 1000).toNat).load (TS.EGR_LAT_LAT (0x018 + p.val)) (Config.calEgress 1000).toNat).arpStart p))) ∧
     (s.on (HS.STAT_LINK p) = true →
       let y := ((x.put (HS.STAT_LINK p) 0).set1 (HS.EVT_LINK_DOWN p)).setHost p
         (fun h => { h with arp := none, arpRun := false, busyUntil := 0, txQ := [] })
       exec (.hostLinkDown t p) s = .next (x.finish (y.arpShow.portGone p))) ∧
     (k.arpRun = true → s.on (HS.STAT_LINK p) = true → k.arpAt + 100 * tickMs ≤ x.mono →
       exec (.arpRetry t p) s = .next (x.finish (x.arpAsk p)) ∧
       (s.secOn p = false → Completes (.arpRetry t p) s (fun z => z.regs = s.regs ∧ MemKept s z ∧
         z.outbox = s.outbox ++ [.arpReq (.host p) (s.get (OUT.DST_ADDR p)) { vlan := s.vlanTag p }] ∧
         (p.val < s.hosts.length → (z.host p).arpAt = x.mono ∧ (z.host p).busyUntil = max k.busyUntil x.mono + s.wireTicks p arpLen)))) ∧
     (k.arp.isSome = true → k.arpRun = false → k.arpAt + 30 * tickS ≤ x.mono →
       exec (.arpRefresh t p) s = .next (x.finish (x.arpStart p))) ∧
     (k.arp.isSome = true → k.arpRun = true → k.arpSince + 3 * tickS ≤ x.mono →
       exec (.arpRefreshTimeout t p) s = .next (x.finish (((x.setHost p (fun h => { h with arp := none })).arpShow).portGone p))) ∧
     (∀ (a : ArpInfo) (sec : SecInfo), s.on (HS.STAT_LINK p) = true → s.secOn p = false → sec.protected_ = false → k.arpRun = true →
       a.senderIp = s.get (OUT.DST_ADDR p) → a.targetIp = s.get (HS.IPV4_ADDR p) →
       let y := x.bump (HS.RX_CNT p)
       exec (.arpReplyRx t p a sec) s = .next (x.finish
         ((y.setHost p (fun h => { h with arp := some a.senderMac, arpRun := false, arpAt := y.mono })).arpShow)))) ∧
  (∀ (s : State) (t : Nat) (a : ArpInfo) (d : Datagram) (sec : SecInfo), s.Running t →
     (∀ h : Fin 8, s.portUp (.head h) = true →
       (s.get (HP.IPV4_ADDR h) ≠ 0 → a.targetIp = s.get (HP.IPV4_ADDR h) →
         Completes (.arpRequestRx t (.head h) a sec) s (fun u => u.outbox = s.outbox ++ [.arpRep (.head h) a.senderMac a.senderIp {}] ∧
           u.regs = s.regs ∧ MemKept s u)) ∧
       (a.targetIp ≠ s.get (HP.IPV4_ADDR h) → Completes (.arpRequestRx t (.head h) a sec) s (fun u => u.outbox = s.outbox ∧ u.regs = s.regs))) ∧
     (∀ p : Fin 2, s.on (HS.STAT_LINK p) = true → s.secOn p = false → sec.protected_ = false →
       let w : Wrap := { vlan := s.vlanTag p }
       (s.get (HS.IPV4_ADDR p) ≠ 0 → a.targetIp = s.get (HS.IPV4_ADDR p) →
         Completes (.arpRequestRx t (.host p) a sec) s (fun u => u.outbox = s.outbox ++ [.arpRep (.host p) a.senderMac a.senderIp w] ∧
           RegsBut [(HS.RX_CNT p).addr] s u ∧ MemKept s u)) ∧
       (d.dstIp = s.get (HS.IPV4_ADDR p) → frameTaken d false = true →
         Completes (.icmpEchoRx t p d sec) s (fun u => u.outbox = s.outbox ++ [.icmp (.host p) d.srcMac d.srcIp w d.payload] ∧
           u.get (HS.RX_CNT p) = satU 32 (s.get (HS.RX_CNT p) + 1) ∧ RegsBut [(HS.RX_CNT p).addr] s u ∧ MemKept s u))))

/-! ### Ingest, voxel hash, build -/

/-- POINT_PACKET (R76, R82 to R85, R88): on a port that is up, to its point port: the head's source is learned, a packet of a
local slot is forwarded to the partner, and the packet is read. One that the map refuses is counted as DROP_PARSE and read no
further. Frames longer than 9,216 bytes are not taken (assumption 104). -/
def Obligations.PointPacketIngested : Prop :=
  ∀ (s : State) (t : Nat) (h : Fin 8) (d : Datagram), s.Running t → s.on (HP.STAT_LINK h) = true → s.dev ≠ dsHold →
    frameTaken d false = true → d.dstUdp = s.get (HP.UDP_PT_PORT h) →
    let x := (s.at_ t).setHd h (fun k => { k with mac := d.srcMac, learned := k.learned.orElse (fun _ => some d.srcIp) })
    let lat := s.get (TS.ING_LAT_LAT (portPage (.head h)))
    let ing := ((s.at_ t).sns - lat) / 16
    let y := if x.magicOk h d.payload && bitOf x.localSlots h then x.forward h d.payload ing (x.packetAz h d.payload) else x
    exec (.pointPacket t h d) s = .next ((s.at_ t).finish (y.ingestPacket h d.payload ing 0 (y.mono - lat))) ∧
    (s.on (HP.STAT_MAP_ERR h) = true → ∀ (p : Bytes) (i j : Int) (a : Nat), RegsBut [(HP.RX_PKT h).addr, (HP.DROP_PARSE h).addr] s (s.ingestPacket h p i j a) ∧
      (s.ingestPacket h p i j a).get (HP.DROP_PARSE h) = satU 32 (s.get (HP.DROP_PARSE h) + 1) ∧
      (s.ingestPacket h p i j a).ing = s.ing)

/-- POSE_FRAME (R96, R98, R99): a datagram to the pose port, while host poses are in use, is one pose record.

A pose record without a time (a TB_VEH record while TB_VEH has no master), one that is not valid and one not newer than the
last sample are refused and counted on both pages; only the ordering case leaves POSE_BAD alone (R99). -/
def Obligations.HostPoses : Prop :=
  (∀ (s : State) (t : Nat) (p : Fin 2) (d : Datagram) (sec : SecInfo), s.Running t → s.on (HS.STAT_LINK p) = true → s.secOn p = false →
     sec.protected_ = false → s.dev ≠ dsHold → frameTaken d false = true → d.dstUdp = s.get (ING.POSE_UDP_PORT 0) → s.poseSrc = 0 →
     let x := (s.at_ t).bump (HS.RX_CNT p)
     exec (.poseFrame t p d sec) s = .next ((s.at_ t).finish (x.poseSample (x.poseTime (readPose d.payload)) (readPose d.payload) 1))) ∧
  (∀ (s : State) (tm : Option Int) (r : PoseRec) (act : Nat),
     (tm = none ∨ r.ok = false ∨ ∃ p t, s.pose.poses.getLast? = some p ∧ tm = some t ∧ t ≤ p.t) →
     (s.poseSample tm r act).pose = s.pose ∧ (s.poseSample tm r act).ing = s.ing ∧
     (∀ u : Fin 2, (s.poseSample tm r act).get (ING.POSE_BAD_CNT u) = satU 32 (s.get (ING.POSE_BAD_CNT u) + 1) ∧
       ((tm = none ∨ r.ok = false) → (s.poseSample tm r act).on (ING.EVT_POSE_BAD u)) ∧
       (tm ≠ none → r.ok = true → (s.poseSample tm r act).get (ING.EVT_POSE_BAD u) = s.get (ING.EVT_POSE_BAD u))))

/-- The inertial unit (R97, R98): a data-ready edge captures TB_SNS and starts the SPI read, or the next one where a read runs
(R465); without one for 5 ms, or with five bad records, a healthy unit is lost; a read that ends hands its record over with the
time captured, and the one that waited starts. -/
def Obligations.InertialUnit : Prop :=
  ∀ (s : State) (t : Nat), s.Running t →
    let x := s.at_ t
    (s.on (ING.IMU_CFG_EN 0) = true → s.dev ≠ dsHold →
      (s.pose.capture = none →
        Completes (.imuDrdy t) s (fun u => u.pose = { s.pose with drdyAt := x.mono, capture := some x.snsNs } ∧ u.regs = s.regs ∧
          u.outbox = s.outbox ++ [.spi (s.get (ING.IMU_CFG_RD_CMD 0))] ∧ MemKept s u)) ∧
      (s.pose.capture ≠ none →
        Completes (.imuDrdy t) s (fun u => u.pose = { s.pose with drdyAt := x.mono, next := some x.snsNs } ∧ u.regs = s.regs ∧
          u.outbox = s.outbox ∧ MemKept s u))) ∧
    (s.pose.imuHealthy = true → (s.pose.drdyAt + 5 * tickMs ≤ x.mono ∨ 5 ≤ s.pose.imuBad) →
      Completes (.imuLost t) s (fun u => u.pose = { s.pose with imuHealthy := false } ∧ u.on (ING.EVT_IMU_LOST 0) ∧
        (∀ i : Fin 2, s.get (ING.STAT_POSE_ACT i) = 2 → u.get (ING.STAT_POSE_ACT i) ≠ 2) ∧ MemKept s u)) ∧
    (∀ (c : Int) (rec_ : Bytes), s.pose.capture = some c → (readPose rec_).ok = true → (readPose rec_).crcOk = true → s.poseSrc = 2 →
      (∀ p, s.pose.poses.getLast? = some p → p.t < c - s.get (ING.IMU_LAT_NS 0)) →
      let w := if s.on (ING.IMU_CFG_EN 0) && decide (s.dev ≠ dsHold) then s.pose.next else none
      let w' : State := { x with pose := { s.pose with capture := w, next := none, imuBad := 0, imuHealthy := true } }
      let y := if w.isSome then w'.emit (.spi (s.get (ING.IMU_CFG_RD_CMD 0))) else w'
      exec (.imuReadDone t rec_) s = .next (x.finish (y.acceptPose (c - s.get (ING.IMU_LAT_NS 0)) (readPose rec_) 2)))

/-- DESKEW (R101, R102, R104, R338): the oldest return is shed where the level in force sheds its band, converted where two
samples bracket it, and else waits in the pose-wait buffer, where that buffer's region admits the write. POSE_WAIT_TIMEOUT
converts one that has waited POSE_WAIT, where its data comes back.

SHED_LEVEL_UPDATE (R105): above the high mark the level rises by one, to 64 at most, and applies to the unit's heads at once;
below the low mark it falls by one. -/
def Obligations.ReturnsDeskewedAndShed : Prop :=
  (∀ (s : State) (t : Nat) (u : Fin 2) (r : WRet) (q : List WRet), s.Running t →
     ((s.ig u).deskQ = r :: q →
       let y := (s.at_ t).setIng u (fun k => { k with deskQ := q })
       (y.sheds r = true → exec (.deskew t u) s = .next ((s.at_ t).finish (y.shedRet r.slot r.az))) ∧
       (y.sheds r = false → ∀ a b sf e g, y.pose.bracket (y.get (ING.POSE_GAP_US 0)) r.t false = .found a b sf e g →
         exec (.deskew t u) s = .next ((s.at_ t).finish (y.convert r a b sf e g))) ∧
       (y.sheds r = false → y.pose.bracket (y.get (ING.POSE_GAP_US 0)) r.t false = .wait → (s.ig u).pwb.length < 1048576 →
         let acc := y.poseAccess u (s.ig u).pwb.length true
         (acc.1 = false → exec (.deskew t u) s = .next ((s.at_ t).finish acc.2)) ∧
         (acc.1 = true → Completes (.deskew t u) s (fun z => z.regs = s.regs ∧ MemKept s z ∧ z.outbox = s.outbox ∧
           z.ing = s.ing.modify u (fun k => { k with deskQ := q, pwb := k.pwb ++ [r] }))))) ∧
     (∀ rest, (s.ig u).pwb = r :: rest → r.ing + s.get (ING.POSE_WAIT_US 0) * tickUs ≤ max s.mono t →
       let y := (s.at_ t).setIng u (fun k => { k with pwb := k.pwb.eraseIdx 0 })
       let acc := y.poseAccess u 0 false
       exec (.poseWaitTimeout t u) s = .next ((s.at_ t).finish (if acc.1 then acc.2.convertNow r else acc.2)))) ∧
  (∀ (s : State) (t : Nat) (u : Fin 2), s.Running t → s.dev ≠ dsHold → (∀ a, (s.ig u).shedAt = some a → a + 16 * tickUs ≤ max s.mono t) →
     (s.get (ING.SHED_WM_HI u) * 16384 < (s.ig u).deskQ.length * 100 → s.get (ING.SHED_STAT_LEVEL u) < 64 →
       Completes (.shedLevelUpdate t u) s (fun z => z.get (ING.SHED_STAT_LEVEL u) = s.get (ING.SHED_STAT_LEVEL u) + 1 ∧
         (∀ h : Fin 8, h.val / 4 = u.val → h.val < s.heads.length → (z.hd h).level = s.get (ING.SHED_STAT_LEVEL u) + 1) ∧
         (∀ h : Fin 8, h.val / 4 ≠ u.val → z.hd h = s.hd h) ∧
         RegsBut [(ING.SHED_STAT u).addr, (ING.EVT u).addr] s z ∧ MemKept s z)) ∧
     (¬ s.get (ING.SHED_WM_HI u) * 16384 < (s.ig u).deskQ.length * 100 → s.on (VHU.STAT_STASH_PRESS 0) = false →
       s.on (VHU.STAT_STASH_PRESS 1) = false → (s.ig u).deskQ.length * 100 < s.get (ING.SHED_WM_LO u) * 16384 →
       1 < s.get (ING.SHED_STAT_LEVEL u) →
       Completes (.shedLevelUpdate t u) s (fun z => z.get (ING.SHED_STAT_LEVEL u) = s.get (ING.SHED_STAT_LEVEL u) - 1 ∧
         z.heads = s.heads ∧ RegsBut [(ING.SHED_STAT u).addr] s z ∧ MemKept s z)))

/-- VOXEL_INSERT (R115): the oldest point on its way to the unit is inserted; a key that is in the table is updated in its slot, a
new one takes a free way and is counted, and with no room the point is dropped, counted and marked on its wedge.

Ageing and recentring passes (R121, R122, R134, R374): an ageing pass that may start is run and listed as running until its
end; the pass of a recentring instance runs after its commit point, once the wedges closed before it are built, and ends the
instance; what waited for the end may start. `es` are the errors that the slot reads of a pass meet. -/
def Obligations.VoxelTable : Prop :=
  (∀ (s : State) (t : Nat) (u : Fin 2) (p : VIns) (q : List VIns) (ecc : EccRes), s.Running t → (s.vu u).inq = p :: q →
     (let y := (s.at_ t).setVhu u (fun v => { v with inq := q })
      exec (.voxelInsert t u ecc) s = .next ((s.at_ t).finish (y.insertPoint u p ecc))) ∧
     (s.sweepOf p.t = none → (s.insertPoint u p ecc).get (VHU.STALE_CNT u) = satU 32 (s.get (VHU.STALE_CNT u) + 1) ∧
       (s.insertPoint u p ecc).on (VHU.EVT_STALE_SWEEP u) ∧ (s.insertPoint u p ecc).vhu = s.vhu)) ∧
  (∀ (s : State) (t : Nat) (u : Fin 2) (es : List EccRes), s.Running t →
     (s.msCanStart 1 u = true → exec (.ageingPassStart t u es) s = .next ((s.at_ t).finish (((s.at_ t).msStart 1 u).agePass u es))) ∧
     Completes (.ageingPassDone t u) s (fun z => z.msRuns 1 u = false ∧ (∀ a ∈ z.ms.pend, a ∈ s.ms.pend) ∧ z.vhu = s.vhu ∧
       RegsBut [MS.STAT.addr] s z ∧ MemKept s z) ∧
     (s.msRuns 2 u = true → (s.vu u).recGo = true → (s.vu u).recGrids ≠ [] →
       (∀ j ∈ s.pipe.backlog, j.golden = true ∨ (s.vu u).recAt ≤ j.at_) →
       exec (.recentringPassStart t u es) s = .next ((s.at_ t).finish ((s.at_ t).recentrePass u es))) ∧
     (s.msRuns 2 u = true → (s.vu u).recGo = true → (s.vu u).recGrids = [] →
       Completes (.recentringPassDone t u) s (fun z => z.vhu = s.vhu.modify u (fun v => { v with recGo := false }) ∧
         (∀ a ∈ z.ms.pend, a ∈ s.ms.pend) ∧ RegsBut [MS.STAT.addr] s z ∧ MemKept s z)))

/-- The build (R31, R123, R157): in Noon and Dusk the wedge at the head of the backlog is admitted with the next number and built
for the first stage, while no build runs, its buffers of that parity are free and the tagged lines that its tables take are empty,
and waits for those lines otherwise; the end of the build shows its cycles and lets the first stage accept it. A golden
injection's close puts its wedge into the backlog and is no commit point. The build waits for the lines that its tables take
(assumption 107). -/
def Obligations.WedgeBuilt : Prop :=
  ∀ (s : State) (t : Nat) (ea eb : List EccRes), s.Running t →
    let x := s.at_ t
    (∀ j rest, s.pipe.backlog = j :: rest → j.golden = false → (s.dev = dsNoon ∨ s.dev = dsDusk) → s.pipe.building = false →
      s.stage0Free s.pipe.nextAdmit = true →
      let j' : WJob := { j with admNo := s.pipe.nextAdmit }
      (∀ w, x.buildWait j' = some w → exec (.wedgeBuildStart t ea eb) s = .next (x.finish (x.hold w.tile w))) ∧
      (x.buildWait j' = none →
        let b := ((x.stageTiles 0).foldl (fun s g => s.holdOver g 8 g) x).build j' (ea, eb)
        let y := (b.1.set1 (VHU.STAT_BUILD 0)).set1 (VHU.STAT_BUILD 1)
        exec (.wedgeBuildStart t ea eb) s = .next (x.finish { y with pipe := { y.pipe with
          backlog := rest, flight := y.pipe.flight ++ [b.2], nextAdmit := y.pipe.nextAdmit + 1, building := true, buildAt := y.mono } }))) ∧
    (s.pipe.building = true →
      Completes (.wedgeBuildDone t) s (fun z => z.pipe = { s.pipe with
          building := false, flight := s.pipe.flight.map (fun j => { j with built := true }) } ∧
        (∀ u : Fin 2, z.get (VHU.STAT_BUILD u) = 0 ∧ z.get (VHU.BUILD_CYC_CYC u) = satU 24 ((x.mono - s.pipe.buildAt) / tickNs)) ∧
        RegsBut [(VHU.STAT 0).addr, (VHU.STAT 1).addr, (VHU.BUILD_CYC 0).addr, (VHU.BUILD_CYC 1).addr] s z ∧ MemKept s z)) ∧
    (∀ sw, s.age.goldT0 = some sw → (s.dev = dsNoon ∨ s.dev = dsDusk) →
      Completes (.goldenWedgeClose t) s (fun z => z.regs = s.regs ∧ z.shadow = s.shadow ∧ z.age.goldT0 = none ∧
        z.pipe.closes = s.pipe.closes + 1 ∧ (∃ j, z.pipe.backlog = s.pipe.backlog ++ [j] ∧ j.golden = true ∧ j.w = goldWedge s.golden) ∧
        MemKept s z))

/-! ### Tiles -/

/-- The descriptors that the queues execute (R143, R154, R156), one clause for all rows: with nothing queued and no wait, the next
descriptor of the program is fetched and is the row's. One that meets a tag parity error stops there (R201). One whose execution
completes retires and issue moves on past it; one that waits is queued and issue moves on; one that errs stops the program. `x` is
what the command meets.

A descriptor whose SEQ is not its index stops the program with SEQ_ERR, as an armed SEQ error does to any; one of no kind with
BAD_DESC, whichever row it would be (R143, R156, R356): the stop records the index and the kind and reports C2. One whose words
bring a double-bit error is not read (R200). -/
def Obligations.DescriptorsRun : Prop :=
  (∀ (s : State) (t : Nat) (g : Fin 80) (x : Soft) (c : Instr) (start : State) (mine : Bytes → Bool) (body : State → QEnt → DRes),
     s.Running t →
     let z := s.at_ t
     let so := z.softOn g x
     (c, start, mine, body) ∈ ([
       (.chainNone t g x, so, isChain 0, fun s e => s.chain g e),
       (.chainDense t g x, so, isChain 1, fun s e => s.chain g e),
       (.chainSparse t g x, so, isChain 2, fun s e => s.chain g e),
       (.chainDenseSm t g x, so, isChain 3, fun s e => s.chain g e),
       (.gather t g x, so, fun b => dKind b = 2, fun s e => s.gatherRows g e),
       (.moveLinear t g x, so, isMove 0, fun s e => s.move g e),
       (.moveStrided t g x, so, isMove 1, fun s e => s.move g e),
       (.moveTransposedInt8 t g x, so, isMove 2, fun s e => s.move g e),
       (.moveTransposedFp16 t g x, so, isMove 3, fun s e => s.move g e),
       (.moveAllGather t g x, so, isMove 4, fun s e => s.allGather g e),
       (.moveReduceScatter t g x, so, isMove 5, fun s e => State.reduceScatter g e 5 s e.phase),
       (.select t g x, so, isSelect false, fun s e => s.select g e),
       (.merge t g x, so, isSelect true, fun s e => s.select g e),
       (.maplookLookup t g x, so.tgeErr (g / 40) x.tge, fun b => dKind b = 5 && dU8 b 20 = 0, fun s e => s.mapLookup g e),
       (.maplookUpdate t g x, so.tgeErr (g / 40) x.tge, fun b => dKind b = 5 && dU8 b 20 = 1, fun s e => s.mapUpdate g e),
       (.wedgeFptrWb t g x, so, fun b => dKind b = 7 && dU8 b 4 = 2, fun s e => s.fptrWb g e x.vhu)]
       : List (Instr × State × (Bytes → Bool) × (State → QEnt → DRes))) →
     ∀ (y : State) (e : QEnt), start.tileRuns g = true → (start.tile g).queue = [] → (start.tile g).wait = none →
       start.fetch g = (y, some e) → (y.tile g).queue = [] → mine e.desc = true →
       let par := if y.tagged g e then y.parity g else none
       (∀ s1, par = some s1 → exec c s = .next (z.finish (s1.softOff g))) ∧
       (par = none →
         (∀ s1, body y e = .ok s1 → exec c s = .next (z.finish ((((applyRes g e (.ok s1)).issued g).tileShow g).softOff g))) ∧
         (∀ s1 w ph ops acc, body y e = .wait s1 w ph ops acc →
           exec c s = .next (z.finish ((((applyRes g e (.wait s1 w ph ops acc)).issued g).tileShow g).softOff g))) ∧
         (∀ s1 err, body y e = .stop s1 err → exec c s = .next (z.finish ((s1.tileStop g e (err.event g)).softOff g))) ∧
         (∀ s1, body y e = .halt s1 → exec c s = .next (z.finish (s1.softOff g))))) ∧
  (∀ (s y : State) (ue : Bool) (g : Nat) (mine : Bytes → Bool) (body : State → QEnt → DRes) (seq : State → QEnt → State),
     s.tileRuns g = true →
     let k := s.tile g
     let b := s.descAt g k.next
     let e : QEnt := { n := k.issues, idx := k.next, desc := b, loops := k.loops, q := queueOf b }
     let stops (u : State) := s.descStep g mine body = u ∧ s.seqStep g mine seq = u
     k.queue = [] → k.wait = none → s.meet g ((s.get (TILE.PROG_START g) + k.next) * 64) 64 false = (y, ue) →
     (ue = true → stops y) ∧
     (ue = false → k.injSeq = true → stops ((y.setTile g (fun x => { x with injSeq := false })).tileStop g e (TILE.EVT_SEQ_ERR g) true)) ∧
     (ue = false → k.injSeq = false → dSeq b ≠ k.next → stops (y.tileStop g e (TILE.EVT_SEQ_ERR g))) ∧
     (ue = false → k.injSeq = false → dSeq b = k.next → (dKind b = 0 ∨ 8 < dKind b) → stops (y.tileStop g e (TILE.EVT_BAD_DESC g))))

/-- The descriptors that the sequencer executes itself (R150, R152, R154, R158): the next one of the program, where it is of the
row, no wait stops issue and its FENCE, if it has one, lets it be issued.

What the SYNC operations and LOOP do (R150, R152, R201): with its lines found and no parity error, a wait goes on at once
where every line is as it asks and else waits for the first that is not; a set turns every line; LOOP enters its body with its
count, and skips the body where its test value is 0. -/
def Obligations.SequencerRuns : Prop :=
  (∀ (s : State) (t : Nat) (g : Fin 80) (x : Soft) (c : Instr) (mine : Bytes → Bool) (body : State → QEnt → State), s.Running t →
     let z := s.at_ t
     let so := z.softOn g x
     (c, mine, body) ∈ ([
       (.waitFull t g x, isSync 0, fun s e => s.syncWait g e true), (.waitEmpty t g x, isSync 1, fun s e => s.syncWait g e false),
       (.setFull t g x, isSync 2, fun s e => s.syncSet g e true), (.setEmpty t g x, isSync 3, fun s e => s.syncSet g e false),
       (.loop t g x, fun b => dKind b = 8, fun s e => s.loopEnter g e),
       (.barrier t g x, isSync 4, fun s e => s.setTile g (fun x => { x with
         bar := some (dU8 e.desc 11 % 16), wait := some { kind := 2, line := 0, port := 4, at_ := s.mono, sync := true } }))]
       : List (Instr × (Bytes → Bool) × (State → QEnt → State))) →
     ∀ (y : State) (e : QEnt), so.tileRuns g = true → (so.tile g).wait = none → so.fetch g = (y, some e) → mine e.desc = true →
       y.fenceOk g e = true → exec c s = .next (z.finish (((body y e).tileShow g).softOff g))) ∧
  (∀ (s : State) (g : Nat) (e : QEnt) (full : Bool),
     (∀ ls, s.syncLines g e = .ok ls →
       (∀ y, s.parity g = some y → s.syncWait g e full = y ∧ s.syncSet g e full = y) ∧
       (s.parity g = none →
         ((∀ l ∈ ls, s.full g l = full) → s.syncWait g e full = s.issued g) ∧
         (∀ l, ls.find? (fun l => s.full g l ≠ full) = some l → s.syncWait g e full =
           s.setTile g (fun x => { x with wait := some { tagWait s l 4 full with sync := true, lines := ls } })) ∧
         s.syncSet g e true = (s.fillLines g ls false).issued g ∧ s.syncSet g e false = (s.emptyLines g ls).issued g)) ∧
     (∀ er, s.syncLines g e = .error er → s.syncWait g e full = s.tileStop g e (er.event g) ∧ s.syncSet g e full = s.tileStop g e (er.event g)) ∧
     (let enter (y : State) := (y.setTile g (fun x => { x with loops :=
         { start := x.next, body := dU8 e.desc 6, count := dU16 e.desc 4, j := 0, adv := loopAdv e.desc } :: x.loops })).issued g
      let n := if bitOf (dU8 e.desc 7) 1 then 4 else 2
      (bitOf (dU8 e.desc 7) 0 = false → s.loopEnter g e = enter s) ∧
      (bitOf (dU8 e.desc 7) 0 = true → ∀ o y, (s.refs g e [(8, false)]).bind (fun l => needAt l 0) = .ok o → o.fits n = true →
        s.opMeet g o 0 n = (y, false) →
        (leNat (y.opRead g o 0 n) ≠ 0 → s.loopEnter g e = enter y) ∧
        (leNat (y.opRead g o 0 n) = 0 → g < y.tiles.length →
          ((s.loopEnter g e).tile g).next = (loopNext (y.tile g).loops ((y.tile g).next + 1 + dU8 e.desc 6)).2))))

/-- A tag wait and a barrier end (R150, R201, R204): a running tile whose SYNC waits for lines that are all as it asks goes on,
unless the test meets a parity error; a stage all of whose tiles have reached one barrier for one wedge goes on. -/
def Obligations.WaitsEnd : Prop :=
  ∀ (s : State) (t : Nat) (g : Fin 80) (x : Soft), s.Running t →
    let z := s.at_ t
    let so := z.softOn g x
    (∀ w, so.tileRuns g = true → (so.tile g).queue = [] → (so.tile g).wait = some w → w.kind ≤ 1 →
      (∀ y, so.parity g = some y → exec (.tagWaitSatisfied t g x) s = .next (z.finish (y.softOff g))) ∧
      (so.parity g = none → (∀ l ∈ w.lines, so.full g l = decide (w.kind = 0)) →
        exec (.tagWaitSatisfied t g x) s = .next (z.finish
          ((((so.setTile g (fun x => { x with wait := none })).issued g).tileShow g).softOff g)))) ∧
    (∀ (st : Fin 19), z.stageTiles st ≠ [] →
      (∀ a ∈ z.stageTiles st, z.tileRuns a = true ∧ (z.tile a).bar.isSome = true ∧
        (∀ b ∈ z.stageTiles st, (z.tile a).bar = (z.tile b).bar ∧ (z.tile a).doneN = (z.tile b).doneN)) →
      exec (.barrierComplete t st) s = .next (z.finish ((z.stageTiles st).foldl (fun u a =>
        ((u.setTile a (fun x => { x with bar := none, wait := none })).issued a).tileShow a) z)))

/-- ACCEPT (R155, R157, R158): a stage tile at it takes the next admitted wedge once the stage before it is done with it and the
stage after it with the one before last; it then presents partition 1, or 3 for the golden wedge. A column tile at it takes the
oldest deadline and presents partition 0.

DONE (R143, R154, R158, R160, R167): within its budget on a stage tile, the tile shows its cycles and is free for its next
ACCEPT; with END its program goes back to the first descriptor, else on. `w` is the state to whose reported faults the end of the
command attends. -/
def Obligations.TilesTakeWedges : Prop :=
  (∀ (s : State) (t : Nat) (g : Fin 80) (x : Soft), s.Running t → (s.dev = dsNoon ∨ s.dev = dsDusk) →
     let z := s.at_ t
     let so := z.softOn g x
     so.dev = s.dev → 1 ≤ so.get (TILE.STAT_STATE g) → so.get (TILE.STAT_STATE g) ≤ 3 → (so.tile g).busy = false → (so.tile g).wait = none →
     ∀ (y : State) (e : QEnt), so.fetch g = (y, some e) → isAccept e.desc = true → y.fenceOk g e = true →
     (y.get (TILE.ROLE_ROLE g) = 1 → ∀ j, y.acceptReady g = some j →
       exec (.wedgeAccept t g x) s = .next (z.finish
         ((y.accepted g (if j.golden then 3 else 1) (b2n j.golden) j.w j.admNo id).softOff g))) ∧
     (y.get (TILE.ROLE_ROLE g) = 1 → y.acceptReady g = none → exec (.wedgeAccept t g x) s = .next (z.finish (y.softOff g))) ∧
     (y.get (TILE.ROLE_ROLE g) = 2 → (y.tile g).cols = [] → exec (.wedgeAccept t g x) s = .next (z.finish (y.softOff g))) ∧
     (y.get (TILE.ROLE_ROLE g) = 2 → ∀ c cs, (y.tile g).cols = c :: cs →
       exec (.wedgeAccept t g x) s = .next (z.finish
         ((y.accepted g 0 0 0 (y.get (TILE.ADMIT_NUM g)) (fun x => { x with cols := cs, cur := some c })).softOff g)))) ∧
  (∀ (s : State) (t : Nat) (g : Fin 80) (x : Soft), s.Running t →
     let z := s.at_ t
     let so := z.softOn g x
     so.tileRuns g = true → (so.tile g).wait = none →
     ∀ (y : State) (e : QEnt), so.fetch g = (y, some e) → dKind e.desc = 7 → dU8 e.desc 4 = 1 → (y.tile g).queue = [] →
     y.tileCount g ≤ (y.budget g).1 → y.get (TILE.ROLE_ROLE g) = 1 → g.val < y.tiles.length →
     let k := y.tile g
     ∃ w, exec (.wedgeDone t g x) s = .next (z.finish w) ∧
       w.get (TILE.LAST_CYC_CYC g) = satU 24 (y.tileCount g) ∧ w.get (TILE.WEDGE_CNT g) = satU 32 (y.get (TILE.WEDGE_CNT g) + 1) ∧
       w.get (TILE.STAT_GOLD g) = 0 ∧ w.get (TILE.MXE_ISSUED g) = satU 32 k.issued ∧ (w.tile g).doneN = k.doneN + 1 ∧
       (w.tile g).busy = false ∧ (w.tile g).wait = none ∧ MemKept y w ∧
       (dEnd e.desc = true → w.get (TILE.STAT_STATE g) = 1 ∧ (w.tile g).next = 0 ∧ (w.tile g).loops = []) ∧
       (dEnd e.desc = false → (w.tile g).next = (loopNext k.loops (k.next + 1)).2 ∧ (w.tile g).loops = (loopNext k.loops (k.next + 1)).1 ∧
         w.get (TILE.STAT_STATE g) = if isAccept (y.descAt g (w.tile g).next) then 1 else 2))

/-- Budgets (R160 to R162, R205): past B + S the work in progress is marked LATE once, from 4 (B + S) on HANG once; a SYNC or tag
wait longer than TAG_TIMEOUT is TAG_TO, also one of what the tile has sent, and a barrier's BAR_TO, C2, with the wait recorded. -/
def Obligations.BudgetsAndTimeouts : Prop :=
  ∀ (s : State) (t : Nat) (g : Fin 80), s.Running t →
    let z := s.at_ t
    let bs := (z.budget g).1 + (z.budget g).2
    let long (w : TWait) (f : Fld) : Out := .next (z.finish ((z.tagInfo g w).raise f 2 (2 ^ z.tilePart g)))
    z.tileRuns g = true →
    ((z.tile g).busy = true → (z.tile g).lateM = false → bs < z.tileCount g → exec (.late t g) s = .next (z.finish (z.markLate g))) ∧
    ((z.tile g).lateM = true ∨ z.tileCount g ≤ bs → exec (.late t g) s = .next (z.finish z)) ∧
    ((z.tile g).busy = true → (z.tile g).hangM = false → 4 * bs ≤ z.tileCount g → exec (.hang t g) s = .next (z.finish
      ((z.setTile g (fun x => { x with hangM := true })).raise (TILE.EVT_HANG g) 2 (2 ^ z.tilePart g)))) ∧
    (∀ w, (z.tile g).queue = [] → z.waitLong g w = true →
      (((z.tile g).wait = some w ∧ w.kind ≠ 2) ∨ ((z.tile g).wait = none ∧ (z.tile g).xwaits.head? = some w) →
        exec (.tagTo t g) s = long w (TILE.SPD_EVT_TAG_TO g)) ∧
      ((z.tile g).wait = some w → w.kind = 2 → exec (.barTo t g) s = long w (TILE.SPD_EVT_BAR_TO g)))

/-- Arrivals (R166, R201, R202, R203, R208, R209, R211, R212): the oldest piece at a tile's windows is written in whole words
where the window admits it and, in a tagged window, its lines are empty; it is rejected with the first reason it meets. A piece of
an all-gather lands where its line is empty and goes on to the next die until it has made three hops; a partial sum lands in
RING[1]. The place of a partial sum is that of assumption 106. -/
def Obligations.ArrivalsLand : Prop :=
  ∀ (s : State) (t : Nat) (g : Fin 80) (x : Soft), s.Running t →
    let z := s.at_ t
    let so := z.softOn g x
    let win (u : State) := exec (.windowWrite t g x) s = .next (z.finish (u.softOff g))
    let ring (u : State) := exec (.ringArrival t g x) s = .next (z.finish (u.softOff g))
    (∀ p rest, (so.tile g).win = p :: rest →
      let y := so.setTile g (fun x => { x with win := rest })
      let tagged := so.get (WIN.ATTR_TAGM g p.win) ≠ 0
      let a := so.get (WIN.BASE_ADDR g p.win) + p.ofs
      ((so.tile g).rej.contains (p.src, p.xfer) = true → win y) ∧
      ((so.tile g).rej.contains (p.src, p.xfer) = false →
        (so.winReason g p ≠ 0 → win (y.winReject g p (so.winReason g p))) ∧
        (so.winReason g p = 0 → ¬ tagged → win (y.winStore g p)) ∧
        (so.winReason g p = 0 → tagged → ∀ u, so.parity g = some u → win u) ∧
        (so.winReason g p = 0 → tagged → so.parity g = none → (∀ l ∈ linesOf a p.data.length, so.full g l = false) → win (y.winStore g p)) ∧
        (so.winReason g p = 0 → tagged → so.parity g = none → (∃ l ∈ linesOf a p.data.length, so.full g l = true) → win so)) ∧
      (p.data.length % 8 = 0 → y.winStore g p =
        if tagged then (y.spdStore g a p.data).fillLines g (linesEnd a p.data.length) false else y.spdStore g a p.data)) ∧
    (∀ k rest, (so.tile g).xin = k :: rest →
      let pop (u : State) := (u.setTile g (fun x => { x with xin := rest })).holdOver (prevDie g) 6 g
      let next : RingBlk := { k with hop := k.hop + 1 }
      (∀ u, so.parity g = some u → ring u) ∧
      (so.parity g = none → k.sum = true → ∀ u, so.landSum g k = some u → ring (pop u)) ∧
      (so.parity g = none → k.sum = false → ∀ er, so.landAt g k = .error er → ring ((pop so).arrivalStop g k.part er)) ∧
      (so.parity g = none → k.sum = false → ∀ o, so.landAt g k = .ok o → so.landWait g k = none →
        let u := (((pop so).holdOver g 4 (nextDie g)).holdOver g 9 (nextDie g)).wordWrite g o 0 k.el
        let landed := u.fillLines g (o.ends (padTo 8 k.el.length)) true
        (3 ≤ k.hop → ring landed) ∧
        (k.hop < 3 → so.ringNoRoom g = none → so.landWait (nextDie g) next = none → ring (landed.ringSend g next))))

/-- The scrubber of a tile (R197 to R199, R377): a queued write-back is served first, and its line read again; else a due line of
the sweep is read and the sweep moves on. A forced slot is counted and does what is pending for its group: a write-back, the
overflow sweep, the background sweep. The overflow sweep's end is counted and clears SWEEP. Which of them takes whose turn is
assumption 77's reading. -/
def Obligations.ScrubberWorks : Prop :=
  ∀ (s : State) (t : Nat) (g : Fin 80) (grp : Fin 3) (word : Nat) (ecc : EccRes), s.Running t →
    let z := s.at_ t
    let k := z.tile g
    let due := s.get MS.SCRUB_SPD_INT ≤ tileCycles (z.mono - k.sweepAt) ∧ z.msAllowed 11 = true ∧ (∀ a ∈ s.ms.run, a.code ≠ 9)
    let read (u : State) (l : Nat) : State := u.scrRead g (grp * 2 ^ 20 + l * 512 + word % 64 * 8) ecc
    let swept (u : State) : State := u.setTile g (fun x => { x with scrubLine := (x.scrubLine + 1) % 2048, sweepAt := u.mono })
    let served (u : State) (a : Nat) : State :=
      let v := u.setCeq g (k.ceq.filter (fun x => x ≠ a))
      match ecc with
      | .clean => v
      | .corrected => ((v.bump (TILE.SPD_CE_CNT g)).eccInfo g a false).raise (TILE.SPD_EVT_CE g) 1
      | .uncorrectable => v.spdUe g a false
    let slot := z.bump (TILE.SPD_SCRUB_FORCE_CNT g)
    z.tilePowered g = true →
    (due → k.ceq = [] →
      (grp.val < s.get (TILE.SPD_SIZE_GROUPS g) →
        exec (.scrubSweepLine t g grp word ecc) s = .next (z.finish (read (swept z) k.scrubLine))) ∧
      (s.get (TILE.SPD_SIZE_GROUPS g) ≤ grp.val → exec (.scrubSweepLine t g grp word ecc) s = .next (z.finish (swept z)))) ∧
    (∀ a q, k.ceq = a :: q → exec (.scrubWriteBack t g ecc) s = .next (z.finish (served z a)) ∧
      (due → exec (.scrubSweepLine t g grp word ecc) s = .next (z.finish (served z a)))) ∧
    (grp.val < s.get (TILE.SPD_SIZE_GROUPS g) →
      (∀ a, k.ceq.find? (fun a => a / 2 ^ 20 = grp.val) = some a → exec (.forcedScrubSlot t g grp word ecc) s = .next (z.finish (served slot a))) ∧
      ((∀ a ∈ k.ceq, a / 2 ^ 20 ≠ grp.val) → s.on (TILE.SPD_STAT_SWEEP g) = true →
        exec (.forcedScrubSlot t g grp word ecc) s = .next (z.finish
          (read (slot.setTile g (fun x => { x with ovfLine := min 2047 (k.ovfLine + 1) })) k.ovfLine))) ∧
      ((∀ a ∈ k.ceq, a / 2 ^ 20 ≠ grp.val) → s.on (TILE.SPD_STAT_SWEEP g) = false → due →
        exec (.forcedScrubSlot t g grp word ecc) s = .next (z.finish (read (swept slot) k.scrubLine)))) ∧
    (s.on (TILE.SPD_STAT_SWEEP g) = true → ∀ errs : List (Nat × EccRes),
      exec (.overflowSweepDone t g errs) s = .next (z.finish
        (z.overflowSweep g (errs.filter (fun e => decide (k.ovfLine ≤ e.1 % 2 ^ 20 / 512) && decide (e.1 < z.spdSize g))))) ∧
      ((∀ e ∈ errs, e.2 = .clean) → Completes (.overflowSweepDone t g errs) s (fun u => u.get (TILE.SPD_STAT_SWEEP g) = 0 ∧
        u.get (TILE.SPD_SCRUB_SWEEP_CNT g) = satU 32 (s.get (TILE.SPD_SCRUB_SWEEP_CNT g) + 1) ∧
        RegsBut [(TILE.SPD_STAT g).addr, (TILE.SPD_SCRUB_SWEEP_CNT g).addr] s u ∧ MemKept s u ∧ u.tiles = s.tiles))) ∧
    (∀ a, (s.scrRead g a .corrected).get (TILE.SPD_CE_CNT g) = satU 32 (s.get (TILE.SPD_CE_CNT g) + 1) ∧ s.scrRead g a .clean = s)

/-! ### Map store -/

/-- Reads and the apply (R254, R268, R273, R274, R277): the oldest read of a unit that is outstanding ends and is no longer shown;
the end of an apply turns its bank into the shadow and forms the CRC records of its epoch, which go to a partner whose link is up;
a shadow that no open wedge reads is given back; a slot is busy only while a wedge that samples it is open.

Migration and the cache (R263, R264, R266, R267, R279): a run ends with a command without moves, at its last unit and where
nothing has room; a move that has room copies the unit and switches its entry, once its data has come; behind an apply it waits. A
cache refresh that may start unpins rows and pins those that it reads, of either slot; it ends with a command that names none and
clears the hot-row table. -/
def Obligations.MapStore : Prop :=
  (∀ (s : State) (t : Nat) (u : Fin 2), s.Running t →
     let x := s.at_ t
     (∀ k n rest, (s.tge u).outst = (k, n) :: rest → rest.length ≤ 512 → s.age.dramInj.getD u 0 = 0 →
       Completes (.mapDramReadDone t u .clean) s (fun z => z.get (TGE.STAT_OUTST u) = rest.length ∧
         z.map = { s.map with tge := s.map.tge.modify u (fun y => { y with outst := rest }) } ∧
         RegsBut [(TGE.STAT u).addr] s z ∧ MemKept s z)) ∧
     (s.map.banks.any (fun b => b.phase = 1) = true →
       ∃ w recs, w.map.own = recs ∧ w.map.touched = [] ∧ w.map.banks.all (fun b => b.phase ≠ 1) = true ∧
         w.map.banks.length = s.map.banks.length ∧ w.map.mem = s.map.mem ∧ w.outbox = s.outbox ∧ MemKept s w ∧
         (∀ r ∈ recs, r.epoch = s.get (MAP.EPOCH_EPOCH 0) ∧ r.owner = s.mapOwner) ∧
         (∀ v : Fin 2, w.get (TGE.STAT_APPLY v) = 0 ∧ w.get (TGE.STAT_SHADOW v) = 1) ∧
         exec (.batchApplyDone t u .none []) s = .next (x.finish
           (if w.linkUp && !recs.isEmpty then (w.sendRecs recs).mapCompareAll [] else w))) ∧
     (s.map.banks.any s.shadowFree = true →
       Completes (.shadowBankClear t) s (fun z => z.map = { s.map with banks := s.map.banks.filter (fun b => !s.shadowFree b) } ∧
         RegsBut [(TGE.STAT 0).addr, (TGE.STAT 1).addr] s z ∧ MemKept s z)) ∧
     (s.before (s.get (MAP.STAGES_LOOK_LAST 0)) = [] →
       Completes (.slotBusyEnd t) s (fun z => z.map = { s.map with busy := [] } ∧ z.get (MAP.BUSY_SLOT0 0) = 0 ∧
         z.get (MAP.BUSY_SLOT1 0) = 0 ∧ RegsBut [(MAP.BUSY 0).addr] s z ∧ MemKept s z))) ∧
  (∀ (s : State) (t : Nat) (u : Fin 2), s.Running t → s.age.forced = false →
     let x := s.at_ t
     (x.msRuns 3 u = true → ∀ a v l errs,
       let mig (moves : List (Nat × Option Nat)) (z : State) := exec (.migrationRun t u moves errs) s = .next (x.finish z)
       mig [] (x.migEnd u) ∧
       (x.maintWaits 3 = true → mig ((a, v) :: l) x) ∧
       (x.maintWaits 3 = false → x.get (MAP.MIG_UNITS 0) ≤ (x.tge u).mig → mig ((a, v) :: l) (x.migEnd u)) ∧
       (x.maintWaits 3 = false → (x.tge u).mig < x.get (MAP.MIG_UNITS 0) →
         (x.moveFull u a v = true → mig ((a, v) :: l) ((x.set1 (MAP.EVT_REMAP_FULL 0)).migEnd u)) ∧
         (x.moveFull u a v = false → x.moveOk u a v = true → ∀ y, x.unitRead u a errs = (true, y) →
           let z := y.moveUnit u a v
           mig [(a, v)] (if z.get (MAP.MIG_UNITS 0) ≤ (z.tge u).mig then z.migEnd u else z)) ∧
         (x.moveFull u a v = false → x.moveOk u a v = true → ∀ y, x.unitRead u a errs = (false, y) → mig ((a, v) :: l) (y.migEnd u)))) ∧
     (∀ a v, (s.moveUnit u a (some v)).map.mem = Mem.store s.map.mem (u * 2 ^ 30 + v * 4096) (Mem.bytes s.map.mem (s.mapAddr u (a * 4096)) 4096)) ∧
     (x.msRuns 4 u = false → x.msCanStart 4 u = true →
       let y := (x.msStart 4 u).put (TGE.STAT_REFRESH u) 1
       ∀ unpin loads, y.maintWaits 4 = false →
       let z := loads.foldl (fun s e => s.pinLoad u e.1 e.2) (y.setTge u (fun k => { k with pins := k.pins.filter (fun r => !unpin.contains r) }))
       exec (.cacheRefresh t u unpin loads) s = .next (x.finish (z.put (TGE.CACHE_OCC_ENTRIES u) (z.tge u).pins.length))) ∧
     (x.msRuns 4 u = true → exec (.cacheRefresh t u [] []) s = .next (x.finish
       (((x.setTge u (fun k => { k with hot := [] })).put (TGE.STAT_REFRESH u) 0).msEnd 4 u))) ∧
     (∀ k e y z, s.rowExists k = true → s.badRow u k = false → (s.tge u).pins.contains k = false → (s.tge u).pins.length < 65536 →
       s.rowAccess u k 2 false = (true, y) → y.rowRead u k e = (true, z) →
       s.pinLoad u k e = z.setTge u (fun x => { x with pins := x.pins ++ [k] })))

/-! ### Output -/

/-- Entries and blocks drained (R284 to R288, R297): a column entry that is well formed and names the column in service when its
line turned full becomes a record in the column queue, one that is not is discarded as a BLOCK_ERR; a result block waits for its
wedge queue. A line whose read or tag fails is not taken. Which column a line belongs to is assumption 22's reading. -/
def Obligations.ResultsDrained : Prop :=
  ∀ (s : State) (t : Nat) (g : Fin 80) (soft : Soft), s.Running t →
    let x := s.at_ t
    let so := x.softOn g soft
    let col (u : State) := exec (.columnEntryDrain t g soft) s = .next (x.finish (u.softOff g))
    let blk (u : State) := exec (.resultBlockDrain t g soft) s = .next (x.finish (u.softOff g))
    (so.dev = dsNoon ∨ so.dev = dsDusk) → so.on (RING.CFG_EN g 3) = true →
    (so.get (TILE.ROLE_ROLE g) = 2 → 0 < so.ringOcc g 3 →
      (∀ y, so.ringPop g 3 = (none, y) → col y) ∧
      (∀ b y, so.ringPop g 3 = (some b, y) →
        let z : State := { y with out := { y.out with injBad := false } }
        let named := (so.tile g).nextSvc.filter (fun c => c.slot * 8192 + c.col = fieldB b 0 2)
        (y.out.injBad = false → bitsOf (fieldB b 15 1) 4 4 = 0 → ∀ c, named = some c →
          col (if z.outOn OUT.CTRL_COL_EN then z.queueCol {
              svc := c, band := (List.range 4).map (fun i => fieldB b (2 + 2 * i) 2), ground := fieldB b 10 2, free := fieldB b 12 2,
              conf := fieldB b 14 1, prog := fieldB b 15 1 % 16, todo := [], at_ := z.mono } else z)) ∧
        ((y.out.injBad = true ∨ bitsOf (fieldB b 15 1) 4 4 ≠ 0 ∨ named = none) → col (z.blockErr y.out.injBad)))) ∧
    (∀ a rest j, (so.tile g).blocks = a :: rest → so.pipe.flight.find? (fun j => j.admNo = a) = some j →
      let hdr := so.spdBytes g (so.headLine g 3 * 512) 64
      let n := blockLines hdr
      let over_ := 256 < fieldB hdr 4 2
      n ≤ so.ringOcc g 3 ∨ (over_ ∧ 0 < so.ringOcc g 3) → j.golden = true ∨ so.wedgeQueue + n * 512 ≤ 2 ^ 17 ∨ over_ →
      (∀ y, so.ringPops g 3 (min n (so.ringOcc g 3)) = (none, y) → blk y) ∧
      (∀ b p, so.ringPops g 3 (min n (so.ringOcc g 3)) = (some b, p) →
        let y := p.setTile g (fun k => { k with blocks := rest })
        let z := if blockOk b a then y else y.blockErr false (if j.golden then 8 else 2)
        let w : State := { z with out := { z.out with blocks := z.out.blocks ++ [(a, g.val, if blockOk b a then b else [])] } }
        blk (if w.lastTiles.all (fun k => w.out.blocks.any (fun e => e.1 = a && e.2.1 = k)) then w.admissionOut j else w).outStat)) ∧
    (∀ a rest j, (so.tile g).blocks = a :: rest → so.pipe.flight.find? (fun j => j.admNo = a) = some j →
      let hdr := so.spdBytes g (so.headLine g 3 * 512) 64
      j.golden = false → fieldB hdr 4 2 ≤ 256 → 2 ^ 17 < so.wedgeQueue + blockLines hdr * 512 → blk so)

/-- Datagrams (R295, R297, R307): a waiting column record whose hold has passed may leave; at a datagram boundary, what leaves is
column records first, then an ERAP response or notification, then a wedge fragment, then a mismatch report, then telemetry.

A datagram's header (R295): magic 0x4F52, version 1, its type, the port's sequence number of that type, which then advances,
and RESTARTS with PAIR_ROLE. -/
def Obligations.DatagramsLeave : Prop :=
  (∀ (s : State) (t : Nat) (p : Fin 2), s.Running t →
     let x := s.at_ t
     let tx (u : State) := exec (.datagramTxStart t p) s = .next (x.finish u)
     let results := s.on OUT.CTRL_EN = true ∧ s.dev ≠ dsHold ∧ x.portBar p = 0
     let cols := results ∧ x.colReady p = true
     let frames := x.out.frames.filter (fun f => f.port = p.val)
     (∀ r, s.out.colQ.find? (fun r => r.todo.contains p.val) = some r → r.at_ + s.get OUT.COL_PACK_HOLD_US * tickUs ≤ x.mono →
       s.out.held.contains p.val = false →
       Completes (.colPackHoldExpiry t p) s (fun z => z.out = { s.out with held := s.out.held ++ [p.val] } ∧ z.regs = s.regs ∧ MemKept s z)) ∧
     ((s.host p).busyUntil ≤ x.mono → s.get OUT.CTRL_PORT = s.out.portSel →
       (cols → tx (x.colTx p)) ∧
       (¬ cols → ∀ w l, (s.host p).txQ = w :: l → tx (x.ctrlNext p w)) ∧
       (¬ cols → (s.host p).txQ = [] →
         (results → ∀ f, (frames.find? (fun f => f.frag ≠ 0)).orElse (fun _ => frames.head?) = some f → tx (x.fragTx p f)) ∧
         (results → frames = [] → ∀ e, s.out.reports.find? (fun e => e.1 = p.val) = some e →
           let y : State := { x with out := { x.out with reports := x.out.reports.erase e } }
           tx ((y.dgramHead p 3 1 0 1).2.resultTx p (s.get (OUT.DST_PORTS_WEDGE_UDP p)) ((y.dgramHead p 3 1 0 1).1 ++ e.2))) ∧
         (¬ results ∨ (frames = [] ∧ s.out.reports.find? (fun e => e.1 = p.val) = none) → x.portBar p = 0 →
           ∀ e, s.age.telWait.find? (fun e => e.1 = p.val) = some e →
           let y : State := { x with age := { x.age with telWait := x.age.telWait.erase e } }
           tx (y.resultTx p (y.get AGE.TEL_UDP_PORT) e.2)))) ∧
     (x.mono < (s.host p).busyUntil → tx x)) ∧
  (∀ (s : State) (p : Fin 2) (type count frag frags : Nat),
     let h := s.dgramHead p type count frag frags
     h.1.length = 16 ∧ fieldB h.1 0 2 = 0x4F52 ∧ fieldB h.1 2 1 = 1 ∧ fieldB h.1 3 1 = type % 256 ∧
     fieldB h.1 4 4 = (s.host p).seq.getD (type - 1) 0 % 2 ^ 32 ∧ fieldB h.1 8 2 = count % 2 ^ 16 ∧ fieldB h.1 10 1 = frag % 256 ∧
     fieldB h.1 11 1 = frags % 256 ∧ h.2.regs = s.regs ∧
     (p.val < s.hosts.length → type - 1 < (s.host p).seq.length →
       (h.2.host p).seq.getD (type - 1) 0 = ((s.host p).seq.getD (type - 1) 0 + 1) % 2 ^ 32))

/-- Expectations that are missed (R300, R302): those whose end has passed are closed; each column missed counts on its slot and in
SI.AV_FAIL, and each wedge missed in WEDGE_MISS_CNT; with none due nothing happens. -/
def Obligations.ExpectationsMissed : Prop :=
  ∀ (s : State) (t : Nat), s.Running t →
    let x := s.at_ t
    let y : State := { x with out := { x.out with expects := [] } }
    (∀ e, s.out.expects = [e] → e.wedge = false → e.ends ≤ x.mono →
      exec (.columnExpectationMissed t) s = .next (x.finish
        ((((y.bump (AM.COL_MISS_CNT e.slot)).bump64 SI.AV_FAIL_LO SI.AV_FAIL_HI).amLog (8 + e.slot) AM.EVT_COL_MISSED).put
          AM.LAST_MISS (e.id + e.slot * 2 ^ 13 + 2 ^ 31)))) ∧
    (∀ e, s.out.expects = [e] → e.wedge = true → e.ends ≤ x.mono →
      exec (.wedgeExpectationMissed t) s = .next (x.finish
        (((y.bump AM.WEDGE_MISS_CNT).amLog 17 AM.EVT_WEDGE_MISSED).put AM.LAST_MISS (e.id * 2 ^ 16 + 2 ^ 30 + 2 ^ 31)))) ∧
    ((∀ e ∈ s.out.expects, x.mono < e.ends) →
      Completes (.columnExpectationMissed t) s (fun z => z.out = s.out ∧ z.regs = s.regs ∧ MemKept s z) ∧
      Completes (.wedgeExpectationMissed t) s (fun z => z.out = s.out ∧ z.regs = s.regs ∧ MemKept s z))

/-! ### Registers, masters, ERAP -/

/-- Register writes (R11 to R18, R315, R334): an address of no register, a register that cannot be written, a page that is off
and, in Hold, a register not listed by R334 are refused with their status, and no register changes but the page's WREJ where it is
REJECTED; a write to a shadowed register goes to its shadow and leaves the value in effect. What the hardware does in the same
cycle stands: a head's event bit that it sets is not cleared, a latency register that it loads keeps what it loaded. -/
def Obligations.RegisterWrites : Prop :=
  ∀ (s : State) (addr : Nat) (data mask : Word) (sig : Option Bool),
    let w := s.writeReg addr data mask sig
    (s.dev ≠ dsHold → regRow addr = none → w = (stUnmapped, s)) ∧
    (∀ d, regRow addr = some d → s.dev ≠ dsHold →
      (s.pageOff (addr / 4096) = true → w = (stPoweredOff, s)) ∧
      (s.pageOff (addr / 4096) = false →
        (aliasOf addr ≠ addr ∨ (d.rw = 0 ∧ d.iw = 0 ∧ d.w1c = 0 ∧ d.w1s = 0 ∧ d.sh = 0) → w = (stReadOnly, s)) ∧
        (aliasOf addr = addr → 0 < BitVec.ofNat 32 d.sh → addr / 4096 ≠ 0x018 → addr / 4096 ≠ 0x019 →
          w.1 = stOk ∧ w.2.regs = s.regs ∧ w.2 = { s with shadow := w.2.shadow }))) ∧
    (∀ d, regRow addr = some d → s.dev = dsHold → holdWritable addr = false → s.pageOff (addr / 4096) = false →
      w = (stRejected, s.set1 (PG.STAT_WREJ (addr / 4096)))) ∧
    (∀ h : Fin 8, s.dev ≠ dsHold → s.pageOff (0x010 + h.val) = false →
      (let f := HP.EVT_LINK_DOWN h
       ∀ m : Word, find f.addr s.cyc.sets = some m → bitOf m.toNat f.lo = true → s.on f = true →
        (s.writeReg f.addr data mask sig).1 = stOk ∧ (s.writeReg f.addr data mask sig).2.on f = true) ∧
      (let a := (TS.ING_LAT_LAT (0x010 + h.val)).addr
       ∀ v : Word, find a s.cyc.loads = some v →
        (s.writeReg a data mask sig).1 = stOk ∧ (s.writeReg a data mask sig).2.reg a = v.toNat))

/-- The writes that a row names, by a master that owns the device (R320, R323): outside Hold, with the page powered and the
register not loaded by the hardware in the same cycle (R18), each has its register's effect. `x` is the state with the client's
lease renewed; `keep a` is the register's word as it stands, brought into its fields' ranges, and `en a` the same with bit 0 set.

The owner's writes that need more (R10, R13, R98, R309 to R311, R356): on a page that has the register, PG_COMMIT brings the
page's shadows into effect, CNT_CLR clears its counters and FIRE injects its error; keys and MACsec can be set while the port is
not locked; the inertial unit can be enabled while its block does not run. -/
def Obligations.OwnersWritesAct : Prop :=
  (∀ (s : State) (t : Nat) (m : Master) (h : Fin 8) (p : Fin 2) (levels : BitVec 16) (b : Bool) (c : Instr) (addr : Nat)
     (eff : Option State), s.Owned t m →
     let x := s.asOwner t m
     let keep (a : Nat) : State := x.setReg a (clampWord a (x.reg a))
     let en (a : Nat) : State := x.setReg a (clampWord a (withBits (x.reg a) 0 1 1))
     (c, addr, eff) ∈ ([
       (.stepAccept t m, TMU.STEP_ACCEPT.addr, some x.stepAccept),
       (.snapshotGo t m, TMU.SNAP_CTRL.addr, some x.snapshotGo),
       (.headPortEnable t m h, (HP.CTRL h).addr, some ((x.setReg (HP.CTRL h).addr (x.reg (HP.CTRL h).addr)).headEnable h true)),
       (.rechal t m h, (HP.ID_CTRL h).addr, some ((keep (HP.ID_CTRL h).addr).rechal h)),
       (.trackerEnable t m h b, (AT.CTRL h).addr, some (x.trackerEnable h b)),
       (.mapCommit t m levels, (MAP.COMMIT 0).addr, some (x.mapCommit levels.toNat)),
       (.verify t m, SYS.IMG_CTRL.addr, x.verify),
       (.goNoon t m, SYS.CMD.addr, x.goNoon),
       (.goDusk t m, SYS.CMD.addr, x.goDusk),
       (.goReady t m, SYS.CMD.addr, if x.dev = dsNoon || x.dev = dsDusk then some x.goReady else none),
       (.goHold t m, SYS.CMD.addr, some (x.enterHold 3)),
       (.macsecLock t m p, (HS.MACSEC p).addr, some (x.macsecWritten p (x.reg (HS.MACSEC p).addr) true)),
       (.partnerLinkEnable t m b, PLK.CTRL.addr, some ((x.setReg PLK.CTRL.addr (x.reg PLK.CTRL.addr)).linkEnable b)),
       (.pulse t m, PLK.RST.addr, some (keep PLK.RST.addr).pulse),
       (.flogPop t m, SI.FLOG_POP.addr, some x.flogPop),
       (.progKey t m, SEC.OTP_CMD.addr, (keep SEC.OTP_CMD.addr).otpCmd 1),
       (.revoke t m, SEC.OTP_CMD.addr, (keep SEC.OTP_CMD.addr).otpCmd 2),
       (.advArb t m, SEC.OTP_CMD.addr, (keep SEC.OTP_CMD.addr).otpCmd 3),
       (.advLc t m, SEC.OTP_CMD.addr, (keep SEC.OTP_CMD.addr).otpCmd 4),
       (.attGo t m, SEC.ATT_CTRL.addr, x.attGo),
       (.recover t m b, SEC.BOOT_CTRL.addr, x.recover b),
       (.flashWr t m, SEC.BOOT_CTRL.addr, x.random.2.flashWr),
       (.outputEnable t m, OUT.CTRL.addr, some (if x.on OUT.CTRL_EN then en OUT.CTRL.addr else ((en OUT.CTRL.addr).arpStart 0).arpStart 1))]
       : List (Instr × Nat × Option State)) →
     x.dev ≠ dsHold → x.pageOff (addr / 4096) = false → find addr x.cyc.loads = none → ∀ y, eff = some y →
     exec c s = .next ((s.at_ t).finish y.secAfter)) ∧
  (∀ (s : State) (t : Nat) (m : Master) (p : Fin 2) (page : BitVec 12), s.Owned t m →
     let x := s.asOwner t m
     let pg := page.toNat
     let hasBit (a bit : Nat) : Prop := aliasOf a = a ∧ ∃ d, regRow a = some d ∧ d.rw &&& bit = 0 ∧ d.iw = 0 ∧ d.w1c = 0 ∧ d.w1s = bit ∧ d.sh = 0
     x.dev ≠ dsHold → x.pageOff pg = false →
     (∀ a ∈ [pg * 4096 + 0x020, (HS.MACSEC p).addr, (ING.IMU_CFG 0).addr], find a x.cyc.loads = none) →
     (hasBit (pg * 4096 + 0x024) 1 → ∀ y, x.pgCommit pg = some y →
       exec (.pgCommit t m page) s = .next ((s.at_ t).finish y.secAfter)) ∧
     (hasBit (cntClrAddr pg) 1 → (cntClr (blockCode pg)).isSome = true →
       exec (.counterClear t m page) s = .next ((s.at_ t).finish (x.clearCounters pg).secAfter)) ∧
     (hasBit (pg * 4096 + 0x020) 0x100 →
       clampWord (pg * 4096 + 0x020) (x.reg (pg * 4096 + 0x020)) = x.reg (pg * 4096 + 0x020) → ∀ y,
       (x.setReg (pg * 4096 + 0x020) (x.reg (pg * 4096 + 0x020))).fireInj pg = some y →
       exec (.fire t m page) s = .next ((s.at_ t).finish y.secAfter)) ∧
     (pg = 0x018 + p.val → x.on (HS.MACSEC_LOCK p) = false →
       exec (.keyLoad t m p) s = .next ((s.at_ t).finish (x.keyLoad p).secAfter) ∧
       exec (.macsecEnable t m p) s = .next ((s.at_ t).finish
         (x.macsecWritten p (withBits (x.reg (HS.MACSEC p).addr) 0 1 1) false).secAfter)) ∧
     (pg = 0x020 → x.blockRuns 0x020 = false → x.on (ING.IMU_CFG_EN 0) = false →
       let a := (ING.IMU_CFG 0).addr
       exec (.imuEnable t m) s = .next ((s.at_ t).finish
         (x.setReg a (clampWord a (withBits (x.reg a) 0 1 1))).imuEnabled.secAfter)))

/-- A master that does not own the device writes nothing (R320): each row that is a register write counts once in NOT_OWNER_CNT
and ends as any command does. -/
def Obligations.OnlyTheOwnerWrites : Prop :=
  ∀ (s : State) (t : Nat) (m : Master) (h : Fin 8) (p : Fin 2) (levels : BitVec 16) (page : BitVec 12) (b : Bool) (c : Instr),
    c ∈ [.stepAccept t m, .snapshotGo t m, .headPortEnable t m h, .rechal t m h, .trackerEnable t m h b, .imuEnable t m,
      .mapCommit t m levels, .pgCommit t m page, .counterClear t m page, .verify t m, .keyLoad t m p, .macsecLock t m p,
      .macsecEnable t m p, .outputEnable t m, .goNoon t m, .goDusk t m, .goReady t m, .goHold t m, .flogPop t m, .fire t m page,
      .pulse t m, .partnerLinkEnable t m b, .recover t m b, .flashWr t m, .progKey t m, .revoke t m, .advArb t m, .advLc t m,
      .attGo t m] →
    s.Running t → (s.at_ t).owns m.num = false → (∀ k ∈ s.hosts, k.enAfter = false) →
    Completes c s (fun u => u.get SYS.NOT_OWNER_CNT = satU 32 (s.get SYS.NOT_OWNER_CNT + 1) ∧ u.own.owner = s.own.owner ∧
      RegsBut [SYS.NOT_OWNER_CNT.addr] s u ∧ u.shadow = s.shadow ∧ u.hosts = s.hosts ∧ u.sec = s.sec ∧ u.plk = s.plk ∧
      u.pins = s.pins ∧ u.outbox = s.outbox ∧ MemKept s u)

/-- ERAP_FRAME (R306, R313, R316, R319, R323, R329): a frame to the ERAP port of a host port that is up joins the frames in the
order of acceptance; well formed it is its client's, whose NOTIFY frames then go to where it came from, and it renews the lease
where it carries the owner's token; with 16 waiting on its port it is dropped and counted; at the front, one that is not well
formed is answered BAD_FORMAT, counted, or BAD_VERSION and never executed. Frames longer than 9,216 bytes are not taken
(assumption 104). -/
def Obligations.ErapFrameTaken : Prop :=
  ∀ (s : State) (t : Nat) (p : Fin 2) (d : Datagram) (sec : SecInfo), s.Running t → s.on (HS.STAT_LINK p) = true →
    s.secOn p = false → sec.protected_ = false → d.dstUdp = s.get (HS.ERAP_UDP_PORT p) →
    let x := (s.at_ t).bump (HS.RX_CNT p)
    let f : ErapFrame := { port := p, srcMac := d.srcMac, srcIp := d.srcIp, srcUdp := d.srcUdp, payload := d.payload,
                           arrived := x.mono, chan := none, own := false }
    let mine := decide (16 ≤ d.payload.length) && x.owns f.client && f.token = x.own.token
    let g : ErapFrame := { f with own := mine }
    let y := if mine then x.renewLease else x
    let noted := (y.put (SYS.CLIENT_ADDR f.client) f.srcIp).ow (fun o => { o with acc := o.acc.set f.client (some f) })
    let takes (z : State) := exec (.erapFrame t p d sec) s = .next ((s.at_ t).finish z)
    (frameTaken d false = false → takes x) ∧
    (frameTaken d false = true →
      (16 ≤ (s.erapQ.filter (fun f => f.port = p.val)).length → takes (x.bump SYS.ERAP_DROP_CNT)) ∧
      ((s.erapQ.filter (fun f => f.port = p.val)).length < 16 →
        takes ({ (if f.bad = 0 then noted else y) with erapQ := insFrame g s.erapQ } : State).erapNext) ∧
      (s.erapQ = [] → f.bad = 0 → noted.replayOf f = none → takes { noted with erapQ := [g] }) ∧
      (s.erapQ = [] → f.bad = frBadVersion →
        let z : State := { y with erapQ := [g] }
        takes { z.erapTx g (g.respond frBadVersion 0 f.body) with erapQ := [] }) ∧
      (s.erapQ = [] → f.bad = frBadFormat →
        let z : State := { y with erapQ := [g] }
        let w := (z.bump SYS.ERAP_BAD_CNT).set1 (HS.EVT_ERAP_BAD p)
        takes { w.erapTx g (g.respond frBadFormat 0 f.body) with erapQ := [] }))

/-- The front frame executes (R14, R315, R317, R318, R323, R324, R326 to R328), where it is a new, well-formed one: ACCESS runs
its entries in order; RENEW, RELEASE, HANDOVER and LOAD act for the owner and answer their status, and answer NOT_OWNER for anyone
else; a map load waits while an apply runs (R267). -/
def Obligations.FramesExecute : Prop :=
  ∀ (s : State) (t : Nat) (f : ErapFrame) (q : List ErapFrame), s.Running t → s.erapQ = f :: q → f.bad = 0 →
    let z := s.at_ t
    z.replayOf f = none →
    let x := z.taken f
    (f.type = 1 → let r := x.entries (x.frameOwns f) f.body f.count
      exec (.access t) s = .next (z.finish (r.2.answer f frOk 0 r.1))) ∧
    (∀ (c : Instr) (kind : Bool) (act : State → Nat × State),
      (c, kind, act) ∈ ([
        (.renew t, f.type = 3, fun s => (frOk, s)),
        (.release t, f.type = 4, fun s => (frOk, s.release)),
        (.handover t, f.type = 5, fun s => s.handover (fieldB f.body 0 1)),
        (.loadImage t, f.type = 6 && f.target = 0, fun s => s.loadImg f),
        (.loadMap t, f.type = 6 && f.target = 1, fun s => s.loadRows f),
        (.loadRecovery t, f.type = 6 && f.target = 2, fun s => s.loadRec f)] : List (Instr × Bool × (State → Nat × State))) →
      kind = true →
      (x.frameOwns f = true → (c = .loadMap t → z.applying = false) → exec c s = .next (z.finish ((act x).2.answer f (act x).1 0 f.body))) ∧
      (x.frameOwns f = false → exec c s = .next (z.finish (x.answer f frNotOwner 0 f.body)))) ∧
    (f.type = 6 → f.target = 1 → x.frameOwns f = true → z.applying = true → exec (.loadMap t) s = .next (z.finish z)) ∧
    (f.type = 2 →
      let c : Claim := { m := f.client, prio := fieldB f.body 0 1, nonce := fieldB f.body 4 4, req := some f }
      let r := x.claim c f.arrived
      ((z.own.owner = none ∨ z.own.owner = some f.client) →
        (∀ st tok, r.1 = .answer st tok → exec (.claim t) s = .next (z.finish (r.2.answer f st tok r.2.claimBody))) ∧
        (r.1 = .held → exec (.claim t) s = .next (z.finish r.2.erapNext))))

/-- Ownership (R320 to R324): with no owner a claim is held and opens a window of 10 ms; the owner's own claim is granted and sets
its PRIO; another's is refused; at the close of the window the claim of the lowest PRIO wins; a lease that has run out ends the
ownership, an offer that has lapsed ends; RELEASE ends it; HANDOVER offers it for 50 ms.

NOTIFY (R329): a client that is due one is sent it once no holdoff runs, at once or at the holdoff's end; a client that is not
due one is sent none. -/
def Obligations.OwnershipAndNotification : Prop :=
  (∀ (s : State) (t : Nat), s.Running t →
     (∀ (c : Claim) (at_ : Nat), c.m < 2 → s.own.offer = none →
       (s.own.owner = none → (s.claim c at_).1 = .held ∧ (s.claim c at_).2 = { s with own := { s.own with
           window := s.own.window.orElse (fun _ => some (s.mono + 10 * tickMs)),
           claims := s.own.claims.filter (fun x => x.m ≠ c.m) ++ [c] } }) ∧
       (∀ o, s.own.owner = some o → s.mono < s.own.leaseEnd →
         (o = c.m → (s.claim c at_).1 = .answer frOk s.own.token ∧ (s.claim c at_).2 =
           { s with own := { s.own with prio := c.prio, leaseEnd := max s.own.leaseEnd (at_ + 200 * tickMs) } }) ∧
         (o ≠ c.m → s.claim c at_ = (.answer frOwned 0, s.set1 SYS.EVT_CLAIM_REFUSED)))) ∧
     (∀ c w, winner c = some w → w ∈ c ∧ ∀ d ∈ c, w.prio ≤ d.prio) ∧
     (∀ e c, s.own.window = some e → s.own.claims = [c] → e ≤ max s.mono t → (s.at_ t).rngOk = true →
       let x := (s.at_ t).ow (fun o => { o with window := none, claims := [] })
       let y := (x.grant c.m c.prio x.mono).set1 SYS.EVT_OWNER_GRANTED
       exec (.electionClose t) s = .next ((s.at_ t).finish (y.claimAnswer c frOk y.own.token (ascii "OK\r\nmr> ")))) ∧
     (s.own.owner.isSome = true → s.own.leaseEnd ≤ max s.mono t →
       exec (.leaseExpiry t) s = .next ((s.at_ t).finish ((s.at_ t).ownerGone.raise SYS.EVT_OWNER_LOST 0))) ∧
     (max s.mono t < s.own.leaseEnd → exec (.leaseExpiry t) s = .next ((s.at_ t).finish (s.at_ t))) ∧
     (∀ m e, s.own.offer = some (m, e) → e ≤ max s.mono t →
       Completes (.handoverOfferLapse t) s (fun u => u.own.offer = none ∧ u.own.owner = s.own.owner ∧ u.own.token = s.own.token ∧
         u.regs = s.regs ∧ MemKept s u)) ∧
     s.release.own.owner = none ∧ s.release.own.token = 0 ∧ s.release.on SYS.EVT_RELEASED = true ∧
     (∀ m, m < 2 → s.own.owner ≠ some m → s.handover m = (frOk, s.ow (fun o => { o with offer := some (m, s.mono + 50 * tickMs) })))) ∧
  (∀ (s : State) (t : Nat) (c : Fin 2), s.Running t →
     let x := s.at_ t
     (s.own.notifyDue.getD c false = true → x.holdoffOver c = true →
       exec (.notify t c) s = .next (x.finish (x.sendNotify c)) ∧
       ((s.own.notifyAt.getD c none).isSome = true → exec (.holdoffExpiry t c) s = .next (x.finish (x.sendNotify c)))) ∧
     ((s.own.notifyDue.getD c false = false ∨ x.holdoffOver c = false) →
       Completes (.notify t c) s (fun u => u.outbox = s.outbox ∧ u.regs = s.regs ∧ MemKept s u) ∧
       Completes (.holdoffExpiry t c) s (fun u => u.outbox = s.outbox ∧ u.regs = s.regs ∧ MemKept s u)))

/-! ### Device states, faults, power -/

/-- What moves the device between its states (R327, R349, R350, R434, R435, R438): Noon entry and the restart's end start the
pipeline where their checks pass and are C3 where they do not; Dusk ends when its drain is complete, or at its limit, counted; the
last Dawn step enters Ready, raises FAULT_N and starts the heartbeat; an image verification ends with its code, in Hold too; a
Noon entry waits for one that runs. How a verification ends then is assumption 113's choice. -/
def Obligations.DeviceStateChanges : Prop :=
  ∀ (s : State) (t : Nat) (b : Bool), s.Running t →
    let x := s.at_ t
    (s.dev = dsReady → s.safety.noonEntry = true → s.on SYS.IMG_STAT_BUSY = true → exec (.noonEntryComplete t b) s = .next (x.finish x)) ∧
    (s.dev = dsReady → s.safety.noonEntry = true → s.on SYS.IMG_STAT_BUSY = false →
      exec (.noonEntryComplete t false) s = .next (x.finish (x.plain 0x039 3)) ∧
      (let y := (x.refill.clearVoxels.startNoon).put BIST.STAT_GOLD_DEF 0
       exec (.noonEntryComplete t true) s = .next (x.finish
         { y with age := { y.age with runAt := y.age.runAt.orElse (fun _ => some y.mono), defer := 0 } }))) ∧
    (s.dev = dsMidnight → s.safety.refilled = false →
      exec (.refillComplete t true) s = .next (x.finish (x.plain 0x039 3)) ∧
      exec (.refillComplete t false) s = .next (x.finish { x.refill with safety := { x.safety with refilled := true } })) ∧
    (s.dev = dsMidnight → s.safety.refilled = true →
      exec (.refillCheckDone t true none) s = .next (x.finish x.startNoon) ∧
      exec (.refillCheckDone t false none) s = .next (x.finish (x.plain 0x039 3)) ∧
      (∀ g a, exec (.refillCheckDone t b (some (g, a))) s = .next (x.finish (x.spdUe g a false)))) ∧
    (s.dev = dsDusk →
      (s.drained = true → exec (.drainComplete t b) s = .next (x.finish (x.endDusk b))) ∧
      (s.drained = false → s.safety.duskAt + s.get PM.DUSK_MS * tickMs ≤ x.mono →
        exec (.duskTo t) s = .next (x.finish ((x.bump PM.DUSK_TO_CNT).raise PM.EVT_DUSK_TO 1).duskEnd))) ∧
    (s.dev = dsDawn → s.sec.waits = none → s.sec.fwHead ≠ [] → s.on PLK.CTRL_EN = false →
      Completes (.lastDawnStepComplete t) s (fun u => u.dev = dsReady ∧ u.pins = { s.pins with hbOut := true, faultN := true } ∧ u.spd = [] ∧ u.tags = [] ∧
        u.dram = s.dram ∧ u.sec = s.sec ∧ u.hosts = s.hosts ∧ u.own.owner = s.own.owner ∧ u.outbox = s.outbox)) ∧
    (s.on SYS.IMG_STAT_BUSY = true → s.headCheck = true → exec (.imageVerifyDone t b) s = .next (x.finish x)) ∧
    (s.on SYS.IMG_STAT_BUSY = true → s.headCheck = false → (s.dev = dsDawn ∨ s.dev = dsReady ∨ s.dev = dsHold) →
      (x.imageCode x.bufImage b ≠ 0 → Completes (.imageVerifyDone t b) s (fun u =>
        u.get SYS.IMG_STAT_CODE = x.imageCode x.bufImage b % 16 ∧ u.on SYS.EVT_IMG_FAIL = true ∧ u.on SYS.IMG_STAT_BUSY = false ∧
        u.image = s.image ∧ RegsBut [SYS.IMG_STAT.addr, SYS.EVT.addr] s u ∧ MemKept s u)) ∧
      let y := x.put SYS.IMG_STAT_BUSY 0
      exec (.imageVerifyDone t b) s = .next (x.finish
        (if x.imageCode x.bufImage b = 0 then ((y.loadImage x.bufImage 2).put SYS.IMG_STAT_CODE 0).set1 SYS.EVT_IMG_DONE
         else (y.put SYS.IMG_STAT_CODE (x.imageCode x.bufImage b)).set1 SYS.EVT_IMG_FAIL)))

/-- Temperature, rails, clocks (R445, R447, R450, R466): readings are shown, the DRAM runs hot above 85 degrees, and with all
below THERM_HI nothing is reported; a rail in tolerance or not enabled does nothing, one outside is C3; a failed regulator counts
as a failed transaction; the loss of the reference is C3; a PLL that unlocks hands its service to the spare PLL, C2, or C3 where
that already serves. -/
def Obligations.PowerMonitors : Prop :=
  ∀ (s : State) (t : Nat), s.Running t →
    let x := s.at_ t
    (∀ temps : List Int, temps.length = 6 → (∀ v ∈ temps, v ≤ 130 * 16 ∧ v ≤ (s.get PM.THERM_HI_C : Int) * 16 ∧ 0 ≤ v) →
      Completes (.thermalRead t temps) s (fun u => (∀ i : Fin 6, (u.get (PM.TEMP_C16 i) : Int) = temps.getD i.val 0) ∧
        (∀ d : Fin 2, u.get (DRAM.STAT_HOT d) = b2n (decide (85 * 16 < temps.getD d.val 0))) ∧ u.safety.flog = s.safety.flog ∧ MemKept s u)) ∧
    (∀ rail : Fin 12, (4 ≤ rail.val ∨ s.on (PM.VCMP_EN rail) = true) →
      exec (.railCheck t rail .under) s = .next (x.finish (x.raise PM.EVT_RAIL_UV 3)) ∧
      exec (.railCheck t rail .over) s = .next (x.finish (x.raise PM.EVT_RAIL_OV 3)) ∧
      exec (.railCheck t rail .ok) s = .next (x.finish x)) ∧
    exec (.pmbAlert t [true]) s = .next (x.finish ((x.bump PM.PMBUS_ERR_CNT).raise PM.EVT_PMBUS_ERR 1)) ∧
    exec (.refclkLost t) s = .next (x.finish ((x.put CM.STAT_REFCLK_OK 0).raise CM.EVT_REFCLK_LOST 3)) ∧
    (∀ pll : Fin 6, let y := x.put CM.STAT_PLL_LOCK (withBits (s.get CM.STAT_PLL_LOCK) pll 1 0)
      let z := ((y.put CM.LAST_DOMAIN (pllDomain pll)).set1 CM.LAST_VALID).bump CM.UNLOCK_CNT
      let use := s.get CM.STAT_SPARE_USE
      (bitOf use (pllBase pll) = false → exec (.pllUnlock t pll) s = .next (x.finish
        (((z.put CM.STAT_SPARE_USE (Nat.lor use (2 ^ pllBase pll))).set1 CM.EVT_SPARE_SWITCH).raise CM.EVT_PLL_UNLOCK 2))) ∧
      (bitOf use (pllBase pll) = true → exec (.pllUnlock t pll) s = .next (x.finish (z.raise CM.EVT_PLL_UNLOCK 3)))) ∧
    (∀ dom : Fin 27, (17 ≤ dom.val → dom.val ≤ 24 → exec (.clkWindow t dom) s = .next (x.finish (x.headDown (dom.val - 17)))) ∧
      (dom.val < 17 ∨ 24 < dom.val → exec (.clkWindow t dom) s = .next (x.finish (x.clockEvent CM.EVT_CLK_WINDOW dom (domBase dom)))))

/-! ### Self-test, maintenance, ageing, telemetry -/

/-- Self-test slices (R368 to R372): the slice whose turn it is starts where it may and has room; one that ends in time with the
expected signature counts as run and clears its failure; with any other it fails; one past its limit is aborted, C1. -/
def Obligations.SlicesRun : Prop :=
  ∀ (s : State) (t : Nat), s.Running t →
    let x := s.at_ t
    (∀ id g, x.sliceTurn = some (id, g) → s.age.slice = none → (s.dev = dsNoon ∨ s.dev = dsReady) →
      let y := x.msRequest sliceAct id
      (y.msCanStart sliceAct id = true → y.sliceRoom id = true →
        let z := (y.msStart sliceAct id).ag (fun a => { a with slice := some (id, g, y.mono), sliceNext := (id + 1) % 13 })
        exec (.sliceStart t) s = .next (x.finish (((z.set1 BIST.STAT_RUNNING).put BIST.STAT_CUR id).spareFor id true))) ∧
      (y.msCanStart sliceAct id = false → exec (.sliceStart t) s = .next (x.finish y))) ∧
    (∀ id g at_, s.age.slice = some (id, g, at_) →
      (x.mono < at_ + sliceLimit id → ∀ words passes,
        let y := (x.sliceOver id g).bump BIST.SLICE_RUN_CNT
        (sliceSig words passes = (Config.bistRom id g).toNat → exec (.sliceDone t words passes) s = .next (x.finish
          (y.failGone id g))) ∧
        (sliceSig words passes ≠ (Config.bistRom id g).toNat → exec (.sliceDone t words passes) s = .next (x.finish
          (y.sliceFail id g (sliceSig words passes) false)))) ∧
      (at_ + sliceLimit id ≤ x.mono →
        let y := ((x.sliceOver id g).bump BIST.ABORT_CNT).raise BIST.EVT_ABORT 1
        exec (.abort t) s = .next (x.finish (y.random.2.sliceFail id g y.random.1 true))))

/-- The Maintenance Scheduler (R372 to R375, R379): a calibration whose timer has run is requested and, with nothing to keep it,
done at once; an activity that has not started by its deadline is missed, counted and dropped; a round that takes too long is
missed once; a request that is neither due nor pending changes nothing. -/
def Obligations.MaintenanceTimers : Prop :=
  ∀ (s : State) (t : Nat) (u : Fin 2) (port : Fin 13), s.Running t →
    let x := s.at_ t
    (s.age.zqAt.getD u 0 + 128 * tickMs ≤ x.mono →
      let y := (x.msRequest 7 u).ag (fun a => { a with zqAt := a.zqAt.set u x.mono })
      (y.msCanStart 7 u = true → exec (.zqCalibration t u) s = .next (x.finish ((y.msStart 7 u).msEnd 7 u))) ∧
      (y.msCanStart 7 u = false → exec (.zqCalibration t u) s = .next (x.finish y))) ∧
    (s.age.trainAt.getD u 0 + 1024 * tickMs ≤ x.mono →
      let y := (x.msRequest 7 (2 + u.val)).ag (fun a => { a with trainAt := a.trainAt.set u x.mono })
      y.msCanStart 7 (2 + u.val) = true →
        exec (.readRetraining t u) s = .next (x.finish ((y.msStart 7 (2 + u.val)).msEnd 7 (2 + u.val)))) ∧
    (s.age.phyAt.getD port 0 + tickS ≤ x.mono →
      let y := (x.msRequest 8 port).ag (fun a => { a with phyAt := a.phyAt.set port x.mono })
      y.msCanStart 8 port = true → exec (.portPhyCalibration t port) s = .next (x.finish ((y.msStart 8 port).msEnd 8 port))) ∧
    (∀ (code : Fin 12) (inst : Nat) (a : Act), s.ms.pend.find? (fun a => a.code = code.val && a.inst = inst) = some a →
      x.msAllowed code = true → x.msLate a = true → code.val ≠ 1 →
      exec (.missed t code inst) s = .next (x.finish ((x.msMiss code (instNum code inst)).msDrop code inst))) ∧
    (s.age.roundAt + s.get BIST.ROUND_S * tickS ≤ x.mono → s.age.roundMiss = false → x.msAllowed 6 = true →
      exec (.roundTimeout t) s = .next (x.finish
        ((x.ag (fun a => { a with roundMiss := true })).msMiss 6 ((s.age.slice.map (fun e => e.1)).getD s.age.sliceNext)))) ∧
    (x.mono < s.age.zqAt.getD u 0 + 128 * tickMs → s.ms.pend = [] →
      Completes (.zqCalibration t u) s (fun z => z.ms = s.ms ∧ z.age = s.age ∧ z.regs = s.regs ∧ MemKept s z)) ∧
    (∀ (s : State) (code inst : Nat), code < 12 → (s.msMiss code inst).get (MS.MISSED_CNT code) = satU 32 (s.get (MS.MISSED_CNT code) + 1))

/-- Scrub, ageing, telemetry (R378, R380 to R386): a due scrub read goes on to the next granule; an ageing run that may start
measures, judges every die and writes its record; a canary below its limit in Noon raises the set point, C2, or is C3 at the fused
limit; 50,000 hours are reported once; a due telemetry snapshot is numbered, kept, and sent where SEND is 1. -/
def Obligations.AgeingAndTelemetry : Prop :=
  let measure (r : AgeMeas) (y : State) : State :=
    let y := (List.range 4).foldl (fun s d =>
      let m := r.slack.getD d (255, 0)
      ((s.put (AGE.SLACK_PS_WORST d) (satU 8 m.1)).put (AGE.SLACK_PS_QUAD d) m.2).avsPlan d m.1 (r.avsFail.getD d false)) y
    let y := (List.range 6).foldl (fun s i => s.put (AGE.RO_KHZ i) (satU 32 (r.ro.getD i 0))) y
    let y := (List.range 2).foldl (fun s u => s.refPlan u (r.retention.getD u 0)) y
    let y := if r.eyes.any (fun e => decide (e.1 < 20)) then y.raise AGE.EVT_EYE_LOW 0 else y
    let y := (List.range 2).foldl (fun s u =>
      let e := r.eyeDram.getD u (100, 100)
      let s := (s.put (DRAM.EYE_HEIGHT u) (satU 8 e.1)).put (DRAM.EYE_WIDTH u) (satU 8 e.2)
      if e.1 < 20 then s.raise (DRAM.EVT_EYE_LOW u) 0 else s) y
    let y := if r.reLow then y.raise AGE.EVT_EYE_LOW 1 else y
    (y.ag (fun a => { a with eyeMin := (r.eyes ++ r.eyeDram).foldl (fun m e => (min m.1 e.1, min m.2 e.2)) (255, 255) })).writeAgeLog r.logFail
  ∀ (s : State) (t : Nat), s.Running t →
    let x := s.at_ t
    (∀ u : Fin 2, s.age.scrubAt.getD u 0 + s.get (DRAM.SCRUB_INT_NS u) * tickNs ≤ x.mono → x.msAllowed 11 = true →
      (∀ a ∈ s.ms.run, a.code ≠ 9) → s.age.dramInj.getD u 0 = 0 → s.age.scrubNext.getD u 0 + 1 < 2 ^ 25 →
      Completes (.dramScrubRead t u .clean) s (fun z => z.regs = s.regs ∧ MemKept s z ∧
        z.age = { s.age with scrubAt := s.age.scrubAt.set u x.mono, scrubNext := s.age.scrubNext.set u (s.age.scrubNext.getD u 0 + 1) })) ∧
    (∀ r : AgeMeas, s.age.runAt = none → x.msCanStart 9 0 = false →
      exec (.ageingMeasurement t r) s = .next (x.finish x)) ∧
    (∀ r : AgeMeas, s.age.runAt = none → x.msCanStart 9 0 = true →
      exec (.ageingMeasurement t r) s = .next (x.finish ((measure r (x.msStart 9 0)).msEnd 9 0))) ∧
    (∀ (die : Fin 4) (ps : Nat), s.dev = dsNoon → ps < s.get AGE.SLACK_CANARY_PS →
      (s.getI (AGE.AVS_FUSE_MAX die) ≤ s.getI (AGE.AVS_OFS die) →
        exec (.canary t die ps) s = .next (x.finish (x.raise AGE.EVT_CANARY 3))) ∧
      (s.getI (AGE.AVS_OFS die) < s.getI (AGE.AVS_FUSE_MAX die) → exec (.canary t die ps) s = .next (x.finish
        ((x.avsTo die (min (s.getI (AGE.AVS_OFS die) + 5) (s.getI (AGE.AVS_FUSE_MAX die)))).raise AGE.EVT_CANARY 2)))) ∧
    (50000 ≤ x.hours → s.age.limit = false →
      exec (.lifeLimit t) s = .next (x.finish ((x.ag (fun a => { a with limit := true })).raise AGE.EVT_LIFE_LIMIT 0))) ∧
    (∀ r : TelemInput, s.age.telAt + s.get AGE.TELEM_PERIOD_MS * tickMs ≤ x.mono → x.msAllowed 10 = true → s.age.telWait = [] →
      s.on AGE.TELEM_SEND = false → s.dev ≠ dsHold →
      Completes (.telemetrySnapshot t r) s (fun u => u.get AGE.TEL_SEQ = (s.get AGE.TEL_SEQ + 1) % 2 ^ 32 ∧ u.age.telAt = x.mono ∧
        u.age.colMax = 0 ∧ u.age.wedgeMax = 0 ∧ u.age.telWait = [] ∧ RegsBut [AGE.TEL_SEQ.addr] s u ∧ MemKept s u ∧
        (∃ b : Bytes, u.age.telRing.getLast? = some b ∧ b = x.telBody r ((s.get AGE.TEL_SEQ + 1) % 2 ^ 32) ++
          leBytes 4 (crc32 (x.telBody r ((s.get AGE.TEL_SEQ + 1) % 2 ^ 32))))))

/-! ### Partner link -/

/-- The session (R393, R395 to R397, R407, R410): a lane that may serve is shown, and with no session a HELLO is sent; a lane lost
is no longer shown; a HELLO of the other role starts the session with the partner's slots, one of the own role is a conflict, C1,
that ends a session; an idle link sends IDLE; IDLE acknowledges; frames unacknowledged for 4 us are sent again; an edge of the
heartbeat is noted. The bytes of HELLO stand in the order of assumption 114. -/
def Obligations.PartnerSession : Prop :=
  ∀ (s : State) (t : Nat), s.Running t →
    let x := s.at_ t
    (∀ l : Fin 3, s.linkRuns = true → s.laneServes l = true →
      let y := x.put PLK.STAT_LANES (Nat.lor (s.get PLK.STAT_LANES) (2 ^ l.val))
      (s.linkAlive = true → exec (.laneLock t l) s = .next (x.finish y)) ∧
      (s.linkAlive = false → exec (.laneLock t l) s = .next (x.finish
        (((y.put PLK.STAT_STATE 2).pl (fun k => { k with rxSeq := 0, lastRx := x.mono })).sendHello)))) ∧
    (∀ l : Fin 3, let lanes := withBits (s.get PLK.STAT_LANES) l.val 1 0
      Completes (.laneLockLoss t l) s (fun u => u.get PLK.STAT_LANES = lanes ∧
      u.get PLK.STAT_STATE = (if lanes = 0 ∧ s.get PLK.STAT_STATE = 2 then 1 else s.get PLK.STAT_STATE) ∧
      u.plk = s.plk ∧ RegsBut [PLK.STAT.addr] s u ∧ MemKept s u)) ∧
    (∀ (hd : LinkHdr) (h : HelloInfo), s.linkAlive = true → hd.crcOk = true →
      let y := (x.pl (fun k => { k with rxSeq := hd.lseq, lastRx := x.mono })).linkAck hd.ack
      (b2n h.role = y.get SYS.STATE_PAIR_ROLE →
        let w := y.put PLK.STAT_STATE 2
        exec (.hello t hd h) s = .next (x.finish ((if s.linkUp then w.sessionEnd else w).raise PLK.EVT_ROLE_CONFLICT 1))) ∧
      (b2n h.role ≠ y.get SYS.STATE_PAIR_ROLE →
        let z := (if s.linkUp then y.sendHello else y).sessionStart.pl (fun k => { k with remote := h.local_ % 256 })
        let own := beNat (sha256 (sliceB s.image 28 32 ++ sliceB s.image 9 1))
        exec (.hello t hd h) s = .next (x.finish ((List.range 8).foldl (fun s i => s.slotClash i)
          ((z.put PLK.STAT_IMG_MATCH (b2n (h.digest = own))).set1If (decide (h.digest ≠ own)) PLK.EVT_IMG_MISMATCH))))) ∧
    (s.linkAlive = true → s.plk.lastTx + tickUs ≤ x.mono →
      Completes (.idle t) s (fun u => u.plk = { s.plk with lastTx := x.mono } ∧ u.outbox = s.outbox ++ [.link (LinkBody.frame { type := 0x00 } 0 s.plk.rxSeq)] ∧
        u.regs = s.regs ∧ MemKept s u)) ∧
    (∀ ack, s.linkAlive = true → exec (.idleRx t ack) s = .next (x.finish ((x.pl (fun k => { k with lastRx := x.mono })).linkAck ack))) ∧
    (∀ f fs, s.plk.replay = f :: fs → s.linkAlive = true → f.at_ + 4 * tickUs ≤ x.mono →
      Completes (.replayTimeout t) s (fun u => u.get PLK.REPLAY_CNT = satU 32 (s.get PLK.REPLAY_CNT + 1) ∧
        u.plk.replay = s.plk.replay.map (fun f => { f with at_ := x.mono }) ∧
        u.outbox = s.outbox ++ s.plk.replay.map (fun f => .link (f.body.frame f.lseq s.plk.rxSeq)) ∧
        RegsBut [PLK.REPLAY_CNT.addr] s u ∧ MemKept s u)) ∧
    Completes (.partnerHbInEdge t) s (fun u => u.plk = { s.plk with hbAt := x.mono, hbLost := false } ∧ u.on PLK.STAT_HB = true ∧
      RegsBut [PLK.STAT.addr] s u ∧ MemKept s u)

/-- Sequenced frames received while the session is up (R209, R277, R396, R399, R400, R403, R405): the next in order is taken and
acknowledges; one out of order only acknowledges; one whose CRC fails is counted. `y` is the state in which a frame is taken. -/
def Obligations.PartnerFramesTaken : Prop :=
  ∀ (s : State) (t : Nat) (hd : LinkHdr), s.Running t → s.linkUp = true →
    let x := s.at_ t
    let w := (x.pl (fun k => { k with lastRx := x.mono })).linkAck hd.ack
    let y := w.pl (fun k => { k with rxSeq := hd.lseq })
    (∀ (c : Instr) (f : State → State) (slot : Fin 8) (key : Bool) (b : Bytes) (recs : List MapRec) (errs : List (Fin 2 × RowKey × EccRes)) (n a1 a2 : Nat), (c, f) ∈ ([
        (.rej t hd, fun s => s.mirRej),
        (.fwd t hd slot key b, fun s => if bitOf s.localSlots slot.val then s else s.fwdPacket slot key b),
        (.mapck t hd recs errs, fun s => (s.mp (fun m => { m with ptn := m.ptn ++ recs })).mapCompareAll errs),
        (.drop t hd slot n a1 a2, fun s => [a1, a2].foldl
          (fun s a => s.setWd (s.wedgeOf slot.val a) (fun x => { x with overflow := true }))
          ((s.addCnt PLK.RX_GAP_CNT n).pl (fun k => { k with rxFwd := k.rxFwd.modify slot.val (fun e => e.map (fun m => (m + n) % 2 ^ 16)) })))]
        : List (Instr × (State → State))) →
      (hd.crcOk = true → hd.lseq = (w.plk.rxSeq + 1) % 2 ^ 32 → exec c s = .next (x.finish (f y))) ∧
      (hd.crcOk = true → hd.lseq ≠ (w.plk.rxSeq + 1) % 2 ^ 32 → exec c s = .next (x.finish w)) ∧
      (hd.crcOk = false → Completes c s (fun u => u.plk = { s.plk with lastRx := x.mono } ∧ RegsBut [PLK.CRC_ERR_CNT.addr] s u ∧
        u.get PLK.CRC_ERR_CNT = satU 32 (s.get PLK.CRC_ERR_CNT + 1) ∧ MemKept s u))) ∧
    (hd.crcOk = true → hd.lseq = (w.plk.rxSeq + 1) % 2 ^ 32 →
      (∀ rows, y.mapOwner = true → exec (.maprow t hd rows) s = .next (x.finish y)) ∧
      (∀ k u b, y.mapOwner = false → y.activeSlot k.level = k.slot →
        let pb := partB (y.lvlFp16 k.level) (partFeat y.get k.level)
        let part (i : Nat) : MubEntry :=
          { die := 2 * u.val + i, key := k, sums := List.replicate (partFeat y.get k.level) 0, put := some (sliceB b (i * pb) pb) }
        exec (.maprow t hd [(k, u, b)]) s = .next (x.finish (y.mp (fun m => { m with resync := m.resync ++ [part 0, part 1] })))) ∧
      (∀ r, y.xcOn = true →
        (∀ o, y.plk.xcOwn.find? (fun o => y.xcMatch o.xr r) = some o →
          exec (.xc t hd r) s = .next (x.finish ((y.pl (fun k => { k with xcOwn := k.xcOwn.erase o })).xcJudge o.xr r))) ∧
        (y.plk.xcOwn.find? (fun o => y.xcMatch o.xr r) = none →
          exec (.xc t hd r) s = .next (x.finish (y.pl (fun k => { k with xcPtn := k.xcPtn ++ [{ xr := r, at_ := y.mono }] }))))) ∧
      (∀ part line, 79 < fieldB line 0 2 → exec (.mirror t hd part line) s = .next (x.finish (y.linkSend { type := 0x09 }))) ∧
      (∀ part line, fieldB line 0 2 ≤ 79 → (y.tile (fieldB line 0 2)).win = [] →
        let g := fieldB line 0 2
        let p : Piece := { src := 0x7F, xfer := hd.lseq, win := fieldB line 2 1, ofs := fieldB line 4 4, part := part, data := sliceB line 8 504 }
        exec (.mirror t hd part line) s = .next (x.finish ((y.setTile g (fun k => { k with win := k.win ++ [p] })).winNext g)))) ∧
    (∀ own ptn, own.digest = ptn.digest → (s.xcJudge own ptn).get PLK.XC_MATCH_CNT = satU 32 (s.get PLK.XC_MATCH_CNT + 1))

/-- Frames, status, waiting records and mirrored lines (R54, R209, R394, R402, R403, R405): a frame is its header, its payload and
the CRC-32 over both; TIME goes out once a millisecond and, received, shows the partner's state and measures TB_PTN to 1 ns;
records that have waited XC_WAIT are counted unmatched; a line of a tile's RING[2] goes to the partner. The bytes of TIME, the
floor and the first rate are those of assumptions 114, 101 and 102. -/
def Obligations.PartnerTraffic : Prop :=
  ∀ (s : State) (t : Nat) (g : Fin 80) (soft : Soft), s.Running t →
    let x := s.at_ t
    let so := x.softOn g soft
    (∀ (b : LinkBody) (lseq ack : Nat),
      let f := b.frame lseq ack
      let n := b.payload.length
      f.length = 20 + n ∧ sliceB f 16 n = b.payload ∧ fieldB f 0 1 = b.type % 256 ∧ fieldB f 1 1 = b.flags % 256 ∧
      fieldB f 2 2 = n % 2 ^ 16 ∧ fieldB f 4 4 = lseq % 2 ^ 32 ∧ fieldB f 8 4 = ack % 2 ^ 32 ∧ fieldB f 12 1 = b.slot % 256 ∧
      fieldB f (16 + n) 4 = crc32 (f.take (16 + n)) % 2 ^ 32) ∧
    (s.linkUp = true → (∀ a, s.plk.timeAt = some a → a + tickMs ≤ x.mono) →
      Completes (.timeTx t) s (fun u => u.plk = { s.plk with timeAt := some x.mono, lastTx := x.mono } ∧ u.regs = s.regs ∧ MemKept s u ∧
        u.outbox = s.outbox ++ [.link (LinkBody.frame { type := 0x07, payload := x.timePayload } 0 s.plk.rxSeq)])) ∧
    (∀ i : TimeInfo, s.linkUp = true → i.crcOk = true →
      (∀ h, bitOf (i.slots.getD h 0) 5 = false) → s.plk.remote = 0 → s.get PLK.STAT_FWD_SLOTS = 0 →
      let y := (((x.pl (fun k => { k with lastRx := x.mono })).put PLK.PTN_STATE_STATE i.state).put PLK.PTN_STATE_VEH_STATE i.vehState).put
        PLK.PTN_EPOCH i.epoch
      Completes (.time t i) s (fun u => u.get PLK.PTN_EPOCH = i.epoch % 2 ^ PLK.PTN_EPOCH.w ∧ u.get PLK.PTN_STATE_STATE = i.state % 2 ^ PLK.PTN_STATE_STATE.w ∧
        u.on TMU.STAT_PTN_VALID = true ∧ u.time.ptnOfs = some (i.offset / 16 * 16) ∧ u.plk.timeRx = x.sns / 16 ∧
        u.time = (y.ptnMeasure i.offset).time ∧ u.get PLK.STAT_FWD_SLOTS = 0)) ∧
    (let old (w : XcWait) : Bool := decide (w.at_ + s.get PLK.XC_WAIT_MS * tickMs ≤ x.mono)
     Completes (.xcWaitExpiry t) s (fun u =>
       u.plk = { s.plk with xcOwn := s.plk.xcOwn.filter (fun w => !old w), xcPtn := s.plk.xcPtn.filter (fun w => !old w) } ∧
       u.get PLK.XC_UNMATCHED_CNT = satU 32 (s.get PLK.XC_UNMATCHED_CNT + ((s.plk.xcOwn.filter old).length + (s.plk.xcPtn.filter old).length)) ∧
       RegsBut [PLK.XC_UNMATCHED_CNT.addr] s u ∧ MemKept s u)) ∧
    (so.on (RING.CFG_EN g 2) = true → 0 < so.ringOcc g 2 →
      let sends (u : State) := exec (.mirrorLineSend t g soft) s = .next (x.finish (u.softOff g))
      (∀ y, so.ringPop g 2 = (none, y) → sends y) ∧
      (∀ b y, so.ringPop g 2 = (some b, y) →
        (y.linkUp = false → sends y) ∧
        (y.linkUp = true → (79 < fieldB b 0 2 ∨ fieldB b 3 1 ≠ 0) → sends y.mirRej) ∧
        (y.linkUp = true → fieldB b 0 2 ≤ 79 → fieldB b 3 1 = 0 → sends (y.linkSend { type := 0x03, payload := b }))))

/-- Losing the partner (R407 to R409): the heartbeat's silence and the link's silence each end the session; an automatic reset
starts a pulse on PARTNER_RST_OUT, counted, unless RST_MAX have gone out within the hour; the pulse ends after 10 ms. -/
def Obligations.PartnerLost : Prop :=
  ∀ (s : State) (t : Nat), s.Running t →
    let x := s.at_ t
    (s.linkRuns = true → s.plk.hbLost = false → s.plk.hbAt + s.get PLK.TIMEOUT_HB_US * tickUs ≤ x.mono →
      let y := (((x.pl (fun k => { k with hbLost := true, hbLostAt := x.mono })).put PLK.STAT_HB 0).set1 PLK.EVT_HB_LOST).raise PLK.EVT_PARTNER_LOST 0
      exec (.hbLost t) s = .next (x.finish (if y.get PLK.STAT_STATE = 4 then y else y.partnerLost))) ∧
    (s.linkUp = true → s.plk.lastRx + s.get PLK.TIMEOUT_LINK_US * tickUs ≤ x.mono →
      exec (.linkDown t) s = .next (x.finish (x.raise PLK.EVT_LINK_DOWN 0).partnerLost)) ∧
    (s.on PLK.CTRL_AUTO_RST = true → s.plk.hbLost = true → s.dev ≠ dsHold → s.plk.pulseAt = none → s.plk.lastPulse = none →
      s.plk.hbLostAt + s.get PLK.RST_DELAY_MS * tickMs ≤ x.mono →
      let recent := s.plk.autoAt.filter (fun a => decide (x.mono < a + 3600 * tickS))
      (recent.length < s.get PLK.RST_MAX → Completes (.autoResetDelay t) s (fun u => u.pins = { s.pins with rstOut := true } ∧
        u.plk = { s.plk with autoAt := x.mono :: recent, pulseAt := some x.mono } ∧ u.on PLK.EVT_RST_SENT = true ∧
        u.get PLK.RST_CNT = satU 32 (s.get PLK.RST_CNT + 1) ∧ RegsBut [PLK.EVT.addr, PLK.RST_CNT.addr] s u ∧ MemKept s u)) ∧
      (s.get PLK.RST_MAX ≤ recent.length → Completes (.autoResetDelay t) s (fun u => u.pins = s.pins ∧ u.plk = s.plk ∧
        u.on PLK.STAT_RST_BLOCKED = true ∧ RegsBut [PLK.STAT.addr] s u ∧ MemKept s u))) ∧
    (∀ a, s.plk.pulseAt = some a →
      (a + 10 * tickMs ≤ x.mono → Completes (.resetPulseEnd t) s (fun u => u.pins = { s.pins with rstOut := false } ∧
        u.plk = { s.plk with pulseAt := none, lastPulse := some x.mono } ∧ u.regs = s.regs ∧ MemKept s u)) ∧
      (x.mono < a + 10 * tickMs → Completes (.resetPulseEnd t) s (fun u => u.pins = s.pins ∧ u.plk = s.plk ∧ u.regs = s.regs ∧ MemKept s u)))

/-! ### Security, monitor -/

/-- The Security Island's engines (R414 to R416, R418, R422, R425, R427): each operation that runs ends with its effect and its
event; a failed random source stops its consumers and is C1; a scope whose validity has passed is locked. -/
def Obligations.SecurityEngines : Prop :=
  ∀ (s : State) (t : Nat), s.Running t →
    let x := s.at_ t
    (∀ a, s.sec.flashAt = some a → Completes (.flashDone t) s (fun u =>
      u.sec = { s.sec with flash := Mem.store s.sec.flash 0 (Mem.bytes s.sec.recBuf 0 (fwLen s.sec.fwHead)), flashAt := none } ∧
      u.on SEC.EVT_FLASH_DONE = true ∧ RegsBut [SEC.EVT.addr] s u)) ∧
    (∀ cmd, s.sec.otpOp = some cmd → cmd ≠ 1 → exec (.otpDone t true) s = .next (x.finish
      ((((x.random.2.otpEffect cmd).put SEC.OTP_STAT_BUSY 0).sc (fun k => { k with otpOp := none, otpKey := [] })).set1 SEC.EVT_OTP_DONE))) ∧
    (s.sec.otpOp = some 1 → exec (.otpDone t true) s = .next (x.finish
      ((((List.range 8).foldl (fun s j => s.put (SEC.KEY_WR j) 0) ((x.random.2.otpEffect 1).put SEC.OTP_STAT_BUSY 0)).sc
        (fun k => { k with otpOp := none, otpKey := [] })).set1 SEC.EVT_OTP_DONE))) ∧
    (∀ k : Fin 4, s.sec.otpSlot = k.val → (s.otpEffect 2).get (SEC.KEYSLOT_ATTR k) = Nat.lor (s.get (SEC.KEYSLOT_ATTR k)) 4 % 2 ^ (SEC.KEYSLOT_ATTR k).w) ∧
    ((s.otpEffect 3).get SEC.ARB_VALUE = s.sec.otpTarget % 2 ^ SEC.ARB_VALUE.w) ∧
    (∀ fw img sig, s.on SEC.ATT_CTRL_BUSY = true → x.rngOk = true → s.headCheck = false → s.on SYS.IMG_STAT_BUSY = false → Completes (.attDone t fw img sig) s (fun u =>
      u.on SEC.ATT_CTRL_BUSY = false ∧ u.on SEC.ATT_CTRL_DONE = true ∧ u.on SEC.EVT_ATT_DONE = true ∧
      u.get SEC.ATT_CNT = satU 32 (s.get SEC.ATT_CNT + 1) ∧ u.sec.attBody = [] ∧
      u.sec.att = sliceB s.sec.attBody 0 88 ++ fitBytes 32 fw ++ (if s.image.isEmpty then zeroBytes 32 else fitBytes 32 img) ++
        s.sec.attBody.drop 152 ++ fitBytes 17088 sig ∧
      RegsBut [SEC.ATT_CTRL.addr, SEC.EVT.addr, SEC.ATT_CNT.addr] s u ∧ MemKept s u)) ∧
    (s.sec.rngBad = false → exec (.rngFail t) s = .next (x.finish ((x.sc (fun k => { k with rngBad := true })).raise SEC.EVT_RNG_FAIL 1))) ∧
    (s.sec.monWait = [] → Completes (.rngPass t) s (fun u => u.sec = { s.sec with rngBad := false } ∧ u.regs = s.regs ∧ MemKept s u)) ∧
    Completes (.unlockExpiry t) s (fun u => RegsBut [SEC.DBG.addr] s u ∧ u.sec = s.sec ∧ MemKept s u ∧
      (∀ i : Fin 3, u.scope i = (s.scope i && decide (x.mono < s.sec.unlockEnd.getD i.val 0))))

/-- The monitor (R321, R322, R324, R426 to R429): while it runs every line is answered on the UART: reads answer their values;
writes and ownership are for the owner with access; an unlock prints a fresh nonce, a token's bytes gather, and an accepted token
unlocks its scopes for its validity, a rejected one is counted; `lock` ends every scope; a new rate applies after its answer; an
idle session is released, one that goes on keeps its lease. `x` is the state in which a line is read. -/
def Obligations.MonitorCommands : Prop :=
  ∀ (s : State) (t : Nat), s.Running t → s.monRuns = true →
    let z := s.at_ t
    let x := z.sc (fun k => { k with lineAt := z.mono })
    let answers (c : Instr) (b : Bytes) (y : State) : Prop := exec c s = .next (z.finish (y.emit (.uart b)))
    answers (.monHelp t) (monOk (ascii " help id state rd flog claim release handover wr pop unlock tok lock baud")) x ∧
    answers (.monId t) (monOk (hexWords ([x.readReg SYS.ID.addr, x.readReg SYS.REV.addr, x.lifecycle] ++
      (List.range 4).map (fun j => x.get (SEC.SERIAL j)) ++ (List.range 8).map (fun j => x.get (SEC.DEV_PK j))))) x ∧
    answers (.monState t) (monOk (hexWords ([SYS.STATE, SYS.OWN, SI.STAT, SEC.BOOT_STAT].map (fun f => x.readReg f.addr)))) x ∧
    (∀ addr, addrOk addr = true → (x.readAt addr).1 = stOk → answers (.monRd t addr 1) (monOk (hexWords [(x.readAt addr).2])) x) ∧
    (∀ addr, addrOk addr = true → (x.readAt addr).1 ≠ stOk → answers (.monRd t addr 1) (monErr (stName (x.readAt addr).1)) x) ∧
    answers (.monFlog t) (monOk (hexWords (x.safety.flog.flatMap (fun e => (List.range 4).map e.word)))) x ∧
    (z.monMay = false → (∀ prio, answers (.monClaim t prio) (monErr "DENIED") x) ∧ answers (.monRelease t) (monErr "DENIED") x ∧
      (∀ m, answers (.monHandover t m) (monErr "DENIED") x) ∧ (∀ a d k, answers (.monWr t a d k) (monErr "DENIED") x) ∧
      answers (.monPop t) (monErr "DENIED") x) ∧
    (z.monMay = true →
      (∀ prio, prio ≤ 15 → let y := x.random.2
        let r := y.claim { m := 2, prio := prio, nonce := x.random.1, req := none } y.mono
        (∀ tok, r.1 = .answer frOk tok → answers (.monClaim t prio) (monOk []) r.2) ∧
        (r.1 = .held → exec (.monClaim t prio) s = .next (z.finish r.2))) ∧
      (z.owns 2 = true → answers (.monRelease t) (monOk []) x.release ∧
        (∀ m, m < 2 → answers (.monHandover t m) (monOk []) (x.handover m).2) ∧
        (∀ a d k, addrOk a = true → let y := (x.writeReg a d (Option.getD k 0xFFFFFFFF#32) none).2.settle.secAfter
          (x.writeReg a d (Option.getD k 0xFFFFFFFF#32) none).1 = stOk →
          answers (.monWr t a d k) (monOk (hexWords [(y.readAt a).2])) y) ∧
        (x.dev ≠ dsHold → x.pageOff 0x039 = false → let y := x.flogPop.settle.secAfter
          answers (.monPop t) (monOk (hexWords [(y.readAt SI.FLOG_POP.addr).2])) y))) ∧
    (z.rngOk = true → let r := x.randoms 8
      exec (.monUnlock t) s = .next (z.finish
        ((r.2.sc (fun k => { k with nonce := some (r.1.flatMap (leBytes 4), r.2.mono) })).emit
          (.uart (monOk (hexWords (r.1 ++ (List.range 8).map (fun j => r.2.get (SEC.DEV_PK j))))))))) ∧
    (∀ hex : Bytes, hex.length ≤ 124 → answers (.monTok t hex) (monOk []) (x.sc (fun k => { k with tok := k.tok ++ hex }))) ∧
    (s.sec.failAt = none → let y := x.sc (fun k => { k with tok := [] })
      let w := y.sc (fun k => { k with nonce := if y.nonceOk s.sec.tok then none else k.nonce })
      (y.tokenOk s.sec.tok = true → answers (.monTokEnd t true) (monOk [])
        ((w.unlockScopes (fieldB s.sec.tok 5 1) (fieldB s.sec.tok 72 4)).raise SEC.EVT_UNLOCK 0)) ∧
      answers (.monTokEnd t false) (monErr "DENIED")
        (((w.sc (fun k => { k with failAt := some z.mono })).bump SEC.UNLOCK_FAIL_CNT).raise SEC.EVT_UNLOCK_FAIL 0)) ∧
    answers (.monLock t) (monOk []) (if x.lockScopes.monMay then x.lockScopes else x.lockScopes.monRelease) ∧
    (∀ rate, rate ∈ baudRates → exec (.monBaud t rate) s = .next (z.finish ((x.emit (.uart (monOk []))).sc (fun k => { k with baud := rate })))) ∧
    (z.owns 2 = true → s.sec.lineAt + s.get SEC.MON_CFG_IDLE_S * tickS ≤ z.mono → exec (.monitorIdle t) s = .next (z.finish z.release)) ∧
    (z.owns 2 = true → s.own.leaseEnd ≤ z.mono + 150 * tickMs → exec (.monitorLeaseRenew t) s = .next (z.finish z.renewLease))

/-! ### Rules stated whole -/

/-- R43: TB_MONO is 0 at PORST_N's release. Out of reset it stands, after every command but PORST_N's own, at that command's
instant, whatever the state and whatever the command does; only PORST_N sets it to 0. Its unit is a sixteenth of a nanosecond of
REFCLK. -/
def Obligations.MonoRuns : Prop :=
  (∀ (s : State) (t : Nat) (b : BootInput), s.Inv → s.released = false →
    Completes (.porstNRelease t b) s (fun u => u.mono = 0 ∧ u.released = true)) ∧
  (∀ (c : Instr) (s u : State), s.released = true → (∀ t n, c ≠ .porstNLow t n) → (∀ t b, c ≠ .porstNRelease t b) →
    exec c s = .next u → u.mono = max s.mono (instantOf c)) ∧
  (∀ (s : State) (t n : Nat) (b : BootInput),
    (10000 ≤ n → Completes (.porstNLow t n) s (fun u => u.mono = 0)) ∧ (s.released = true → exec (.porstNRelease t b) s = .next s))

/-- R162: a count of cycles that reaches 4·(B + S) sets the tile's HANG and is C2, whatever the tile waits for; it is reported
once for the wedge. -/
def Obligations.HangReported : Prop :=
  ∀ (s : State) (t : Nat) (g : Fin 80), s.Running t →
    let z := s.at_ t
    z.tileRuns g = true → (z.tile g).busy = true → (z.tile g).hangM = false → 4 * ((z.budget g).1 + (z.budget g).2) ≤ z.tileCount g →
    let r := (z.setTile g (fun x => { x with hangM := true })).raise (TILE.EVT_HANG g) 2 (2 ^ z.tilePart g)
    exec (.hang t g) s = .next (z.finish r) ∧ r.on (TILE.EVT_HANG g) = true ∧ (s.on SI.FSQ_ACTED = false → r.safety.act = 2)

/-- R348: the restarts of the last second are those that started in it; with two of them a C2 that would restart enters Hold,
cause 2; with fewer it restarts and is one of them, in Midnight too; SI.STAT.RST_WIN reads their count. A C2 of an instant at which a
restart has started belongs to that restart. -/
def Obligations.RestartLimit : Prop :=
  ∀ s : State,
    (∀ r, r ∈ s.recentRestarts ↔ r ∈ s.safety.restarts ∧ s.mono < r + 1000 * tickMs) ∧
    bitsOf (s.readReg SI.STAT.addr) 16 2 = min 3 s.recentRestarts.length ∧
    (s.safety.act = 2 → (s.dev = dsNoon ∨ s.dev = dsMidnight) → s.safety.restarts.head? ≠ some s.mono →
      (2 ≤ s.recentRestarts.length →
        s.settle.dev = dsHold ∧ s.settle.get SI.HOLD_CAUSE_CAUSE = 2 ∧ s.settle.safety.restarts = s.safety.restarts) ∧
      (s.recentRestarts.length < 2 → s.settle.dev = dsMidnight ∧ s.settle.safety.restarts = s.mono :: s.recentRestarts))

/-- R321: in PRODUCTION, without a debug unlock, the monitor's claim and a handover that names the monitor are answered DENIED and
change no ownership; with scope MON unlocked both are taken. -/
def Obligations.MonitorMayOwn : Prop :=
  ∀ (s : State) (t : Nat), s.Running t → s.lifecycle = lcProduction →
    let z := s.at_ t
    let x := z.sc (fun k => { k with lineAt := z.mono })
    (z.scope 0 = false →
      (s.monRuns = true → ∀ prio, exec (.monClaim t prio) s = .next (z.finish (x.emit (.uart (monErr "DENIED"))))) ∧
      (s.own.owner ≠ some 2 → z.handover 2 = (frDenied, z)) ∧
      (∀ f q, s.erapQ = f :: q → f.bad = 0 → z.replayOf f = none → f.type = 5 → fieldB f.body 0 1 = 2 → (z.taken f).frameOwns f = true →
        f.client < 2 → exec (.handover t) s = .next (z.finish ((z.taken f).answer f frDenied 0 f.body)))) ∧
    (z.scope 0 = true →
      (s.monRuns = true → s.own.owner = none → s.own.offer = none → ∀ prio, prio ≤ 15 →
        let y := x.random.2
        exec (.monClaim t prio) s = .next (z.finish (y.ow (fun o => { o with
          window := o.window.orElse (fun _ => some (y.mono + 10 * tickMs))
          claims := o.claims.filter (fun k => k.m ≠ 2) ++ [{ m := 2, prio := prio, nonce := x.random.1, req := none }] })))) ∧
      (s.own.owner ≠ some 2 → z.handover 2 = (frOk, z.ow (fun o => { o with offer := some (2, z.mono + 50 * tickMs) }))))

/-- R414: a failed health test sets RNG_FAIL and is C1; until the source passes again no challenge goes out, no window closes and
no owner is made, no report is signed and no nonce is printed: each of these commands does nothing but take its instant, and the
monitor's unlock waits, to be served as the source passes. -/
def Obligations.RandomConsumersWait : Prop :=
  ∀ (s : State) (t : Nat), s.Running t →
    let z := s.at_ t
    (s.sec.rngBad = false → s.on SI.FSQ_ACTED = false → s.safety.now.at_ ≠ some z.mono → s.safety.flog.length < 16 →
      let r := (z.sc (fun k => { k with rngBad := true })).raise SEC.EVT_RNG_FAIL 1
      exec (.rngFail t) s = .next (z.finish r) ∧ r.on SEC.EVT_RNG_FAIL = true ∧ r.rngOk = false ∧
        ∃ e, r.safety.flog = s.safety.flog ++ [e] ∧ bitsOf e.w0 0 2 = 1) ∧
    (s.sec.rngBad = true →
      (∀ c, (c = .electionClose t ∨ (∃ h, c = .challengeSend t h ∨ c = .rechallengePeriod t h) ∨
          (∃ fw img sig, c = .attDone t fw img sig)) → exec c s = .next (z.finish z)) ∧
      (∀ c at_, c.m < 2 → s.own.owner ≠ some c.m → s.own.owner.isSome = true → s.mono < s.own.leaseEnd →
        (∃ e, s.own.offer = some (c.m, e) ∧ s.mono < e) → s.claim c at_ = (.waits, s)) ∧
      (s.monRuns = true → exec (.monUnlock t) s = .next (z.finish (z.sc (fun k => { k with lineAt := z.mono, monWait := k.monWait ++ [none] })))) ∧
      Completes (.rngPass t) s (fun u => u.rngOk = true ∧ u.sec.monWait = []) ∧
      (s.monRuns = true → s.sec.monWait = [none] →
        exec (.rngPass t) s = .next (z.finish (z.sc (fun k => { k with rngBad := false, monWait := [] })).monNonce)) ∧
      (s.sec.monWait = [] → Completes (.rngPass t) s (fun u => u.regs = s.regs ∧ MemKept s u)))
end

