-- ==== Sys2Proof/Laws/Sparse.lean ====
section
/-! SUPPORT. The laws of sparse maps and memories: a read after a write, writes to other places, and the canonical form that
every operation keeps. -/

namespace Sys2Proof.Laws

open Sys2Proof.Machine

variable {α : Type}

@[simp] theorem find_ins_self (k : Nat) (v : α) (m : List (Nat × α)) : find k (ins k v m) = some v := by
  induction m with
  | nil => simp [ins, find]
  | cons e m ih =>
    obtain ⟨j, u⟩ := e
    unfold ins
    split
    · simp [find]
    · split
      · simp [find]
      · simp [find, *]

theorem find_ins_of_ne {k j : Nat} (h : j ≠ k) (v : α) (m : List (Nat × α)) : find j (ins k v m) = find j m := by
  induction m with
  | nil => simp [ins, find, Ne.symm h]
  | cons e m ih =>
    obtain ⟨i, u⟩ := e
    unfold ins
    split
    · simp [find, Ne.symm h]
    · split
      · subst i; simp [find, Ne.symm h]
      · simp [find, ih]

@[simp] theorem find_del_self (k : Nat) (m : List (Nat × α)) : find k (del k m) = none := by
  induction m with
  | nil => rfl
  | cons e m ih =>
    obtain ⟨j, u⟩ := e
    by_cases h : j = k
    · simpa [del, h] using ih
    · have : del k ((j, u) :: m) = (j, u) :: del k m := by simp [del, h]
      simp [this, find, h, ih]

theorem find_del_of_ne {k j : Nat} (h : j ≠ k) (m : List (Nat × α)) : find j (del k m) = find j m := by
  induction m with
  | nil => rfl
  | cons e m ih =>
    obtain ⟨i, u⟩ := e
    by_cases hi : i = k
    · subst i
      have : del k ((k, u) :: m) = del k m := by simp [del]
      simp [this, find, Ne.symm h, ih]
    · have : del k ((i, u) :: m) = (i, u) :: del k m := by simp [del, hi]
      simp [this, find, ih]

@[simp] theorem rd_wr_self [DecidableEq α] (d : α) (m : List (Nat × α)) (k : Nat) (v : α) : rd d (wr d m k v) k = v := by
  unfold rd wr
  split <;> simp [*]

theorem rd_wr_of_ne [DecidableEq α] {k j : Nat} (h : j ≠ k) (d d' : α) (m : List (Nat × α)) (v : α) :
    rd d (wr d' m k v) j = rd d m j := by
  unfold rd wr
  split
  · rw [find_del_of_ne h]
  · rw [find_ins_of_ne h]

/-! ### The canonical form -/

theorem rising_mono {a b : Nat} (h : a ≤ b) {m : List (Nat × α)} (hm : rising b m = true) : rising a m = true := by
  cases m with
  | nil => rfl
  | cons e m =>
    simp only [rising, Bool.and_eq_true, decide_eq_true_eq] at hm ⊢
    exact ⟨h.trans hm.1, hm.2⟩

theorem rising_ins (k : Nat) (v : α) : ∀ (m : List (Nat × α)) (lo : Nat), lo ≤ k → rising lo m = true → rising lo (ins k v m) = true
  | [], lo, hk, _ => by simp [ins, rising, hk]
  | (j, u) :: m, lo, hk, hm => by
    simp only [rising, Bool.and_eq_true, decide_eq_true_eq] at hm
    unfold ins
    split
    · simp only [rising, Bool.and_eq_true, decide_eq_true_eq]
      exact ⟨hk, by omega, hm.2⟩
    · split
      · subst j; simp [rising, hk, hm.2]
      · simp only [rising, Bool.and_eq_true, decide_eq_true_eq]
        exact ⟨hm.1, rising_ins k v m (j + 1) (by omega) hm.2⟩

theorem rising_filter (p : Nat × α → Bool) : ∀ (m : List (Nat × α)) (lo : Nat), rising lo m = true → rising lo (m.filter p) = true
  | [], _, _ => rfl
  | (j, u) :: m, lo, hm => by
    simp only [rising, Bool.and_eq_true, decide_eq_true_eq] at hm
    have ih := rising_filter p m (j + 1) hm.2
    rw [List.filter_cons]
    split
    · simp [rising, hm.1, ih]
    · exact rising_mono (by omega) ih

theorem mem_ins {k : Nat} {v : α} {e : Nat × α} : ∀ {m : List (Nat × α)}, e ∈ ins k v m → e = (k, v) ∨ e ∈ m
  | [], h => by simpa [ins] using h
  | (j, u) :: m, h => by
    unfold ins at h
    split at h
    · simpa using h
    · split at h
      · rcases List.mem_cons.1 h with h | h
        · exact .inl h
        · exact .inr (List.mem_cons_of_mem _ h)
      · rcases List.mem_cons.1 h with h | h
        · exact .inr (by simp [h])
        · rcases mem_ins h with h | h
          · exact .inl h
          · exact .inr (List.mem_cons_of_mem _ h)

theorem canon_filter [DecidableEq α] {d : Nat → α} {m : List (Nat × α)} (p : Nat × α → Bool) (h : canon d m = true) :
    canon d (m.filter p) = true := by
  simp only [canon, Bool.and_eq_true, List.all_eq_true] at h ⊢
  exact ⟨rising_filter p m 0 h.1, fun e he => h.2 e (List.mem_of_mem_filter he)⟩

theorem canon_wr [DecidableEq α] {d : Nat → α} {m : List (Nat × α)} (k : Nat) (v : α) (h : canon d m = true) :
    canon d (wr (d k) m k v) = true := by
  unfold wr
  split
  · exact canon_filter _ h
  · next hv =>
    simp only [canon, Bool.and_eq_true, List.all_eq_true] at h ⊢
    refine ⟨rising_ins k v m 0 (Nat.zero_le k) h.1, fun e he => ?_⟩
    rcases mem_ins he with rfl | he
    · simpa using hv
    · exact h.2 e he

/-! ### Memories -/

@[simp] theorem byte_wr_self (m : Mem) (a : Nat) (b : Byte) : Mem.byte (wr 0 m a b) a = b := by simp [Mem.byte]

theorem byte_wr_of_ne {a c : Nat} (h : c ≠ a) (m : Mem) (b : Byte) : Mem.byte (wr 0 m a b) c = Mem.byte m c := by
  simp [Mem.byte, rd_wr_of_ne h]

theorem wf_wr {m : Mem} (a : Nat) (b : Byte) (h : Mem.wf m = true) : Mem.wf (wr 0 m a b) = true :=
  canon_wr (d := fun _ => 0) a b h

/-- A store keeps the canonical form. -/
theorem wf_store : ∀ (bs : Bytes) (m : Mem) (a : Nat), Mem.wf m = true → Mem.wf (Mem.store m a bs) = true
  | [], _, _, h => h
  | b :: bs, m, a, h => wf_store bs (wr 0 m a b) (a + 1) (wf_wr a b h)

/-- Clearing a span keeps the canonical form. -/
theorem wf_clear {m : Mem} (a n : Nat) (h : Mem.wf m = true) : Mem.wf (Mem.clear m a n) = true := canon_filter _ h

/-- A byte outside the stored span reads as before. -/
theorem byte_store_of_lt : ∀ (bs : Bytes) (m : Mem) (a c : Nat), c < a → Mem.byte (Mem.store m a bs) c = Mem.byte m c
  | [], _, _, _, _ => rfl
  | b :: bs, m, a, c, h => by
    rw [Mem.store, byte_store_of_lt bs _ (a + 1) c (by omega), byte_wr_of_ne (by omega)]

theorem byte_store_of_ge : ∀ (bs : Bytes) (m : Mem) (a c : Nat), a + bs.length ≤ c → Mem.byte (Mem.store m a bs) c = Mem.byte m c
  | [], _, _, _, _ => rfl
  | b :: bs, m, a, c, h => by
    simp only [List.length_cons] at h
    rw [Mem.store, byte_store_of_ge bs _ (a + 1) c (by omega), byte_wr_of_ne (by omega)]

/-- A stored byte reads back. -/
theorem byte_store_in : ∀ (bs : Bytes) (m : Mem) (a i : Nat) (h : i < bs.length), Mem.byte (Mem.store m a bs) (a + i) = bs[i]
  | b :: bs, m, a, 0, h => by
    have := byte_store_of_lt bs (wr 0 m a b) (a + 1) a (by omega)
    simpa [Mem.store, Mem.byte] using this
  | b :: bs, m, a, i + 1, h => by
    have := byte_store_in bs (wr 0 m a b) (a + 1) i (by simpa using h)
    simpa [Mem.store, Nat.add_assoc, Nat.add_comm 1 i] using this

/-! ### Sets of numbers -/

theorem mem_insSet {j k : Nat} {m : List Nat} : j ∈ insSet k m ↔ j = k ∨ j ∈ m := by
  induction m with
  | nil => simp [insSet]
  | cons i m ih =>
    unfold insSet
    split
    · simp
    · split
      · subst i; simp
      · simp [ih]; tauto

/-- Strictly rising numbers, all at least `lo`. -/
theorem insSet_sorted {k : Nat} {m : List Nat} (h : m.Pairwise (· < ·)) : (insSet k m).Pairwise (· < ·) := by
  induction m with
  | nil => simp [insSet]
  | cons i m ih =>
    obtain ⟨h1, h2⟩ := List.pairwise_cons.1 h
    unfold insSet
    split
    · next hk => exact List.pairwise_cons.2 ⟨fun a ha => by
        rcases List.mem_cons.1 ha with rfl | ha
        · exact hk
        · exact hk.trans (h1 a ha), h⟩
    · split
      · exact h
      · refine List.pairwise_cons.2 ⟨fun a ha => ?_, ih h2⟩
        rcases mem_insSet.1 ha with rfl | ha
        · omega
        · exact h1 a ha

end Sys2Proof.Laws
end

