-- ==== Sys2Proof/Laws/State.lean ====
section
/-! SUPPORT. The small lemmas of the updates of the state, so that no proof unfolds a record update: what each update leaves
of every field, and what it puts into its own. -/

namespace Sys2Proof.Laws

open Sys2Proof.Machine

variable (s : State)

/-! ### setReg -/

@[simp] theorem setReg_pending (a v : Nat) : (s.setReg a v).pending = s.pending := rfl
@[simp] theorem setReg_mono (a v : Nat) : (s.setReg a v).mono = s.mono := rfl
@[simp] theorem setReg_shadow (a v : Nat) : (s.setReg a v).shadow = s.shadow := rfl
@[simp] theorem setReg_time (a v : Nat) : (s.setReg a v).time = s.time := rfl
@[simp] theorem setReg_gptp (a v : Nat) : (s.setReg a v).gptp = s.gptp := rfl
@[simp] theorem setReg_trackers (a v : Nat) : (s.setReg a v).trackers = s.trackers := rfl
@[simp] theorem setReg_rev (a v : Nat) : (s.setReg a v).rev = s.rev := rfl
@[simp] theorem setReg_heads (a v : Nat) : (s.setReg a v).heads = s.heads := rfl
@[simp] theorem setReg_pose (a v : Nat) : (s.setReg a v).pose = s.pose := rfl
@[simp] theorem setReg_ing (a v : Nat) : (s.setReg a v).ing = s.ing := rfl
@[simp] theorem setReg_vhu (a v : Nat) : (s.setReg a v).vhu = s.vhu := rfl
@[simp] theorem setReg_grids (a v : Nat) : (s.setReg a v).grids = s.grids := rfl
@[simp] theorem setReg_ms (a v : Nat) : (s.setReg a v).ms = s.ms := rfl
@[simp] theorem setReg_wedges (a v : Nat) : (s.setReg a v).wedges = s.wedges := rfl
@[simp] theorem setReg_pipe (a v : Nat) : (s.setReg a v).pipe = s.pipe := rfl
@[simp] theorem setReg_tiles (a v : Nat) : (s.setReg a v).tiles = s.tiles := rfl
@[simp] theorem setReg_spd (a v : Nat) : (s.setReg a v).spd = s.spd := rfl
@[simp] theorem setReg_tags (a v : Nat) : (s.setReg a v).tags = s.tags := rfl
@[simp] theorem setReg_dram (a v : Nat) : (s.setReg a v).dram = s.dram := rfl
@[simp] theorem setReg_map (a v : Nat) : (s.setReg a v).map = s.map := rfl
@[simp] theorem setReg_out (a v : Nat) : (s.setReg a v).out = s.out := rfl
@[simp] theorem setReg_age (a v : Nat) : (s.setReg a v).age = s.age := rfl
@[simp] theorem setReg_plk (a v : Nat) : (s.setReg a v).plk = s.plk := rfl
@[simp] theorem setReg_sec (a v : Nat) : (s.setReg a v).sec = s.sec := rfl
@[simp] theorem setReg_image (a v : Nat) : (s.setReg a v).image = s.image := rfl
@[simp] theorem setReg_loadBuf (a v : Nat) : (s.setReg a v).loadBuf = s.loadBuf := rfl
@[simp] theorem setReg_erapQ (a v : Nat) : (s.setReg a v).erapQ = s.erapQ := rfl
@[simp] theorem setReg_own (a v : Nat) : (s.setReg a v).own = s.own := rfl
@[simp] theorem setReg_hosts (a v : Nat) : (s.setReg a v).hosts = s.hosts := rfl
@[simp] theorem setReg_safety (a v : Nat) : (s.setReg a v).safety = s.safety := rfl
@[simp] theorem setReg_pins (a v : Nat) : (s.setReg a v).pins = s.pins := rfl
@[simp] theorem setReg_cyc (a v : Nat) : (s.setReg a v).cyc = s.cyc := rfl
@[simp] theorem setReg_p2 (a v : Nat) : (s.setReg a v).p2 = s.p2 := rfl
@[simp] theorem setReg_free (a v : Nat) : (s.setReg a v).free = s.free := rfl
@[simp] theorem setReg_outbox (a v : Nat) : (s.setReg a v).outbox = s.outbox := rfl

/-! ### put -/

@[simp] theorem put_pending (f : Fld) (v : Nat) : (s.put f v).pending = s.pending := setReg_pending _ _ _
@[simp] theorem put_mono (f : Fld) (v : Nat) : (s.put f v).mono = s.mono := setReg_mono _ _ _
@[simp] theorem put_shadow (f : Fld) (v : Nat) : (s.put f v).shadow = s.shadow := setReg_shadow _ _ _
@[simp] theorem put_time (f : Fld) (v : Nat) : (s.put f v).time = s.time := setReg_time _ _ _
@[simp] theorem put_gptp (f : Fld) (v : Nat) : (s.put f v).gptp = s.gptp := setReg_gptp _ _ _
@[simp] theorem put_trackers (f : Fld) (v : Nat) : (s.put f v).trackers = s.trackers := setReg_trackers _ _ _
@[simp] theorem put_rev (f : Fld) (v : Nat) : (s.put f v).rev = s.rev := setReg_rev _ _ _
@[simp] theorem put_heads (f : Fld) (v : Nat) : (s.put f v).heads = s.heads := setReg_heads _ _ _
@[simp] theorem put_pose (f : Fld) (v : Nat) : (s.put f v).pose = s.pose := setReg_pose _ _ _
@[simp] theorem put_ing (f : Fld) (v : Nat) : (s.put f v).ing = s.ing := setReg_ing _ _ _
@[simp] theorem put_vhu (f : Fld) (v : Nat) : (s.put f v).vhu = s.vhu := setReg_vhu _ _ _
@[simp] theorem put_grids (f : Fld) (v : Nat) : (s.put f v).grids = s.grids := setReg_grids _ _ _
@[simp] theorem put_ms (f : Fld) (v : Nat) : (s.put f v).ms = s.ms := setReg_ms _ _ _
@[simp] theorem put_wedges (f : Fld) (v : Nat) : (s.put f v).wedges = s.wedges := setReg_wedges _ _ _
@[simp] theorem put_pipe (f : Fld) (v : Nat) : (s.put f v).pipe = s.pipe := setReg_pipe _ _ _
@[simp] theorem put_tiles (f : Fld) (v : Nat) : (s.put f v).tiles = s.tiles := setReg_tiles _ _ _
@[simp] theorem put_spd (f : Fld) (v : Nat) : (s.put f v).spd = s.spd := setReg_spd _ _ _
@[simp] theorem put_tags (f : Fld) (v : Nat) : (s.put f v).tags = s.tags := setReg_tags _ _ _
@[simp] theorem put_dram (f : Fld) (v : Nat) : (s.put f v).dram = s.dram := setReg_dram _ _ _
@[simp] theorem put_map (f : Fld) (v : Nat) : (s.put f v).map = s.map := setReg_map _ _ _
@[simp] theorem put_out (f : Fld) (v : Nat) : (s.put f v).out = s.out := setReg_out _ _ _
@[simp] theorem put_age (f : Fld) (v : Nat) : (s.put f v).age = s.age := setReg_age _ _ _
@[simp] theorem put_plk (f : Fld) (v : Nat) : (s.put f v).plk = s.plk := setReg_plk _ _ _
@[simp] theorem put_sec (f : Fld) (v : Nat) : (s.put f v).sec = s.sec := setReg_sec _ _ _
@[simp] theorem put_image (f : Fld) (v : Nat) : (s.put f v).image = s.image := setReg_image _ _ _
@[simp] theorem put_loadBuf (f : Fld) (v : Nat) : (s.put f v).loadBuf = s.loadBuf := setReg_loadBuf _ _ _
@[simp] theorem put_erapQ (f : Fld) (v : Nat) : (s.put f v).erapQ = s.erapQ := setReg_erapQ _ _ _
@[simp] theorem put_own (f : Fld) (v : Nat) : (s.put f v).own = s.own := setReg_own _ _ _
@[simp] theorem put_hosts (f : Fld) (v : Nat) : (s.put f v).hosts = s.hosts := setReg_hosts _ _ _
@[simp] theorem put_safety (f : Fld) (v : Nat) : (s.put f v).safety = s.safety := setReg_safety _ _ _
@[simp] theorem put_pins (f : Fld) (v : Nat) : (s.put f v).pins = s.pins := setReg_pins _ _ _
@[simp] theorem put_cyc (f : Fld) (v : Nat) : (s.put f v).cyc = s.cyc := setReg_cyc _ _ _
@[simp] theorem put_p2 (f : Fld) (v : Nat) : (s.put f v).p2 = s.p2 := setReg_p2 _ _ _
@[simp] theorem put_free (f : Fld) (v : Nat) : (s.put f v).free = s.free := setReg_free _ _ _
@[simp] theorem put_outbox (f : Fld) (v : Nat) : (s.put f v).outbox = s.outbox := setReg_outbox _ _ _

/-! ### set1 -/

@[simp] theorem set1_pending (f : Fld) : (s.set1 f).pending = s.pending := by simp only [State.set1, put_pending]
@[simp] theorem set1_mono (f : Fld) : (s.set1 f).mono = s.mono := by simp only [State.set1, put_mono]
@[simp] theorem set1_shadow (f : Fld) : (s.set1 f).shadow = s.shadow := by simp only [State.set1, put_shadow]
@[simp] theorem set1_time (f : Fld) : (s.set1 f).time = s.time := by simp only [State.set1, put_time]
@[simp] theorem set1_gptp (f : Fld) : (s.set1 f).gptp = s.gptp := by simp only [State.set1, put_gptp]
@[simp] theorem set1_trackers (f : Fld) : (s.set1 f).trackers = s.trackers := by simp only [State.set1, put_trackers]
@[simp] theorem set1_rev (f : Fld) : (s.set1 f).rev = s.rev := by simp only [State.set1, put_rev]
@[simp] theorem set1_heads (f : Fld) : (s.set1 f).heads = s.heads := by simp only [State.set1, put_heads]
@[simp] theorem set1_pose (f : Fld) : (s.set1 f).pose = s.pose := by simp only [State.set1, put_pose]
@[simp] theorem set1_ing (f : Fld) : (s.set1 f).ing = s.ing := by simp only [State.set1, put_ing]
@[simp] theorem set1_vhu (f : Fld) : (s.set1 f).vhu = s.vhu := by simp only [State.set1, put_vhu]
@[simp] theorem set1_grids (f : Fld) : (s.set1 f).grids = s.grids := by simp only [State.set1, put_grids]
@[simp] theorem set1_ms (f : Fld) : (s.set1 f).ms = s.ms := by simp only [State.set1, put_ms]
@[simp] theorem set1_wedges (f : Fld) : (s.set1 f).wedges = s.wedges := by simp only [State.set1, put_wedges]
@[simp] theorem set1_pipe (f : Fld) : (s.set1 f).pipe = s.pipe := by simp only [State.set1, put_pipe]
@[simp] theorem set1_tiles (f : Fld) : (s.set1 f).tiles = s.tiles := by simp only [State.set1, put_tiles]
@[simp] theorem set1_spd (f : Fld) : (s.set1 f).spd = s.spd := by simp only [State.set1, put_spd]
@[simp] theorem set1_tags (f : Fld) : (s.set1 f).tags = s.tags := by simp only [State.set1, put_tags]
@[simp] theorem set1_dram (f : Fld) : (s.set1 f).dram = s.dram := by simp only [State.set1, put_dram]
@[simp] theorem set1_map (f : Fld) : (s.set1 f).map = s.map := by simp only [State.set1, put_map]
@[simp] theorem set1_out (f : Fld) : (s.set1 f).out = s.out := by simp only [State.set1, put_out]
@[simp] theorem set1_age (f : Fld) : (s.set1 f).age = s.age := by simp only [State.set1, put_age]
@[simp] theorem set1_plk (f : Fld) : (s.set1 f).plk = s.plk := by simp only [State.set1, put_plk]
@[simp] theorem set1_sec (f : Fld) : (s.set1 f).sec = s.sec := by simp only [State.set1, put_sec]
@[simp] theorem set1_image (f : Fld) : (s.set1 f).image = s.image := by simp only [State.set1, put_image]
@[simp] theorem set1_loadBuf (f : Fld) : (s.set1 f).loadBuf = s.loadBuf := by simp only [State.set1, put_loadBuf]
@[simp] theorem set1_erapQ (f : Fld) : (s.set1 f).erapQ = s.erapQ := by simp only [State.set1, put_erapQ]
@[simp] theorem set1_own (f : Fld) : (s.set1 f).own = s.own := by simp only [State.set1, put_own]
@[simp] theorem set1_hosts (f : Fld) : (s.set1 f).hosts = s.hosts := by simp only [State.set1, put_hosts]
@[simp] theorem set1_safety (f : Fld) : (s.set1 f).safety = s.safety := by simp only [State.set1, put_safety]
@[simp] theorem set1_pins (f : Fld) : (s.set1 f).pins = s.pins := by simp only [State.set1, put_pins]
@[simp] theorem set1_p2 (f : Fld) : (s.set1 f).p2 = s.p2 := by simp only [State.set1, put_p2]
@[simp] theorem set1_free (f : Fld) : (s.set1 f).free = s.free := by simp only [State.set1, put_free]
@[simp] theorem set1_outbox (f : Fld) : (s.set1 f).outbox = s.outbox := by simp only [State.set1, put_outbox]

/-! ### set1If -/

@[simp] theorem set1If_pending (b : Bool) (f : Fld) : (s.set1If b f).pending = s.pending := by cases b; exacts [rfl, set1_pending _ _]
@[simp] theorem set1If_mono (b : Bool) (f : Fld) : (s.set1If b f).mono = s.mono := by cases b; exacts [rfl, set1_mono _ _]
@[simp] theorem set1If_shadow (b : Bool) (f : Fld) : (s.set1If b f).shadow = s.shadow := by cases b; exacts [rfl, set1_shadow _ _]
@[simp] theorem set1If_time (b : Bool) (f : Fld) : (s.set1If b f).time = s.time := by cases b; exacts [rfl, set1_time _ _]
@[simp] theorem set1If_gptp (b : Bool) (f : Fld) : (s.set1If b f).gptp = s.gptp := by cases b; exacts [rfl, set1_gptp _ _]
@[simp] theorem set1If_trackers (b : Bool) (f : Fld) : (s.set1If b f).trackers = s.trackers := by cases b; exacts [rfl, set1_trackers _ _]
@[simp] theorem set1If_rev (b : Bool) (f : Fld) : (s.set1If b f).rev = s.rev := by cases b; exacts [rfl, set1_rev _ _]
@[simp] theorem set1If_heads (b : Bool) (f : Fld) : (s.set1If b f).heads = s.heads := by cases b; exacts [rfl, set1_heads _ _]
@[simp] theorem set1If_pose (b : Bool) (f : Fld) : (s.set1If b f).pose = s.pose := by cases b; exacts [rfl, set1_pose _ _]
@[simp] theorem set1If_ing (b : Bool) (f : Fld) : (s.set1If b f).ing = s.ing := by cases b; exacts [rfl, set1_ing _ _]
@[simp] theorem set1If_vhu (b : Bool) (f : Fld) : (s.set1If b f).vhu = s.vhu := by cases b; exacts [rfl, set1_vhu _ _]
@[simp] theorem set1If_grids (b : Bool) (f : Fld) : (s.set1If b f).grids = s.grids := by cases b; exacts [rfl, set1_grids _ _]
@[simp] theorem set1If_ms (b : Bool) (f : Fld) : (s.set1If b f).ms = s.ms := by cases b; exacts [rfl, set1_ms _ _]
@[simp] theorem set1If_wedges (b : Bool) (f : Fld) : (s.set1If b f).wedges = s.wedges := by cases b; exacts [rfl, set1_wedges _ _]
@[simp] theorem set1If_pipe (b : Bool) (f : Fld) : (s.set1If b f).pipe = s.pipe := by cases b; exacts [rfl, set1_pipe _ _]
@[simp] theorem set1If_tiles (b : Bool) (f : Fld) : (s.set1If b f).tiles = s.tiles := by cases b; exacts [rfl, set1_tiles _ _]
@[simp] theorem set1If_spd (b : Bool) (f : Fld) : (s.set1If b f).spd = s.spd := by cases b; exacts [rfl, set1_spd _ _]
@[simp] theorem set1If_tags (b : Bool) (f : Fld) : (s.set1If b f).tags = s.tags := by cases b; exacts [rfl, set1_tags _ _]
@[simp] theorem set1If_dram (b : Bool) (f : Fld) : (s.set1If b f).dram = s.dram := by cases b; exacts [rfl, set1_dram _ _]
@[simp] theorem set1If_map (b : Bool) (f : Fld) : (s.set1If b f).map = s.map := by cases b; exacts [rfl, set1_map _ _]
@[simp] theorem set1If_out (b : Bool) (f : Fld) : (s.set1If b f).out = s.out := by cases b; exacts [rfl, set1_out _ _]
@[simp] theorem set1If_age (b : Bool) (f : Fld) : (s.set1If b f).age = s.age := by cases b; exacts [rfl, set1_age _ _]
@[simp] theorem set1If_plk (b : Bool) (f : Fld) : (s.set1If b f).plk = s.plk := by cases b; exacts [rfl, set1_plk _ _]
@[simp] theorem set1If_sec (b : Bool) (f : Fld) : (s.set1If b f).sec = s.sec := by cases b; exacts [rfl, set1_sec _ _]
@[simp] theorem set1If_image (b : Bool) (f : Fld) : (s.set1If b f).image = s.image := by cases b; exacts [rfl, set1_image _ _]
@[simp] theorem set1If_loadBuf (b : Bool) (f : Fld) : (s.set1If b f).loadBuf = s.loadBuf := by cases b; exacts [rfl, set1_loadBuf _ _]
@[simp] theorem set1If_erapQ (b : Bool) (f : Fld) : (s.set1If b f).erapQ = s.erapQ := by cases b; exacts [rfl, set1_erapQ _ _]
@[simp] theorem set1If_own (b : Bool) (f : Fld) : (s.set1If b f).own = s.own := by cases b; exacts [rfl, set1_own _ _]
@[simp] theorem set1If_hosts (b : Bool) (f : Fld) : (s.set1If b f).hosts = s.hosts := by cases b; exacts [rfl, set1_hosts _ _]
@[simp] theorem set1If_safety (b : Bool) (f : Fld) : (s.set1If b f).safety = s.safety := by cases b; exacts [rfl, set1_safety _ _]
@[simp] theorem set1If_pins (b : Bool) (f : Fld) : (s.set1If b f).pins = s.pins := by cases b; exacts [rfl, set1_pins _ _]
@[simp] theorem set1If_p2 (b : Bool) (f : Fld) : (s.set1If b f).p2 = s.p2 := by cases b; exacts [rfl, set1_p2 _ _]
@[simp] theorem set1If_free (b : Bool) (f : Fld) : (s.set1If b f).free = s.free := by cases b; exacts [rfl, set1_free _ _]
@[simp] theorem set1If_outbox (b : Bool) (f : Fld) : (s.set1If b f).outbox = s.outbox := by cases b; exacts [rfl, set1_outbox _ _]

/-! ### addCnt -/

@[simp] theorem addCnt_pending (f : Fld) (n : Nat) : (s.addCnt f n).pending = s.pending := put_pending _ _ _
@[simp] theorem addCnt_mono (f : Fld) (n : Nat) : (s.addCnt f n).mono = s.mono := put_mono _ _ _
@[simp] theorem addCnt_shadow (f : Fld) (n : Nat) : (s.addCnt f n).shadow = s.shadow := put_shadow _ _ _
@[simp] theorem addCnt_time (f : Fld) (n : Nat) : (s.addCnt f n).time = s.time := put_time _ _ _
@[simp] theorem addCnt_gptp (f : Fld) (n : Nat) : (s.addCnt f n).gptp = s.gptp := put_gptp _ _ _
@[simp] theorem addCnt_trackers (f : Fld) (n : Nat) : (s.addCnt f n).trackers = s.trackers := put_trackers _ _ _
@[simp] theorem addCnt_rev (f : Fld) (n : Nat) : (s.addCnt f n).rev = s.rev := put_rev _ _ _
@[simp] theorem addCnt_heads (f : Fld) (n : Nat) : (s.addCnt f n).heads = s.heads := put_heads _ _ _
@[simp] theorem addCnt_pose (f : Fld) (n : Nat) : (s.addCnt f n).pose = s.pose := put_pose _ _ _
@[simp] theorem addCnt_ing (f : Fld) (n : Nat) : (s.addCnt f n).ing = s.ing := put_ing _ _ _
@[simp] theorem addCnt_vhu (f : Fld) (n : Nat) : (s.addCnt f n).vhu = s.vhu := put_vhu _ _ _
@[simp] theorem addCnt_grids (f : Fld) (n : Nat) : (s.addCnt f n).grids = s.grids := put_grids _ _ _
@[simp] theorem addCnt_ms (f : Fld) (n : Nat) : (s.addCnt f n).ms = s.ms := put_ms _ _ _
@[simp] theorem addCnt_wedges (f : Fld) (n : Nat) : (s.addCnt f n).wedges = s.wedges := put_wedges _ _ _
@[simp] theorem addCnt_pipe (f : Fld) (n : Nat) : (s.addCnt f n).pipe = s.pipe := put_pipe _ _ _
@[simp] theorem addCnt_tiles (f : Fld) (n : Nat) : (s.addCnt f n).tiles = s.tiles := put_tiles _ _ _
@[simp] theorem addCnt_spd (f : Fld) (n : Nat) : (s.addCnt f n).spd = s.spd := put_spd _ _ _
@[simp] theorem addCnt_tags (f : Fld) (n : Nat) : (s.addCnt f n).tags = s.tags := put_tags _ _ _
@[simp] theorem addCnt_dram (f : Fld) (n : Nat) : (s.addCnt f n).dram = s.dram := put_dram _ _ _
@[simp] theorem addCnt_map (f : Fld) (n : Nat) : (s.addCnt f n).map = s.map := put_map _ _ _
@[simp] theorem addCnt_out (f : Fld) (n : Nat) : (s.addCnt f n).out = s.out := put_out _ _ _
@[simp] theorem addCnt_age (f : Fld) (n : Nat) : (s.addCnt f n).age = s.age := put_age _ _ _
@[simp] theorem addCnt_plk (f : Fld) (n : Nat) : (s.addCnt f n).plk = s.plk := put_plk _ _ _
@[simp] theorem addCnt_sec (f : Fld) (n : Nat) : (s.addCnt f n).sec = s.sec := put_sec _ _ _
@[simp] theorem addCnt_image (f : Fld) (n : Nat) : (s.addCnt f n).image = s.image := put_image _ _ _
@[simp] theorem addCnt_loadBuf (f : Fld) (n : Nat) : (s.addCnt f n).loadBuf = s.loadBuf := put_loadBuf _ _ _
@[simp] theorem addCnt_erapQ (f : Fld) (n : Nat) : (s.addCnt f n).erapQ = s.erapQ := put_erapQ _ _ _
@[simp] theorem addCnt_own (f : Fld) (n : Nat) : (s.addCnt f n).own = s.own := put_own _ _ _
@[simp] theorem addCnt_hosts (f : Fld) (n : Nat) : (s.addCnt f n).hosts = s.hosts := put_hosts _ _ _
@[simp] theorem addCnt_safety (f : Fld) (n : Nat) : (s.addCnt f n).safety = s.safety := put_safety _ _ _
@[simp] theorem addCnt_pins (f : Fld) (n : Nat) : (s.addCnt f n).pins = s.pins := put_pins _ _ _
@[simp] theorem addCnt_cyc (f : Fld) (n : Nat) : (s.addCnt f n).cyc = s.cyc := put_cyc _ _ _
@[simp] theorem addCnt_p2 (f : Fld) (n : Nat) : (s.addCnt f n).p2 = s.p2 := put_p2 _ _ _
@[simp] theorem addCnt_free (f : Fld) (n : Nat) : (s.addCnt f n).free = s.free := put_free _ _ _
@[simp] theorem addCnt_outbox (f : Fld) (n : Nat) : (s.addCnt f n).outbox = s.outbox := put_outbox _ _ _

/-! ### bump -/

@[simp] theorem bump_pending (f : Fld) : (s.bump f).pending = s.pending := addCnt_pending _ _ _
@[simp] theorem bump_mono (f : Fld) : (s.bump f).mono = s.mono := addCnt_mono _ _ _
@[simp] theorem bump_shadow (f : Fld) : (s.bump f).shadow = s.shadow := addCnt_shadow _ _ _
@[simp] theorem bump_time (f : Fld) : (s.bump f).time = s.time := addCnt_time _ _ _
@[simp] theorem bump_gptp (f : Fld) : (s.bump f).gptp = s.gptp := addCnt_gptp _ _ _
@[simp] theorem bump_trackers (f : Fld) : (s.bump f).trackers = s.trackers := addCnt_trackers _ _ _
@[simp] theorem bump_rev (f : Fld) : (s.bump f).rev = s.rev := addCnt_rev _ _ _
@[simp] theorem bump_heads (f : Fld) : (s.bump f).heads = s.heads := addCnt_heads _ _ _
@[simp] theorem bump_pose (f : Fld) : (s.bump f).pose = s.pose := addCnt_pose _ _ _
@[simp] theorem bump_ing (f : Fld) : (s.bump f).ing = s.ing := addCnt_ing _ _ _
@[simp] theorem bump_vhu (f : Fld) : (s.bump f).vhu = s.vhu := addCnt_vhu _ _ _
@[simp] theorem bump_grids (f : Fld) : (s.bump f).grids = s.grids := addCnt_grids _ _ _
@[simp] theorem bump_ms (f : Fld) : (s.bump f).ms = s.ms := addCnt_ms _ _ _
@[simp] theorem bump_wedges (f : Fld) : (s.bump f).wedges = s.wedges := addCnt_wedges _ _ _
@[simp] theorem bump_pipe (f : Fld) : (s.bump f).pipe = s.pipe := addCnt_pipe _ _ _
@[simp] theorem bump_tiles (f : Fld) : (s.bump f).tiles = s.tiles := addCnt_tiles _ _ _
@[simp] theorem bump_spd (f : Fld) : (s.bump f).spd = s.spd := addCnt_spd _ _ _
@[simp] theorem bump_tags (f : Fld) : (s.bump f).tags = s.tags := addCnt_tags _ _ _
@[simp] theorem bump_dram (f : Fld) : (s.bump f).dram = s.dram := addCnt_dram _ _ _
@[simp] theorem bump_map (f : Fld) : (s.bump f).map = s.map := addCnt_map _ _ _
@[simp] theorem bump_out (f : Fld) : (s.bump f).out = s.out := addCnt_out _ _ _
@[simp] theorem bump_age (f : Fld) : (s.bump f).age = s.age := addCnt_age _ _ _
@[simp] theorem bump_plk (f : Fld) : (s.bump f).plk = s.plk := addCnt_plk _ _ _
@[simp] theorem bump_sec (f : Fld) : (s.bump f).sec = s.sec := addCnt_sec _ _ _
@[simp] theorem bump_image (f : Fld) : (s.bump f).image = s.image := addCnt_image _ _ _
@[simp] theorem bump_loadBuf (f : Fld) : (s.bump f).loadBuf = s.loadBuf := addCnt_loadBuf _ _ _
@[simp] theorem bump_erapQ (f : Fld) : (s.bump f).erapQ = s.erapQ := addCnt_erapQ _ _ _
@[simp] theorem bump_own (f : Fld) : (s.bump f).own = s.own := addCnt_own _ _ _
@[simp] theorem bump_hosts (f : Fld) : (s.bump f).hosts = s.hosts := addCnt_hosts _ _ _
@[simp] theorem bump_safety (f : Fld) : (s.bump f).safety = s.safety := addCnt_safety _ _ _
@[simp] theorem bump_pins (f : Fld) : (s.bump f).pins = s.pins := addCnt_pins _ _ _
@[simp] theorem bump_cyc (f : Fld) : (s.bump f).cyc = s.cyc := addCnt_cyc _ _ _
@[simp] theorem bump_p2 (f : Fld) : (s.bump f).p2 = s.p2 := addCnt_p2 _ _ _
@[simp] theorem bump_free (f : Fld) : (s.bump f).free = s.free := addCnt_free _ _ _
@[simp] theorem bump_outbox (f : Fld) : (s.bump f).outbox = s.outbox := addCnt_outbox _ _ _

/-! ### putMax -/

@[simp] theorem putMax_pending (f : Fld) (v : Nat) : (s.putMax f v).pending = s.pending := by unfold State.putMax; split; exacts [put_pending _ _ _, rfl]
@[simp] theorem putMax_mono (f : Fld) (v : Nat) : (s.putMax f v).mono = s.mono := by unfold State.putMax; split; exacts [put_mono _ _ _, rfl]
@[simp] theorem putMax_shadow (f : Fld) (v : Nat) : (s.putMax f v).shadow = s.shadow := by unfold State.putMax; split; exacts [put_shadow _ _ _, rfl]
@[simp] theorem putMax_time (f : Fld) (v : Nat) : (s.putMax f v).time = s.time := by unfold State.putMax; split; exacts [put_time _ _ _, rfl]
@[simp] theorem putMax_gptp (f : Fld) (v : Nat) : (s.putMax f v).gptp = s.gptp := by unfold State.putMax; split; exacts [put_gptp _ _ _, rfl]
@[simp] theorem putMax_trackers (f : Fld) (v : Nat) : (s.putMax f v).trackers = s.trackers := by unfold State.putMax; split; exacts [put_trackers _ _ _, rfl]
@[simp] theorem putMax_rev (f : Fld) (v : Nat) : (s.putMax f v).rev = s.rev := by unfold State.putMax; split; exacts [put_rev _ _ _, rfl]
@[simp] theorem putMax_heads (f : Fld) (v : Nat) : (s.putMax f v).heads = s.heads := by unfold State.putMax; split; exacts [put_heads _ _ _, rfl]
@[simp] theorem putMax_pose (f : Fld) (v : Nat) : (s.putMax f v).pose = s.pose := by unfold State.putMax; split; exacts [put_pose _ _ _, rfl]
@[simp] theorem putMax_ing (f : Fld) (v : Nat) : (s.putMax f v).ing = s.ing := by unfold State.putMax; split; exacts [put_ing _ _ _, rfl]
@[simp] theorem putMax_vhu (f : Fld) (v : Nat) : (s.putMax f v).vhu = s.vhu := by unfold State.putMax; split; exacts [put_vhu _ _ _, rfl]
@[simp] theorem putMax_grids (f : Fld) (v : Nat) : (s.putMax f v).grids = s.grids := by unfold State.putMax; split; exacts [put_grids _ _ _, rfl]
@[simp] theorem putMax_ms (f : Fld) (v : Nat) : (s.putMax f v).ms = s.ms := by unfold State.putMax; split; exacts [put_ms _ _ _, rfl]
@[simp] theorem putMax_wedges (f : Fld) (v : Nat) : (s.putMax f v).wedges = s.wedges := by unfold State.putMax; split; exacts [put_wedges _ _ _, rfl]
@[simp] theorem putMax_pipe (f : Fld) (v : Nat) : (s.putMax f v).pipe = s.pipe := by unfold State.putMax; split; exacts [put_pipe _ _ _, rfl]
@[simp] theorem putMax_tiles (f : Fld) (v : Nat) : (s.putMax f v).tiles = s.tiles := by unfold State.putMax; split; exacts [put_tiles _ _ _, rfl]
@[simp] theorem putMax_spd (f : Fld) (v : Nat) : (s.putMax f v).spd = s.spd := by unfold State.putMax; split; exacts [put_spd _ _ _, rfl]
@[simp] theorem putMax_tags (f : Fld) (v : Nat) : (s.putMax f v).tags = s.tags := by unfold State.putMax; split; exacts [put_tags _ _ _, rfl]
@[simp] theorem putMax_dram (f : Fld) (v : Nat) : (s.putMax f v).dram = s.dram := by unfold State.putMax; split; exacts [put_dram _ _ _, rfl]
@[simp] theorem putMax_map (f : Fld) (v : Nat) : (s.putMax f v).map = s.map := by unfold State.putMax; split; exacts [put_map _ _ _, rfl]
@[simp] theorem putMax_out (f : Fld) (v : Nat) : (s.putMax f v).out = s.out := by unfold State.putMax; split; exacts [put_out _ _ _, rfl]
@[simp] theorem putMax_age (f : Fld) (v : Nat) : (s.putMax f v).age = s.age := by unfold State.putMax; split; exacts [put_age _ _ _, rfl]
@[simp] theorem putMax_plk (f : Fld) (v : Nat) : (s.putMax f v).plk = s.plk := by unfold State.putMax; split; exacts [put_plk _ _ _, rfl]
@[simp] theorem putMax_sec (f : Fld) (v : Nat) : (s.putMax f v).sec = s.sec := by unfold State.putMax; split; exacts [put_sec _ _ _, rfl]
@[simp] theorem putMax_image (f : Fld) (v : Nat) : (s.putMax f v).image = s.image := by unfold State.putMax; split; exacts [put_image _ _ _, rfl]
@[simp] theorem putMax_loadBuf (f : Fld) (v : Nat) : (s.putMax f v).loadBuf = s.loadBuf := by unfold State.putMax; split; exacts [put_loadBuf _ _ _, rfl]
@[simp] theorem putMax_erapQ (f : Fld) (v : Nat) : (s.putMax f v).erapQ = s.erapQ := by unfold State.putMax; split; exacts [put_erapQ _ _ _, rfl]
@[simp] theorem putMax_own (f : Fld) (v : Nat) : (s.putMax f v).own = s.own := by unfold State.putMax; split; exacts [put_own _ _ _, rfl]
@[simp] theorem putMax_hosts (f : Fld) (v : Nat) : (s.putMax f v).hosts = s.hosts := by unfold State.putMax; split; exacts [put_hosts _ _ _, rfl]
@[simp] theorem putMax_safety (f : Fld) (v : Nat) : (s.putMax f v).safety = s.safety := by unfold State.putMax; split; exacts [put_safety _ _ _, rfl]
@[simp] theorem putMax_pins (f : Fld) (v : Nat) : (s.putMax f v).pins = s.pins := by unfold State.putMax; split; exacts [put_pins _ _ _, rfl]
@[simp] theorem putMax_cyc (f : Fld) (v : Nat) : (s.putMax f v).cyc = s.cyc := by unfold State.putMax; split; exacts [put_cyc _ _ _, rfl]
@[simp] theorem putMax_p2 (f : Fld) (v : Nat) : (s.putMax f v).p2 = s.p2 := by unfold State.putMax; split; exacts [put_p2 _ _ _, rfl]
@[simp] theorem putMax_free (f : Fld) (v : Nat) : (s.putMax f v).free = s.free := by unfold State.putMax; split; exacts [put_free _ _ _, rfl]
@[simp] theorem putMax_outbox (f : Fld) (v : Nat) : (s.putMax f v).outbox = s.outbox := by unfold State.putMax; split; exacts [put_outbox _ _ _, rfl]

/-! ### bump64 -/

@[simp] theorem bump64_pending (lo hi : Fld) : (s.bump64 lo hi).pending = s.pending := (put_pending _ _ _).trans (put_pending _ _ _)
@[simp] theorem bump64_mono (lo hi : Fld) : (s.bump64 lo hi).mono = s.mono := (put_mono _ _ _).trans (put_mono _ _ _)
@[simp] theorem bump64_shadow (lo hi : Fld) : (s.bump64 lo hi).shadow = s.shadow := (put_shadow _ _ _).trans (put_shadow _ _ _)
@[simp] theorem bump64_time (lo hi : Fld) : (s.bump64 lo hi).time = s.time := (put_time _ _ _).trans (put_time _ _ _)
@[simp] theorem bump64_gptp (lo hi : Fld) : (s.bump64 lo hi).gptp = s.gptp := (put_gptp _ _ _).trans (put_gptp _ _ _)
@[simp] theorem bump64_trackers (lo hi : Fld) : (s.bump64 lo hi).trackers = s.trackers := (put_trackers _ _ _).trans (put_trackers _ _ _)
@[simp] theorem bump64_rev (lo hi : Fld) : (s.bump64 lo hi).rev = s.rev := (put_rev _ _ _).trans (put_rev _ _ _)
@[simp] theorem bump64_heads (lo hi : Fld) : (s.bump64 lo hi).heads = s.heads := (put_heads _ _ _).trans (put_heads _ _ _)
@[simp] theorem bump64_pose (lo hi : Fld) : (s.bump64 lo hi).pose = s.pose := (put_pose _ _ _).trans (put_pose _ _ _)
@[simp] theorem bump64_ing (lo hi : Fld) : (s.bump64 lo hi).ing = s.ing := (put_ing _ _ _).trans (put_ing _ _ _)
@[simp] theorem bump64_vhu (lo hi : Fld) : (s.bump64 lo hi).vhu = s.vhu := (put_vhu _ _ _).trans (put_vhu _ _ _)
@[simp] theorem bump64_grids (lo hi : Fld) : (s.bump64 lo hi).grids = s.grids := (put_grids _ _ _).trans (put_grids _ _ _)
@[simp] theorem bump64_ms (lo hi : Fld) : (s.bump64 lo hi).ms = s.ms := (put_ms _ _ _).trans (put_ms _ _ _)
@[simp] theorem bump64_wedges (lo hi : Fld) : (s.bump64 lo hi).wedges = s.wedges := (put_wedges _ _ _).trans (put_wedges _ _ _)
@[simp] theorem bump64_pipe (lo hi : Fld) : (s.bump64 lo hi).pipe = s.pipe := (put_pipe _ _ _).trans (put_pipe _ _ _)
@[simp] theorem bump64_tiles (lo hi : Fld) : (s.bump64 lo hi).tiles = s.tiles := (put_tiles _ _ _).trans (put_tiles _ _ _)
@[simp] theorem bump64_spd (lo hi : Fld) : (s.bump64 lo hi).spd = s.spd := (put_spd _ _ _).trans (put_spd _ _ _)
@[simp] theorem bump64_tags (lo hi : Fld) : (s.bump64 lo hi).tags = s.tags := (put_tags _ _ _).trans (put_tags _ _ _)
@[simp] theorem bump64_dram (lo hi : Fld) : (s.bump64 lo hi).dram = s.dram := (put_dram _ _ _).trans (put_dram _ _ _)
@[simp] theorem bump64_map (lo hi : Fld) : (s.bump64 lo hi).map = s.map := (put_map _ _ _).trans (put_map _ _ _)
@[simp] theorem bump64_out (lo hi : Fld) : (s.bump64 lo hi).out = s.out := (put_out _ _ _).trans (put_out _ _ _)
@[simp] theorem bump64_age (lo hi : Fld) : (s.bump64 lo hi).age = s.age := (put_age _ _ _).trans (put_age _ _ _)
@[simp] theorem bump64_plk (lo hi : Fld) : (s.bump64 lo hi).plk = s.plk := (put_plk _ _ _).trans (put_plk _ _ _)
@[simp] theorem bump64_sec (lo hi : Fld) : (s.bump64 lo hi).sec = s.sec := (put_sec _ _ _).trans (put_sec _ _ _)
@[simp] theorem bump64_image (lo hi : Fld) : (s.bump64 lo hi).image = s.image := (put_image _ _ _).trans (put_image _ _ _)
@[simp] theorem bump64_loadBuf (lo hi : Fld) : (s.bump64 lo hi).loadBuf = s.loadBuf := (put_loadBuf _ _ _).trans (put_loadBuf _ _ _)
@[simp] theorem bump64_erapQ (lo hi : Fld) : (s.bump64 lo hi).erapQ = s.erapQ := (put_erapQ _ _ _).trans (put_erapQ _ _ _)
@[simp] theorem bump64_own (lo hi : Fld) : (s.bump64 lo hi).own = s.own := (put_own _ _ _).trans (put_own _ _ _)
@[simp] theorem bump64_hosts (lo hi : Fld) : (s.bump64 lo hi).hosts = s.hosts := (put_hosts _ _ _).trans (put_hosts _ _ _)
@[simp] theorem bump64_safety (lo hi : Fld) : (s.bump64 lo hi).safety = s.safety := (put_safety _ _ _).trans (put_safety _ _ _)
@[simp] theorem bump64_pins (lo hi : Fld) : (s.bump64 lo hi).pins = s.pins := (put_pins _ _ _).trans (put_pins _ _ _)
@[simp] theorem bump64_cyc (lo hi : Fld) : (s.bump64 lo hi).cyc = s.cyc := (put_cyc _ _ _).trans (put_cyc _ _ _)
@[simp] theorem bump64_p2 (lo hi : Fld) : (s.bump64 lo hi).p2 = s.p2 := (put_p2 _ _ _).trans (put_p2 _ _ _)
@[simp] theorem bump64_free (lo hi : Fld) : (s.bump64 lo hi).free = s.free := (put_free _ _ _).trans (put_free _ _ _)
@[simp] theorem bump64_outbox (lo hi : Fld) : (s.bump64 lo hi).outbox = s.outbox := (put_outbox _ _ _).trans (put_outbox _ _ _)

/-! ### clr -/

@[simp] theorem clr_pending (f : Fld) : (s.clr f).pending = s.pending := put_pending _ _ _
@[simp] theorem clr_mono (f : Fld) : (s.clr f).mono = s.mono := put_mono _ _ _
@[simp] theorem clr_shadow (f : Fld) : (s.clr f).shadow = s.shadow := put_shadow _ _ _
@[simp] theorem clr_time (f : Fld) : (s.clr f).time = s.time := put_time _ _ _
@[simp] theorem clr_gptp (f : Fld) : (s.clr f).gptp = s.gptp := put_gptp _ _ _
@[simp] theorem clr_trackers (f : Fld) : (s.clr f).trackers = s.trackers := put_trackers _ _ _
@[simp] theorem clr_rev (f : Fld) : (s.clr f).rev = s.rev := put_rev _ _ _
@[simp] theorem clr_heads (f : Fld) : (s.clr f).heads = s.heads := put_heads _ _ _
@[simp] theorem clr_pose (f : Fld) : (s.clr f).pose = s.pose := put_pose _ _ _
@[simp] theorem clr_ing (f : Fld) : (s.clr f).ing = s.ing := put_ing _ _ _
@[simp] theorem clr_vhu (f : Fld) : (s.clr f).vhu = s.vhu := put_vhu _ _ _
@[simp] theorem clr_grids (f : Fld) : (s.clr f).grids = s.grids := put_grids _ _ _
@[simp] theorem clr_ms (f : Fld) : (s.clr f).ms = s.ms := put_ms _ _ _
@[simp] theorem clr_wedges (f : Fld) : (s.clr f).wedges = s.wedges := put_wedges _ _ _
@[simp] theorem clr_pipe (f : Fld) : (s.clr f).pipe = s.pipe := put_pipe _ _ _
@[simp] theorem clr_tiles (f : Fld) : (s.clr f).tiles = s.tiles := put_tiles _ _ _
@[simp] theorem clr_spd (f : Fld) : (s.clr f).spd = s.spd := put_spd _ _ _
@[simp] theorem clr_tags (f : Fld) : (s.clr f).tags = s.tags := put_tags _ _ _
@[simp] theorem clr_dram (f : Fld) : (s.clr f).dram = s.dram := put_dram _ _ _
@[simp] theorem clr_map (f : Fld) : (s.clr f).map = s.map := put_map _ _ _
@[simp] theorem clr_out (f : Fld) : (s.clr f).out = s.out := put_out _ _ _
@[simp] theorem clr_age (f : Fld) : (s.clr f).age = s.age := put_age _ _ _
@[simp] theorem clr_plk (f : Fld) : (s.clr f).plk = s.plk := put_plk _ _ _
@[simp] theorem clr_sec (f : Fld) : (s.clr f).sec = s.sec := put_sec _ _ _
@[simp] theorem clr_image (f : Fld) : (s.clr f).image = s.image := put_image _ _ _
@[simp] theorem clr_loadBuf (f : Fld) : (s.clr f).loadBuf = s.loadBuf := put_loadBuf _ _ _
@[simp] theorem clr_erapQ (f : Fld) : (s.clr f).erapQ = s.erapQ := put_erapQ _ _ _
@[simp] theorem clr_own (f : Fld) : (s.clr f).own = s.own := put_own _ _ _
@[simp] theorem clr_hosts (f : Fld) : (s.clr f).hosts = s.hosts := put_hosts _ _ _
@[simp] theorem clr_safety (f : Fld) : (s.clr f).safety = s.safety := put_safety _ _ _
@[simp] theorem clr_pins (f : Fld) : (s.clr f).pins = s.pins := put_pins _ _ _
@[simp] theorem clr_cyc (f : Fld) : (s.clr f).cyc = s.cyc := put_cyc _ _ _
@[simp] theorem clr_p2 (f : Fld) : (s.clr f).p2 = s.p2 := put_p2 _ _ _
@[simp] theorem clr_free (f : Fld) : (s.clr f).free = s.free := put_free _ _ _
@[simp] theorem clr_outbox (f : Fld) : (s.clr f).outbox = s.outbox := put_outbox _ _ _

/-! ### load -/

@[simp] theorem load_pending (f : Fld) (v : Nat) : (s.load f v).pending = s.pending := by simp only [State.load, put_pending]
@[simp] theorem load_mono (f : Fld) (v : Nat) : (s.load f v).mono = s.mono := by simp only [State.load, put_mono]
@[simp] theorem load_shadow (f : Fld) (v : Nat) : (s.load f v).shadow = s.shadow := by simp only [State.load, put_shadow]
@[simp] theorem load_time (f : Fld) (v : Nat) : (s.load f v).time = s.time := by simp only [State.load, put_time]
@[simp] theorem load_gptp (f : Fld) (v : Nat) : (s.load f v).gptp = s.gptp := by simp only [State.load, put_gptp]
@[simp] theorem load_trackers (f : Fld) (v : Nat) : (s.load f v).trackers = s.trackers := by simp only [State.load, put_trackers]
@[simp] theorem load_rev (f : Fld) (v : Nat) : (s.load f v).rev = s.rev := by simp only [State.load, put_rev]
@[simp] theorem load_heads (f : Fld) (v : Nat) : (s.load f v).heads = s.heads := by simp only [State.load, put_heads]
@[simp] theorem load_pose (f : Fld) (v : Nat) : (s.load f v).pose = s.pose := by simp only [State.load, put_pose]
@[simp] theorem load_ing (f : Fld) (v : Nat) : (s.load f v).ing = s.ing := by simp only [State.load, put_ing]
@[simp] theorem load_vhu (f : Fld) (v : Nat) : (s.load f v).vhu = s.vhu := by simp only [State.load, put_vhu]
@[simp] theorem load_grids (f : Fld) (v : Nat) : (s.load f v).grids = s.grids := by simp only [State.load, put_grids]
@[simp] theorem load_ms (f : Fld) (v : Nat) : (s.load f v).ms = s.ms := by simp only [State.load, put_ms]
@[simp] theorem load_wedges (f : Fld) (v : Nat) : (s.load f v).wedges = s.wedges := by simp only [State.load, put_wedges]
@[simp] theorem load_pipe (f : Fld) (v : Nat) : (s.load f v).pipe = s.pipe := by simp only [State.load, put_pipe]
@[simp] theorem load_tiles (f : Fld) (v : Nat) : (s.load f v).tiles = s.tiles := by simp only [State.load, put_tiles]
@[simp] theorem load_spd (f : Fld) (v : Nat) : (s.load f v).spd = s.spd := by simp only [State.load, put_spd]
@[simp] theorem load_tags (f : Fld) (v : Nat) : (s.load f v).tags = s.tags := by simp only [State.load, put_tags]
@[simp] theorem load_dram (f : Fld) (v : Nat) : (s.load f v).dram = s.dram := by simp only [State.load, put_dram]
@[simp] theorem load_map (f : Fld) (v : Nat) : (s.load f v).map = s.map := by simp only [State.load, put_map]
@[simp] theorem load_out (f : Fld) (v : Nat) : (s.load f v).out = s.out := by simp only [State.load, put_out]
@[simp] theorem load_age (f : Fld) (v : Nat) : (s.load f v).age = s.age := by simp only [State.load, put_age]
@[simp] theorem load_plk (f : Fld) (v : Nat) : (s.load f v).plk = s.plk := by simp only [State.load, put_plk]
@[simp] theorem load_sec (f : Fld) (v : Nat) : (s.load f v).sec = s.sec := by simp only [State.load, put_sec]
@[simp] theorem load_image (f : Fld) (v : Nat) : (s.load f v).image = s.image := by simp only [State.load, put_image]
@[simp] theorem load_loadBuf (f : Fld) (v : Nat) : (s.load f v).loadBuf = s.loadBuf := by simp only [State.load, put_loadBuf]
@[simp] theorem load_erapQ (f : Fld) (v : Nat) : (s.load f v).erapQ = s.erapQ := by simp only [State.load, put_erapQ]
@[simp] theorem load_own (f : Fld) (v : Nat) : (s.load f v).own = s.own := by simp only [State.load, put_own]
@[simp] theorem load_hosts (f : Fld) (v : Nat) : (s.load f v).hosts = s.hosts := by simp only [State.load, put_hosts]
@[simp] theorem load_safety (f : Fld) (v : Nat) : (s.load f v).safety = s.safety := by simp only [State.load, put_safety]
@[simp] theorem load_pins (f : Fld) (v : Nat) : (s.load f v).pins = s.pins := by simp only [State.load, put_pins]
@[simp] theorem load_p2 (f : Fld) (v : Nat) : (s.load f v).p2 = s.p2 := by simp only [State.load, put_p2]
@[simp] theorem load_free (f : Fld) (v : Nat) : (s.load f v).free = s.free := by simp only [State.load, put_free]
@[simp] theorem load_outbox (f : Fld) (v : Nat) : (s.load f v).outbox = s.outbox := by simp only [State.load, put_outbox]

/-! ### noteAgain -/

@[simp] theorem noteAgain_pending (f : Fld) (v : Nat) : (s.noteAgain f v).pending = s.pending := by unfold State.noteAgain; split <;> rfl
@[simp] theorem noteAgain_mono (f : Fld) (v : Nat) : (s.noteAgain f v).mono = s.mono := by unfold State.noteAgain; split <;> rfl
@[simp] theorem noteAgain_regs (f : Fld) (v : Nat) : (s.noteAgain f v).regs = s.regs := by unfold State.noteAgain; split <;> rfl
@[simp] theorem noteAgain_shadow (f : Fld) (v : Nat) : (s.noteAgain f v).shadow = s.shadow := by unfold State.noteAgain; split <;> rfl
@[simp] theorem noteAgain_time (f : Fld) (v : Nat) : (s.noteAgain f v).time = s.time := by unfold State.noteAgain; split <;> rfl
@[simp] theorem noteAgain_gptp (f : Fld) (v : Nat) : (s.noteAgain f v).gptp = s.gptp := by unfold State.noteAgain; split <;> rfl
@[simp] theorem noteAgain_trackers (f : Fld) (v : Nat) : (s.noteAgain f v).trackers = s.trackers := by unfold State.noteAgain; split <;> rfl
@[simp] theorem noteAgain_rev (f : Fld) (v : Nat) : (s.noteAgain f v).rev = s.rev := by unfold State.noteAgain; split <;> rfl
@[simp] theorem noteAgain_heads (f : Fld) (v : Nat) : (s.noteAgain f v).heads = s.heads := by unfold State.noteAgain; split <;> rfl
@[simp] theorem noteAgain_pose (f : Fld) (v : Nat) : (s.noteAgain f v).pose = s.pose := by unfold State.noteAgain; split <;> rfl
@[simp] theorem noteAgain_ing (f : Fld) (v : Nat) : (s.noteAgain f v).ing = s.ing := by unfold State.noteAgain; split <;> rfl
@[simp] theorem noteAgain_vhu (f : Fld) (v : Nat) : (s.noteAgain f v).vhu = s.vhu := by unfold State.noteAgain; split <;> rfl
@[simp] theorem noteAgain_grids (f : Fld) (v : Nat) : (s.noteAgain f v).grids = s.grids := by unfold State.noteAgain; split <;> rfl
@[simp] theorem noteAgain_ms (f : Fld) (v : Nat) : (s.noteAgain f v).ms = s.ms := by unfold State.noteAgain; split <;> rfl
@[simp] theorem noteAgain_wedges (f : Fld) (v : Nat) : (s.noteAgain f v).wedges = s.wedges := by unfold State.noteAgain; split <;> rfl
@[simp] theorem noteAgain_pipe (f : Fld) (v : Nat) : (s.noteAgain f v).pipe = s.pipe := by unfold State.noteAgain; split <;> rfl
@[simp] theorem noteAgain_tiles (f : Fld) (v : Nat) : (s.noteAgain f v).tiles = s.tiles := by unfold State.noteAgain; split <;> rfl
@[simp] theorem noteAgain_spd (f : Fld) (v : Nat) : (s.noteAgain f v).spd = s.spd := by unfold State.noteAgain; split <;> rfl
@[simp] theorem noteAgain_tags (f : Fld) (v : Nat) : (s.noteAgain f v).tags = s.tags := by unfold State.noteAgain; split <;> rfl
@[simp] theorem noteAgain_dram (f : Fld) (v : Nat) : (s.noteAgain f v).dram = s.dram := by unfold State.noteAgain; split <;> rfl
@[simp] theorem noteAgain_map (f : Fld) (v : Nat) : (s.noteAgain f v).map = s.map := by unfold State.noteAgain; split <;> rfl
@[simp] theorem noteAgain_out (f : Fld) (v : Nat) : (s.noteAgain f v).out = s.out := by unfold State.noteAgain; split <;> rfl
@[simp] theorem noteAgain_age (f : Fld) (v : Nat) : (s.noteAgain f v).age = s.age := by unfold State.noteAgain; split <;> rfl
@[simp] theorem noteAgain_plk (f : Fld) (v : Nat) : (s.noteAgain f v).plk = s.plk := by unfold State.noteAgain; split <;> rfl
@[simp] theorem noteAgain_sec (f : Fld) (v : Nat) : (s.noteAgain f v).sec = s.sec := by unfold State.noteAgain; split <;> rfl
@[simp] theorem noteAgain_image (f : Fld) (v : Nat) : (s.noteAgain f v).image = s.image := by unfold State.noteAgain; split <;> rfl
@[simp] theorem noteAgain_loadBuf (f : Fld) (v : Nat) : (s.noteAgain f v).loadBuf = s.loadBuf := by unfold State.noteAgain; split <;> rfl
@[simp] theorem noteAgain_erapQ (f : Fld) (v : Nat) : (s.noteAgain f v).erapQ = s.erapQ := by unfold State.noteAgain; split <;> rfl
@[simp] theorem noteAgain_own (f : Fld) (v : Nat) : (s.noteAgain f v).own = s.own := by unfold State.noteAgain; split <;> rfl
@[simp] theorem noteAgain_hosts (f : Fld) (v : Nat) : (s.noteAgain f v).hosts = s.hosts := by unfold State.noteAgain; split <;> rfl
@[simp] theorem noteAgain_safety (f : Fld) (v : Nat) : (s.noteAgain f v).safety = s.safety := by unfold State.noteAgain; split <;> rfl
@[simp] theorem noteAgain_pins (f : Fld) (v : Nat) : (s.noteAgain f v).pins = s.pins := by unfold State.noteAgain; split <;> rfl
@[simp] theorem noteAgain_p2 (f : Fld) (v : Nat) : (s.noteAgain f v).p2 = s.p2 := by unfold State.noteAgain; split <;> rfl
@[simp] theorem noteAgain_free (f : Fld) (v : Nat) : (s.noteAgain f v).free = s.free := by unfold State.noteAgain; split <;> rfl
@[simp] theorem noteAgain_outbox (f : Fld) (v : Nat) : (s.noteAgain f v).outbox = s.outbox := by unfold State.noteAgain; split <;> rfl
@[simp] theorem noteAgain_reg (f : Fld) (v : Nat) (x : Nat) : (s.noteAgain f v).reg x = s.reg x := by unfold State.noteAgain; split <;> rfl
@[simp] theorem noteAgain_get (f : Fld) (v : Nat) (x : Fld) : (s.noteAgain f v).get x = s.get x := by unfold State.noteAgain; split <;> rfl
@[simp] theorem noteAgain_getI (f : Fld) (v : Nat) (x : Fld) : (s.noteAgain f v).getI x = s.getI x := by unfold State.noteAgain; split <;> rfl
@[simp] theorem noteAgain_on (f : Fld) (v : Nat) (x : Fld) : (s.noteAgain f v).on x = s.on x := by unfold State.noteAgain; split <;> rfl
@[simp] theorem noteAgain_dev (f : Fld) (v : Nat) : (s.noteAgain f v).dev = s.dev := by unfold State.noteAgain; split <;> rfl

/-! ### clock -/

@[simp] theorem clock_pending (t : Nat) : (s.clock t).pending = s.pending := rfl
@[simp] theorem clock_mono (t : Nat) : (s.clock t).mono = max s.mono t := rfl
@[simp] theorem clock_regs (t : Nat) : (s.clock t).regs = s.regs := rfl
@[simp] theorem clock_shadow (t : Nat) : (s.clock t).shadow = s.shadow := rfl
@[simp] theorem clock_time (t : Nat) : (s.clock t).time = s.time := rfl
@[simp] theorem clock_gptp (t : Nat) : (s.clock t).gptp = s.gptp := rfl
@[simp] theorem clock_trackers (t : Nat) : (s.clock t).trackers = s.trackers := rfl
@[simp] theorem clock_rev (t : Nat) : (s.clock t).rev = s.rev := rfl
@[simp] theorem clock_heads (t : Nat) : (s.clock t).heads = s.heads := rfl
@[simp] theorem clock_pose (t : Nat) : (s.clock t).pose = s.pose := rfl
@[simp] theorem clock_ing (t : Nat) : (s.clock t).ing = s.ing := rfl
@[simp] theorem clock_vhu (t : Nat) : (s.clock t).vhu = s.vhu := rfl
@[simp] theorem clock_grids (t : Nat) : (s.clock t).grids = s.grids := rfl
@[simp] theorem clock_ms (t : Nat) : (s.clock t).ms = s.ms := rfl
@[simp] theorem clock_wedges (t : Nat) : (s.clock t).wedges = s.wedges := rfl
@[simp] theorem clock_pipe (t : Nat) : (s.clock t).pipe = s.pipe := rfl
@[simp] theorem clock_tiles (t : Nat) : (s.clock t).tiles = s.tiles := rfl
@[simp] theorem clock_spd (t : Nat) : (s.clock t).spd = s.spd := rfl
@[simp] theorem clock_tags (t : Nat) : (s.clock t).tags = s.tags := rfl
@[simp] theorem clock_dram (t : Nat) : (s.clock t).dram = s.dram := rfl
@[simp] theorem clock_map (t : Nat) : (s.clock t).map = s.map := rfl
@[simp] theorem clock_out (t : Nat) : (s.clock t).out = s.out := rfl
@[simp] theorem clock_age (t : Nat) : (s.clock t).age = s.age := rfl
@[simp] theorem clock_plk (t : Nat) : (s.clock t).plk = s.plk := rfl
@[simp] theorem clock_sec (t : Nat) : (s.clock t).sec = s.sec := rfl
@[simp] theorem clock_image (t : Nat) : (s.clock t).image = s.image := rfl
@[simp] theorem clock_loadBuf (t : Nat) : (s.clock t).loadBuf = s.loadBuf := rfl
@[simp] theorem clock_erapQ (t : Nat) : (s.clock t).erapQ = s.erapQ := rfl
@[simp] theorem clock_own (t : Nat) : (s.clock t).own = s.own := rfl
@[simp] theorem clock_hosts (t : Nat) : (s.clock t).hosts = s.hosts := rfl
@[simp] theorem clock_safety (t : Nat) : (s.clock t).safety = s.safety := rfl
@[simp] theorem clock_pins (t : Nat) : (s.clock t).pins = s.pins := rfl
@[simp] theorem clock_cyc (t : Nat) : (s.clock t).cyc = if s.mono < t then {} else s.cyc := rfl
@[simp] theorem clock_p2 (t : Nat) : (s.clock t).p2 = s.p2 := rfl
@[simp] theorem clock_free (t : Nat) : (s.clock t).free = s.free := rfl
@[simp] theorem clock_outbox (t : Nat) : (s.clock t).outbox = s.outbox := rfl
@[simp] theorem clock_reg (t : Nat) (x : Nat) : (s.clock t).reg x = s.reg x := rfl
@[simp] theorem clock_get (t : Nat) (x : Fld) : (s.clock t).get x = s.get x := rfl
@[simp] theorem clock_getI (t : Nat) (x : Fld) : (s.clock t).getI x = s.getI x := rfl
@[simp] theorem clock_on (t : Nat) (x : Fld) : (s.clock t).on x = s.on x := rfl
@[simp] theorem clock_dev (t : Nat) : (s.clock t).dev = s.dev := rfl

/-! ### emit -/

@[simp] theorem emit_pending (e : Emit) : (s.emit e).pending = s.pending := rfl
@[simp] theorem emit_mono (e : Emit) : (s.emit e).mono = s.mono := rfl
@[simp] theorem emit_regs (e : Emit) : (s.emit e).regs = s.regs := rfl
@[simp] theorem emit_shadow (e : Emit) : (s.emit e).shadow = s.shadow := rfl
@[simp] theorem emit_time (e : Emit) : (s.emit e).time = s.time := rfl
@[simp] theorem emit_gptp (e : Emit) : (s.emit e).gptp = s.gptp := rfl
@[simp] theorem emit_trackers (e : Emit) : (s.emit e).trackers = s.trackers := rfl
@[simp] theorem emit_rev (e : Emit) : (s.emit e).rev = s.rev := rfl
@[simp] theorem emit_heads (e : Emit) : (s.emit e).heads = s.heads := rfl
@[simp] theorem emit_pose (e : Emit) : (s.emit e).pose = s.pose := rfl
@[simp] theorem emit_ing (e : Emit) : (s.emit e).ing = s.ing := rfl
@[simp] theorem emit_vhu (e : Emit) : (s.emit e).vhu = s.vhu := rfl
@[simp] theorem emit_grids (e : Emit) : (s.emit e).grids = s.grids := rfl
@[simp] theorem emit_ms (e : Emit) : (s.emit e).ms = s.ms := rfl
@[simp] theorem emit_wedges (e : Emit) : (s.emit e).wedges = s.wedges := rfl
@[simp] theorem emit_pipe (e : Emit) : (s.emit e).pipe = s.pipe := rfl
@[simp] theorem emit_tiles (e : Emit) : (s.emit e).tiles = s.tiles := rfl
@[simp] theorem emit_spd (e : Emit) : (s.emit e).spd = s.spd := rfl
@[simp] theorem emit_tags (e : Emit) : (s.emit e).tags = s.tags := rfl
@[simp] theorem emit_dram (e : Emit) : (s.emit e).dram = s.dram := rfl
@[simp] theorem emit_map (e : Emit) : (s.emit e).map = s.map := rfl
@[simp] theorem emit_out (e : Emit) : (s.emit e).out = s.out := rfl
@[simp] theorem emit_age (e : Emit) : (s.emit e).age = s.age := rfl
@[simp] theorem emit_plk (e : Emit) : (s.emit e).plk = s.plk := rfl
@[simp] theorem emit_sec (e : Emit) : (s.emit e).sec = s.sec := rfl
@[simp] theorem emit_image (e : Emit) : (s.emit e).image = s.image := rfl
@[simp] theorem emit_loadBuf (e : Emit) : (s.emit e).loadBuf = s.loadBuf := rfl
@[simp] theorem emit_erapQ (e : Emit) : (s.emit e).erapQ = s.erapQ := rfl
@[simp] theorem emit_own (e : Emit) : (s.emit e).own = s.own := rfl
@[simp] theorem emit_hosts (e : Emit) : (s.emit e).hosts = s.hosts := rfl
@[simp] theorem emit_safety (e : Emit) : (s.emit e).safety = s.safety := rfl
@[simp] theorem emit_pins (e : Emit) : (s.emit e).pins = s.pins := rfl
@[simp] theorem emit_cyc (e : Emit) : (s.emit e).cyc = s.cyc := rfl
@[simp] theorem emit_p2 (e : Emit) : (s.emit e).p2 = s.p2 := rfl
@[simp] theorem emit_free (e : Emit) : (s.emit e).free = s.free := rfl
@[simp] theorem emit_outbox (e : Emit) : (s.emit e).outbox = s.outbox ++ [e] := rfl
@[simp] theorem emit_reg (e : Emit) (x : Nat) : (s.emit e).reg x = s.reg x := rfl
@[simp] theorem emit_get (e : Emit) (x : Fld) : (s.emit e).get x = s.get x := rfl
@[simp] theorem emit_getI (e : Emit) (x : Fld) : (s.emit e).getI x = s.getI x := rfl
@[simp] theorem emit_on (e : Emit) (x : Fld) : (s.emit e).on x = s.on x := rfl
@[simp] theorem emit_dev (e : Emit) : (s.emit e).dev = s.dev := rfl

/-! ### tm -/

@[simp] theorem tm_pending (g : TimeSt → TimeSt) : (s.tm g).pending = s.pending := rfl
@[simp] theorem tm_mono (g : TimeSt → TimeSt) : (s.tm g).mono = s.mono := rfl
@[simp] theorem tm_regs (g : TimeSt → TimeSt) : (s.tm g).regs = s.regs := rfl
@[simp] theorem tm_shadow (g : TimeSt → TimeSt) : (s.tm g).shadow = s.shadow := rfl
@[simp] theorem tm_time (g : TimeSt → TimeSt) : (s.tm g).time = g s.time := rfl
@[simp] theorem tm_gptp (g : TimeSt → TimeSt) : (s.tm g).gptp = s.gptp := rfl
@[simp] theorem tm_trackers (g : TimeSt → TimeSt) : (s.tm g).trackers = s.trackers := rfl
@[simp] theorem tm_rev (g : TimeSt → TimeSt) : (s.tm g).rev = s.rev := rfl
@[simp] theorem tm_heads (g : TimeSt → TimeSt) : (s.tm g).heads = s.heads := rfl
@[simp] theorem tm_pose (g : TimeSt → TimeSt) : (s.tm g).pose = s.pose := rfl
@[simp] theorem tm_ing (g : TimeSt → TimeSt) : (s.tm g).ing = s.ing := rfl
@[simp] theorem tm_vhu (g : TimeSt → TimeSt) : (s.tm g).vhu = s.vhu := rfl
@[simp] theorem tm_grids (g : TimeSt → TimeSt) : (s.tm g).grids = s.grids := rfl
@[simp] theorem tm_ms (g : TimeSt → TimeSt) : (s.tm g).ms = s.ms := rfl
@[simp] theorem tm_wedges (g : TimeSt → TimeSt) : (s.tm g).wedges = s.wedges := rfl
@[simp] theorem tm_pipe (g : TimeSt → TimeSt) : (s.tm g).pipe = s.pipe := rfl
@[simp] theorem tm_tiles (g : TimeSt → TimeSt) : (s.tm g).tiles = s.tiles := rfl
@[simp] theorem tm_spd (g : TimeSt → TimeSt) : (s.tm g).spd = s.spd := rfl
@[simp] theorem tm_tags (g : TimeSt → TimeSt) : (s.tm g).tags = s.tags := rfl
@[simp] theorem tm_dram (g : TimeSt → TimeSt) : (s.tm g).dram = s.dram := rfl
@[simp] theorem tm_map (g : TimeSt → TimeSt) : (s.tm g).map = s.map := rfl
@[simp] theorem tm_out (g : TimeSt → TimeSt) : (s.tm g).out = s.out := rfl
@[simp] theorem tm_age (g : TimeSt → TimeSt) : (s.tm g).age = s.age := rfl
@[simp] theorem tm_plk (g : TimeSt → TimeSt) : (s.tm g).plk = s.plk := rfl
@[simp] theorem tm_sec (g : TimeSt → TimeSt) : (s.tm g).sec = s.sec := rfl
@[simp] theorem tm_image (g : TimeSt → TimeSt) : (s.tm g).image = s.image := rfl
@[simp] theorem tm_loadBuf (g : TimeSt → TimeSt) : (s.tm g).loadBuf = s.loadBuf := rfl
@[simp] theorem tm_erapQ (g : TimeSt → TimeSt) : (s.tm g).erapQ = s.erapQ := rfl
@[simp] theorem tm_own (g : TimeSt → TimeSt) : (s.tm g).own = s.own := rfl
@[simp] theorem tm_hosts (g : TimeSt → TimeSt) : (s.tm g).hosts = s.hosts := rfl
@[simp] theorem tm_safety (g : TimeSt → TimeSt) : (s.tm g).safety = s.safety := rfl
@[simp] theorem tm_pins (g : TimeSt → TimeSt) : (s.tm g).pins = s.pins := rfl
@[simp] theorem tm_cyc (g : TimeSt → TimeSt) : (s.tm g).cyc = s.cyc := rfl
@[simp] theorem tm_p2 (g : TimeSt → TimeSt) : (s.tm g).p2 = s.p2 := rfl
@[simp] theorem tm_free (g : TimeSt → TimeSt) : (s.tm g).free = s.free := rfl
@[simp] theorem tm_outbox (g : TimeSt → TimeSt) : (s.tm g).outbox = s.outbox := rfl
@[simp] theorem tm_reg (g : TimeSt → TimeSt) (x : Nat) : (s.tm g).reg x = s.reg x := rfl
@[simp] theorem tm_get (g : TimeSt → TimeSt) (x : Fld) : (s.tm g).get x = s.get x := rfl
@[simp] theorem tm_getI (g : TimeSt → TimeSt) (x : Fld) : (s.tm g).getI x = s.getI x := rfl
@[simp] theorem tm_on (g : TimeSt → TimeSt) (x : Fld) : (s.tm g).on x = s.on x := rfl
@[simp] theorem tm_dev (g : TimeSt → TimeSt) : (s.tm g).dev = s.dev := rfl

/-! ### gp -/

@[simp] theorem gp_pending (q : Port) (g : Gptp → Gptp) : (s.gp q g).pending = s.pending := rfl
@[simp] theorem gp_mono (q : Port) (g : Gptp → Gptp) : (s.gp q g).mono = s.mono := rfl
@[simp] theorem gp_regs (q : Port) (g : Gptp → Gptp) : (s.gp q g).regs = s.regs := rfl
@[simp] theorem gp_shadow (q : Port) (g : Gptp → Gptp) : (s.gp q g).shadow = s.shadow := rfl
@[simp] theorem gp_time (q : Port) (g : Gptp → Gptp) : (s.gp q g).time = s.time := rfl
@[simp] theorem gp_gptp (q : Port) (g : Gptp → Gptp) : (s.gp q g).gptp = s.gptp.modify (portIdx q) g := rfl
@[simp] theorem gp_trackers (q : Port) (g : Gptp → Gptp) : (s.gp q g).trackers = s.trackers := rfl
@[simp] theorem gp_rev (q : Port) (g : Gptp → Gptp) : (s.gp q g).rev = s.rev := rfl
@[simp] theorem gp_heads (q : Port) (g : Gptp → Gptp) : (s.gp q g).heads = s.heads := rfl
@[simp] theorem gp_pose (q : Port) (g : Gptp → Gptp) : (s.gp q g).pose = s.pose := rfl
@[simp] theorem gp_ing (q : Port) (g : Gptp → Gptp) : (s.gp q g).ing = s.ing := rfl
@[simp] theorem gp_vhu (q : Port) (g : Gptp → Gptp) : (s.gp q g).vhu = s.vhu := rfl
@[simp] theorem gp_grids (q : Port) (g : Gptp → Gptp) : (s.gp q g).grids = s.grids := rfl
@[simp] theorem gp_ms (q : Port) (g : Gptp → Gptp) : (s.gp q g).ms = s.ms := rfl
@[simp] theorem gp_wedges (q : Port) (g : Gptp → Gptp) : (s.gp q g).wedges = s.wedges := rfl
@[simp] theorem gp_pipe (q : Port) (g : Gptp → Gptp) : (s.gp q g).pipe = s.pipe := rfl
@[simp] theorem gp_tiles (q : Port) (g : Gptp → Gptp) : (s.gp q g).tiles = s.tiles := rfl
@[simp] theorem gp_spd (q : Port) (g : Gptp → Gptp) : (s.gp q g).spd = s.spd := rfl
@[simp] theorem gp_tags (q : Port) (g : Gptp → Gptp) : (s.gp q g).tags = s.tags := rfl
@[simp] theorem gp_dram (q : Port) (g : Gptp → Gptp) : (s.gp q g).dram = s.dram := rfl
@[simp] theorem gp_map (q : Port) (g : Gptp → Gptp) : (s.gp q g).map = s.map := rfl
@[simp] theorem gp_out (q : Port) (g : Gptp → Gptp) : (s.gp q g).out = s.out := rfl
@[simp] theorem gp_age (q : Port) (g : Gptp → Gptp) : (s.gp q g).age = s.age := rfl
@[simp] theorem gp_plk (q : Port) (g : Gptp → Gptp) : (s.gp q g).plk = s.plk := rfl
@[simp] theorem gp_sec (q : Port) (g : Gptp → Gptp) : (s.gp q g).sec = s.sec := rfl
@[simp] theorem gp_image (q : Port) (g : Gptp → Gptp) : (s.gp q g).image = s.image := rfl
@[simp] theorem gp_loadBuf (q : Port) (g : Gptp → Gptp) : (s.gp q g).loadBuf = s.loadBuf := rfl
@[simp] theorem gp_erapQ (q : Port) (g : Gptp → Gptp) : (s.gp q g).erapQ = s.erapQ := rfl
@[simp] theorem gp_own (q : Port) (g : Gptp → Gptp) : (s.gp q g).own = s.own := rfl
@[simp] theorem gp_hosts (q : Port) (g : Gptp → Gptp) : (s.gp q g).hosts = s.hosts := rfl
@[simp] theorem gp_safety (q : Port) (g : Gptp → Gptp) : (s.gp q g).safety = s.safety := rfl
@[simp] theorem gp_pins (q : Port) (g : Gptp → Gptp) : (s.gp q g).pins = s.pins := rfl
@[simp] theorem gp_cyc (q : Port) (g : Gptp → Gptp) : (s.gp q g).cyc = s.cyc := rfl
@[simp] theorem gp_p2 (q : Port) (g : Gptp → Gptp) : (s.gp q g).p2 = s.p2 := rfl
@[simp] theorem gp_free (q : Port) (g : Gptp → Gptp) : (s.gp q g).free = s.free := rfl
@[simp] theorem gp_outbox (q : Port) (g : Gptp → Gptp) : (s.gp q g).outbox = s.outbox := rfl
@[simp] theorem gp_reg (q : Port) (g : Gptp → Gptp) (x : Nat) : (s.gp q g).reg x = s.reg x := rfl
@[simp] theorem gp_get (q : Port) (g : Gptp → Gptp) (x : Fld) : (s.gp q g).get x = s.get x := rfl
@[simp] theorem gp_getI (q : Port) (g : Gptp → Gptp) (x : Fld) : (s.gp q g).getI x = s.getI x := rfl
@[simp] theorem gp_on (q : Port) (g : Gptp → Gptp) (x : Fld) : (s.gp q g).on x = s.on x := rfl
@[simp] theorem gp_dev (q : Port) (g : Gptp → Gptp) : (s.gp q g).dev = s.dev := rfl

/-! ### setTk -/

@[simp] theorem setTk_pending (h : Nat) (g : Tracker → Tracker) : (s.setTk h g).pending = s.pending := rfl
@[simp] theorem setTk_mono (h : Nat) (g : Tracker → Tracker) : (s.setTk h g).mono = s.mono := rfl
@[simp] theorem setTk_regs (h : Nat) (g : Tracker → Tracker) : (s.setTk h g).regs = s.regs := rfl
@[simp] theorem setTk_shadow (h : Nat) (g : Tracker → Tracker) : (s.setTk h g).shadow = s.shadow := rfl
@[simp] theorem setTk_time (h : Nat) (g : Tracker → Tracker) : (s.setTk h g).time = s.time := rfl
@[simp] theorem setTk_gptp (h : Nat) (g : Tracker → Tracker) : (s.setTk h g).gptp = s.gptp := rfl
@[simp] theorem setTk_trackers (h : Nat) (g : Tracker → Tracker) : (s.setTk h g).trackers = s.trackers.modify h g := rfl
@[simp] theorem setTk_rev (h : Nat) (g : Tracker → Tracker) : (s.setTk h g).rev = s.rev := rfl
@[simp] theorem setTk_heads (h : Nat) (g : Tracker → Tracker) : (s.setTk h g).heads = s.heads := rfl
@[simp] theorem setTk_pose (h : Nat) (g : Tracker → Tracker) : (s.setTk h g).pose = s.pose := rfl
@[simp] theorem setTk_ing (h : Nat) (g : Tracker → Tracker) : (s.setTk h g).ing = s.ing := rfl
@[simp] theorem setTk_vhu (h : Nat) (g : Tracker → Tracker) : (s.setTk h g).vhu = s.vhu := rfl
@[simp] theorem setTk_grids (h : Nat) (g : Tracker → Tracker) : (s.setTk h g).grids = s.grids := rfl
@[simp] theorem setTk_ms (h : Nat) (g : Tracker → Tracker) : (s.setTk h g).ms = s.ms := rfl
@[simp] theorem setTk_wedges (h : Nat) (g : Tracker → Tracker) : (s.setTk h g).wedges = s.wedges := rfl
@[simp] theorem setTk_pipe (h : Nat) (g : Tracker → Tracker) : (s.setTk h g).pipe = s.pipe := rfl
@[simp] theorem setTk_tiles (h : Nat) (g : Tracker → Tracker) : (s.setTk h g).tiles = s.tiles := rfl
@[simp] theorem setTk_spd (h : Nat) (g : Tracker → Tracker) : (s.setTk h g).spd = s.spd := rfl
@[simp] theorem setTk_tags (h : Nat) (g : Tracker → Tracker) : (s.setTk h g).tags = s.tags := rfl
@[simp] theorem setTk_dram (h : Nat) (g : Tracker → Tracker) : (s.setTk h g).dram = s.dram := rfl
@[simp] theorem setTk_map (h : Nat) (g : Tracker → Tracker) : (s.setTk h g).map = s.map := rfl
@[simp] theorem setTk_out (h : Nat) (g : Tracker → Tracker) : (s.setTk h g).out = s.out := rfl
@[simp] theorem setTk_age (h : Nat) (g : Tracker → Tracker) : (s.setTk h g).age = s.age := rfl
@[simp] theorem setTk_plk (h : Nat) (g : Tracker → Tracker) : (s.setTk h g).plk = s.plk := rfl
@[simp] theorem setTk_sec (h : Nat) (g : Tracker → Tracker) : (s.setTk h g).sec = s.sec := rfl
@[simp] theorem setTk_image (h : Nat) (g : Tracker → Tracker) : (s.setTk h g).image = s.image := rfl
@[simp] theorem setTk_loadBuf (h : Nat) (g : Tracker → Tracker) : (s.setTk h g).loadBuf = s.loadBuf := rfl
@[simp] theorem setTk_erapQ (h : Nat) (g : Tracker → Tracker) : (s.setTk h g).erapQ = s.erapQ := rfl
@[simp] theorem setTk_own (h : Nat) (g : Tracker → Tracker) : (s.setTk h g).own = s.own := rfl
@[simp] theorem setTk_hosts (h : Nat) (g : Tracker → Tracker) : (s.setTk h g).hosts = s.hosts := rfl
@[simp] theorem setTk_safety (h : Nat) (g : Tracker → Tracker) : (s.setTk h g).safety = s.safety := rfl
@[simp] theorem setTk_pins (h : Nat) (g : Tracker → Tracker) : (s.setTk h g).pins = s.pins := rfl
@[simp] theorem setTk_cyc (h : Nat) (g : Tracker → Tracker) : (s.setTk h g).cyc = s.cyc := rfl
@[simp] theorem setTk_p2 (h : Nat) (g : Tracker → Tracker) : (s.setTk h g).p2 = s.p2 := rfl
@[simp] theorem setTk_free (h : Nat) (g : Tracker → Tracker) : (s.setTk h g).free = s.free := rfl
@[simp] theorem setTk_outbox (h : Nat) (g : Tracker → Tracker) : (s.setTk h g).outbox = s.outbox := rfl
@[simp] theorem setTk_reg (h : Nat) (g : Tracker → Tracker) (x : Nat) : (s.setTk h g).reg x = s.reg x := rfl
@[simp] theorem setTk_get (h : Nat) (g : Tracker → Tracker) (x : Fld) : (s.setTk h g).get x = s.get x := rfl
@[simp] theorem setTk_getI (h : Nat) (g : Tracker → Tracker) (x : Fld) : (s.setTk h g).getI x = s.getI x := rfl
@[simp] theorem setTk_on (h : Nat) (g : Tracker → Tracker) (x : Fld) : (s.setTk h g).on x = s.on x := rfl
@[simp] theorem setTk_dev (h : Nat) (g : Tracker → Tracker) : (s.setTk h g).dev = s.dev := rfl

/-! ### setHd -/

@[simp] theorem setHd_pending (h : Nat) (g : HeadSt → HeadSt) : (s.setHd h g).pending = s.pending := rfl
@[simp] theorem setHd_mono (h : Nat) (g : HeadSt → HeadSt) : (s.setHd h g).mono = s.mono := rfl
@[simp] theorem setHd_regs (h : Nat) (g : HeadSt → HeadSt) : (s.setHd h g).regs = s.regs := rfl
@[simp] theorem setHd_shadow (h : Nat) (g : HeadSt → HeadSt) : (s.setHd h g).shadow = s.shadow := rfl
@[simp] theorem setHd_time (h : Nat) (g : HeadSt → HeadSt) : (s.setHd h g).time = s.time := rfl
@[simp] theorem setHd_gptp (h : Nat) (g : HeadSt → HeadSt) : (s.setHd h g).gptp = s.gptp := rfl
@[simp] theorem setHd_trackers (h : Nat) (g : HeadSt → HeadSt) : (s.setHd h g).trackers = s.trackers := rfl
@[simp] theorem setHd_rev (h : Nat) (g : HeadSt → HeadSt) : (s.setHd h g).rev = s.rev := rfl
@[simp] theorem setHd_heads (h : Nat) (g : HeadSt → HeadSt) : (s.setHd h g).heads = s.heads.modify h g := rfl
@[simp] theorem setHd_pose (h : Nat) (g : HeadSt → HeadSt) : (s.setHd h g).pose = s.pose := rfl
@[simp] theorem setHd_ing (h : Nat) (g : HeadSt → HeadSt) : (s.setHd h g).ing = s.ing := rfl
@[simp] theorem setHd_vhu (h : Nat) (g : HeadSt → HeadSt) : (s.setHd h g).vhu = s.vhu := rfl
@[simp] theorem setHd_grids (h : Nat) (g : HeadSt → HeadSt) : (s.setHd h g).grids = s.grids := rfl
@[simp] theorem setHd_ms (h : Nat) (g : HeadSt → HeadSt) : (s.setHd h g).ms = s.ms := rfl
@[simp] theorem setHd_wedges (h : Nat) (g : HeadSt → HeadSt) : (s.setHd h g).wedges = s.wedges := rfl
@[simp] theorem setHd_pipe (h : Nat) (g : HeadSt → HeadSt) : (s.setHd h g).pipe = s.pipe := rfl
@[simp] theorem setHd_tiles (h : Nat) (g : HeadSt → HeadSt) : (s.setHd h g).tiles = s.tiles := rfl
@[simp] theorem setHd_spd (h : Nat) (g : HeadSt → HeadSt) : (s.setHd h g).spd = s.spd := rfl
@[simp] theorem setHd_tags (h : Nat) (g : HeadSt → HeadSt) : (s.setHd h g).tags = s.tags := rfl
@[simp] theorem setHd_dram (h : Nat) (g : HeadSt → HeadSt) : (s.setHd h g).dram = s.dram := rfl
@[simp] theorem setHd_map (h : Nat) (g : HeadSt → HeadSt) : (s.setHd h g).map = s.map := rfl
@[simp] theorem setHd_out (h : Nat) (g : HeadSt → HeadSt) : (s.setHd h g).out = s.out := rfl
@[simp] theorem setHd_age (h : Nat) (g : HeadSt → HeadSt) : (s.setHd h g).age = s.age := rfl
@[simp] theorem setHd_plk (h : Nat) (g : HeadSt → HeadSt) : (s.setHd h g).plk = s.plk := rfl
@[simp] theorem setHd_sec (h : Nat) (g : HeadSt → HeadSt) : (s.setHd h g).sec = s.sec := rfl
@[simp] theorem setHd_image (h : Nat) (g : HeadSt → HeadSt) : (s.setHd h g).image = s.image := rfl
@[simp] theorem setHd_loadBuf (h : Nat) (g : HeadSt → HeadSt) : (s.setHd h g).loadBuf = s.loadBuf := rfl
@[simp] theorem setHd_erapQ (h : Nat) (g : HeadSt → HeadSt) : (s.setHd h g).erapQ = s.erapQ := rfl
@[simp] theorem setHd_own (h : Nat) (g : HeadSt → HeadSt) : (s.setHd h g).own = s.own := rfl
@[simp] theorem setHd_hosts (h : Nat) (g : HeadSt → HeadSt) : (s.setHd h g).hosts = s.hosts := rfl
@[simp] theorem setHd_safety (h : Nat) (g : HeadSt → HeadSt) : (s.setHd h g).safety = s.safety := rfl
@[simp] theorem setHd_pins (h : Nat) (g : HeadSt → HeadSt) : (s.setHd h g).pins = s.pins := rfl
@[simp] theorem setHd_cyc (h : Nat) (g : HeadSt → HeadSt) : (s.setHd h g).cyc = s.cyc := rfl
@[simp] theorem setHd_p2 (h : Nat) (g : HeadSt → HeadSt) : (s.setHd h g).p2 = s.p2 := rfl
@[simp] theorem setHd_free (h : Nat) (g : HeadSt → HeadSt) : (s.setHd h g).free = s.free := rfl
@[simp] theorem setHd_outbox (h : Nat) (g : HeadSt → HeadSt) : (s.setHd h g).outbox = s.outbox := rfl
@[simp] theorem setHd_reg (h : Nat) (g : HeadSt → HeadSt) (x : Nat) : (s.setHd h g).reg x = s.reg x := rfl
@[simp] theorem setHd_get (h : Nat) (g : HeadSt → HeadSt) (x : Fld) : (s.setHd h g).get x = s.get x := rfl
@[simp] theorem setHd_getI (h : Nat) (g : HeadSt → HeadSt) (x : Fld) : (s.setHd h g).getI x = s.getI x := rfl
@[simp] theorem setHd_on (h : Nat) (g : HeadSt → HeadSt) (x : Fld) : (s.setHd h g).on x = s.on x := rfl
@[simp] theorem setHd_dev (h : Nat) (g : HeadSt → HeadSt) : (s.setHd h g).dev = s.dev := rfl

/-! ### setWd -/

@[simp] theorem setWd_pending (w : Nat) (g : WedgeSt → WedgeSt) : (s.setWd w g).pending = s.pending := rfl
@[simp] theorem setWd_mono (w : Nat) (g : WedgeSt → WedgeSt) : (s.setWd w g).mono = s.mono := rfl
@[simp] theorem setWd_regs (w : Nat) (g : WedgeSt → WedgeSt) : (s.setWd w g).regs = s.regs := rfl
@[simp] theorem setWd_shadow (w : Nat) (g : WedgeSt → WedgeSt) : (s.setWd w g).shadow = s.shadow := rfl
@[simp] theorem setWd_time (w : Nat) (g : WedgeSt → WedgeSt) : (s.setWd w g).time = s.time := rfl
@[simp] theorem setWd_gptp (w : Nat) (g : WedgeSt → WedgeSt) : (s.setWd w g).gptp = s.gptp := rfl
@[simp] theorem setWd_trackers (w : Nat) (g : WedgeSt → WedgeSt) : (s.setWd w g).trackers = s.trackers := rfl
@[simp] theorem setWd_rev (w : Nat) (g : WedgeSt → WedgeSt) : (s.setWd w g).rev = s.rev := rfl
@[simp] theorem setWd_heads (w : Nat) (g : WedgeSt → WedgeSt) : (s.setWd w g).heads = s.heads := rfl
@[simp] theorem setWd_pose (w : Nat) (g : WedgeSt → WedgeSt) : (s.setWd w g).pose = s.pose := rfl
@[simp] theorem setWd_ing (w : Nat) (g : WedgeSt → WedgeSt) : (s.setWd w g).ing = s.ing := rfl
@[simp] theorem setWd_vhu (w : Nat) (g : WedgeSt → WedgeSt) : (s.setWd w g).vhu = s.vhu := rfl
@[simp] theorem setWd_grids (w : Nat) (g : WedgeSt → WedgeSt) : (s.setWd w g).grids = s.grids := rfl
@[simp] theorem setWd_ms (w : Nat) (g : WedgeSt → WedgeSt) : (s.setWd w g).ms = s.ms := rfl
@[simp] theorem setWd_wedges (w : Nat) (g : WedgeSt → WedgeSt) : (s.setWd w g).wedges = s.wedges.modify w g := rfl
@[simp] theorem setWd_pipe (w : Nat) (g : WedgeSt → WedgeSt) : (s.setWd w g).pipe = s.pipe := rfl
@[simp] theorem setWd_tiles (w : Nat) (g : WedgeSt → WedgeSt) : (s.setWd w g).tiles = s.tiles := rfl
@[simp] theorem setWd_spd (w : Nat) (g : WedgeSt → WedgeSt) : (s.setWd w g).spd = s.spd := rfl
@[simp] theorem setWd_tags (w : Nat) (g : WedgeSt → WedgeSt) : (s.setWd w g).tags = s.tags := rfl
@[simp] theorem setWd_dram (w : Nat) (g : WedgeSt → WedgeSt) : (s.setWd w g).dram = s.dram := rfl
@[simp] theorem setWd_map (w : Nat) (g : WedgeSt → WedgeSt) : (s.setWd w g).map = s.map := rfl
@[simp] theorem setWd_out (w : Nat) (g : WedgeSt → WedgeSt) : (s.setWd w g).out = s.out := rfl
@[simp] theorem setWd_age (w : Nat) (g : WedgeSt → WedgeSt) : (s.setWd w g).age = s.age := rfl
@[simp] theorem setWd_plk (w : Nat) (g : WedgeSt → WedgeSt) : (s.setWd w g).plk = s.plk := rfl
@[simp] theorem setWd_sec (w : Nat) (g : WedgeSt → WedgeSt) : (s.setWd w g).sec = s.sec := rfl
@[simp] theorem setWd_image (w : Nat) (g : WedgeSt → WedgeSt) : (s.setWd w g).image = s.image := rfl
@[simp] theorem setWd_loadBuf (w : Nat) (g : WedgeSt → WedgeSt) : (s.setWd w g).loadBuf = s.loadBuf := rfl
@[simp] theorem setWd_erapQ (w : Nat) (g : WedgeSt → WedgeSt) : (s.setWd w g).erapQ = s.erapQ := rfl
@[simp] theorem setWd_own (w : Nat) (g : WedgeSt → WedgeSt) : (s.setWd w g).own = s.own := rfl
@[simp] theorem setWd_hosts (w : Nat) (g : WedgeSt → WedgeSt) : (s.setWd w g).hosts = s.hosts := rfl
@[simp] theorem setWd_safety (w : Nat) (g : WedgeSt → WedgeSt) : (s.setWd w g).safety = s.safety := rfl
@[simp] theorem setWd_pins (w : Nat) (g : WedgeSt → WedgeSt) : (s.setWd w g).pins = s.pins := rfl
@[simp] theorem setWd_cyc (w : Nat) (g : WedgeSt → WedgeSt) : (s.setWd w g).cyc = s.cyc := rfl
@[simp] theorem setWd_p2 (w : Nat) (g : WedgeSt → WedgeSt) : (s.setWd w g).p2 = s.p2 := rfl
@[simp] theorem setWd_free (w : Nat) (g : WedgeSt → WedgeSt) : (s.setWd w g).free = s.free := rfl
@[simp] theorem setWd_outbox (w : Nat) (g : WedgeSt → WedgeSt) : (s.setWd w g).outbox = s.outbox := rfl
@[simp] theorem setWd_reg (w : Nat) (g : WedgeSt → WedgeSt) (x : Nat) : (s.setWd w g).reg x = s.reg x := rfl
@[simp] theorem setWd_get (w : Nat) (g : WedgeSt → WedgeSt) (x : Fld) : (s.setWd w g).get x = s.get x := rfl
@[simp] theorem setWd_getI (w : Nat) (g : WedgeSt → WedgeSt) (x : Fld) : (s.setWd w g).getI x = s.getI x := rfl
@[simp] theorem setWd_on (w : Nat) (g : WedgeSt → WedgeSt) (x : Fld) : (s.setWd w g).on x = s.on x := rfl
@[simp] theorem setWd_dev (w : Nat) (g : WedgeSt → WedgeSt) : (s.setWd w g).dev = s.dev := rfl

/-! ### setIng -/

@[simp] theorem setIng_pending (u : Nat) (g : IngSt → IngSt) : (s.setIng u g).pending = s.pending := rfl
@[simp] theorem setIng_mono (u : Nat) (g : IngSt → IngSt) : (s.setIng u g).mono = s.mono := rfl
@[simp] theorem setIng_regs (u : Nat) (g : IngSt → IngSt) : (s.setIng u g).regs = s.regs := rfl
@[simp] theorem setIng_shadow (u : Nat) (g : IngSt → IngSt) : (s.setIng u g).shadow = s.shadow := rfl
@[simp] theorem setIng_time (u : Nat) (g : IngSt → IngSt) : (s.setIng u g).time = s.time := rfl
@[simp] theorem setIng_gptp (u : Nat) (g : IngSt → IngSt) : (s.setIng u g).gptp = s.gptp := rfl
@[simp] theorem setIng_trackers (u : Nat) (g : IngSt → IngSt) : (s.setIng u g).trackers = s.trackers := rfl
@[simp] theorem setIng_rev (u : Nat) (g : IngSt → IngSt) : (s.setIng u g).rev = s.rev := rfl
@[simp] theorem setIng_heads (u : Nat) (g : IngSt → IngSt) : (s.setIng u g).heads = s.heads := rfl
@[simp] theorem setIng_pose (u : Nat) (g : IngSt → IngSt) : (s.setIng u g).pose = s.pose := rfl
@[simp] theorem setIng_ing (u : Nat) (g : IngSt → IngSt) : (s.setIng u g).ing = s.ing.modify u g := rfl
@[simp] theorem setIng_vhu (u : Nat) (g : IngSt → IngSt) : (s.setIng u g).vhu = s.vhu := rfl
@[simp] theorem setIng_grids (u : Nat) (g : IngSt → IngSt) : (s.setIng u g).grids = s.grids := rfl
@[simp] theorem setIng_ms (u : Nat) (g : IngSt → IngSt) : (s.setIng u g).ms = s.ms := rfl
@[simp] theorem setIng_wedges (u : Nat) (g : IngSt → IngSt) : (s.setIng u g).wedges = s.wedges := rfl
@[simp] theorem setIng_pipe (u : Nat) (g : IngSt → IngSt) : (s.setIng u g).pipe = s.pipe := rfl
@[simp] theorem setIng_tiles (u : Nat) (g : IngSt → IngSt) : (s.setIng u g).tiles = s.tiles := rfl
@[simp] theorem setIng_spd (u : Nat) (g : IngSt → IngSt) : (s.setIng u g).spd = s.spd := rfl
@[simp] theorem setIng_tags (u : Nat) (g : IngSt → IngSt) : (s.setIng u g).tags = s.tags := rfl
@[simp] theorem setIng_dram (u : Nat) (g : IngSt → IngSt) : (s.setIng u g).dram = s.dram := rfl
@[simp] theorem setIng_map (u : Nat) (g : IngSt → IngSt) : (s.setIng u g).map = s.map := rfl
@[simp] theorem setIng_out (u : Nat) (g : IngSt → IngSt) : (s.setIng u g).out = s.out := rfl
@[simp] theorem setIng_age (u : Nat) (g : IngSt → IngSt) : (s.setIng u g).age = s.age := rfl
@[simp] theorem setIng_plk (u : Nat) (g : IngSt → IngSt) : (s.setIng u g).plk = s.plk := rfl
@[simp] theorem setIng_sec (u : Nat) (g : IngSt → IngSt) : (s.setIng u g).sec = s.sec := rfl
@[simp] theorem setIng_image (u : Nat) (g : IngSt → IngSt) : (s.setIng u g).image = s.image := rfl
@[simp] theorem setIng_loadBuf (u : Nat) (g : IngSt → IngSt) : (s.setIng u g).loadBuf = s.loadBuf := rfl
@[simp] theorem setIng_erapQ (u : Nat) (g : IngSt → IngSt) : (s.setIng u g).erapQ = s.erapQ := rfl
@[simp] theorem setIng_own (u : Nat) (g : IngSt → IngSt) : (s.setIng u g).own = s.own := rfl
@[simp] theorem setIng_hosts (u : Nat) (g : IngSt → IngSt) : (s.setIng u g).hosts = s.hosts := rfl
@[simp] theorem setIng_safety (u : Nat) (g : IngSt → IngSt) : (s.setIng u g).safety = s.safety := rfl
@[simp] theorem setIng_pins (u : Nat) (g : IngSt → IngSt) : (s.setIng u g).pins = s.pins := rfl
@[simp] theorem setIng_cyc (u : Nat) (g : IngSt → IngSt) : (s.setIng u g).cyc = s.cyc := rfl
@[simp] theorem setIng_p2 (u : Nat) (g : IngSt → IngSt) : (s.setIng u g).p2 = s.p2 := rfl
@[simp] theorem setIng_free (u : Nat) (g : IngSt → IngSt) : (s.setIng u g).free = s.free := rfl
@[simp] theorem setIng_outbox (u : Nat) (g : IngSt → IngSt) : (s.setIng u g).outbox = s.outbox := rfl
@[simp] theorem setIng_reg (u : Nat) (g : IngSt → IngSt) (x : Nat) : (s.setIng u g).reg x = s.reg x := rfl
@[simp] theorem setIng_get (u : Nat) (g : IngSt → IngSt) (x : Fld) : (s.setIng u g).get x = s.get x := rfl
@[simp] theorem setIng_getI (u : Nat) (g : IngSt → IngSt) (x : Fld) : (s.setIng u g).getI x = s.getI x := rfl
@[simp] theorem setIng_on (u : Nat) (g : IngSt → IngSt) (x : Fld) : (s.setIng u g).on x = s.on x := rfl
@[simp] theorem setIng_dev (u : Nat) (g : IngSt → IngSt) : (s.setIng u g).dev = s.dev := rfl

/-! ### setVhu -/

@[simp] theorem setVhu_pending (u : Nat) (g : VhuSt → VhuSt) : (s.setVhu u g).pending = s.pending := rfl
@[simp] theorem setVhu_mono (u : Nat) (g : VhuSt → VhuSt) : (s.setVhu u g).mono = s.mono := rfl
@[simp] theorem setVhu_regs (u : Nat) (g : VhuSt → VhuSt) : (s.setVhu u g).regs = s.regs := rfl
@[simp] theorem setVhu_shadow (u : Nat) (g : VhuSt → VhuSt) : (s.setVhu u g).shadow = s.shadow := rfl
@[simp] theorem setVhu_time (u : Nat) (g : VhuSt → VhuSt) : (s.setVhu u g).time = s.time := rfl
@[simp] theorem setVhu_gptp (u : Nat) (g : VhuSt → VhuSt) : (s.setVhu u g).gptp = s.gptp := rfl
@[simp] theorem setVhu_trackers (u : Nat) (g : VhuSt → VhuSt) : (s.setVhu u g).trackers = s.trackers := rfl
@[simp] theorem setVhu_rev (u : Nat) (g : VhuSt → VhuSt) : (s.setVhu u g).rev = s.rev := rfl
@[simp] theorem setVhu_heads (u : Nat) (g : VhuSt → VhuSt) : (s.setVhu u g).heads = s.heads := rfl
@[simp] theorem setVhu_pose (u : Nat) (g : VhuSt → VhuSt) : (s.setVhu u g).pose = s.pose := rfl
@[simp] theorem setVhu_ing (u : Nat) (g : VhuSt → VhuSt) : (s.setVhu u g).ing = s.ing := rfl
@[simp] theorem setVhu_vhu (u : Nat) (g : VhuSt → VhuSt) : (s.setVhu u g).vhu = s.vhu.modify u g := rfl
@[simp] theorem setVhu_grids (u : Nat) (g : VhuSt → VhuSt) : (s.setVhu u g).grids = s.grids := rfl
@[simp] theorem setVhu_ms (u : Nat) (g : VhuSt → VhuSt) : (s.setVhu u g).ms = s.ms := rfl
@[simp] theorem setVhu_wedges (u : Nat) (g : VhuSt → VhuSt) : (s.setVhu u g).wedges = s.wedges := rfl
@[simp] theorem setVhu_pipe (u : Nat) (g : VhuSt → VhuSt) : (s.setVhu u g).pipe = s.pipe := rfl
@[simp] theorem setVhu_tiles (u : Nat) (g : VhuSt → VhuSt) : (s.setVhu u g).tiles = s.tiles := rfl
@[simp] theorem setVhu_spd (u : Nat) (g : VhuSt → VhuSt) : (s.setVhu u g).spd = s.spd := rfl
@[simp] theorem setVhu_tags (u : Nat) (g : VhuSt → VhuSt) : (s.setVhu u g).tags = s.tags := rfl
@[simp] theorem setVhu_dram (u : Nat) (g : VhuSt → VhuSt) : (s.setVhu u g).dram = s.dram := rfl
@[simp] theorem setVhu_map (u : Nat) (g : VhuSt → VhuSt) : (s.setVhu u g).map = s.map := rfl
@[simp] theorem setVhu_out (u : Nat) (g : VhuSt → VhuSt) : (s.setVhu u g).out = s.out := rfl
@[simp] theorem setVhu_age (u : Nat) (g : VhuSt → VhuSt) : (s.setVhu u g).age = s.age := rfl
@[simp] theorem setVhu_plk (u : Nat) (g : VhuSt → VhuSt) : (s.setVhu u g).plk = s.plk := rfl
@[simp] theorem setVhu_sec (u : Nat) (g : VhuSt → VhuSt) : (s.setVhu u g).sec = s.sec := rfl
@[simp] theorem setVhu_image (u : Nat) (g : VhuSt → VhuSt) : (s.setVhu u g).image = s.image := rfl
@[simp] theorem setVhu_loadBuf (u : Nat) (g : VhuSt → VhuSt) : (s.setVhu u g).loadBuf = s.loadBuf := rfl
@[simp] theorem setVhu_erapQ (u : Nat) (g : VhuSt → VhuSt) : (s.setVhu u g).erapQ = s.erapQ := rfl
@[simp] theorem setVhu_own (u : Nat) (g : VhuSt → VhuSt) : (s.setVhu u g).own = s.own := rfl
@[simp] theorem setVhu_hosts (u : Nat) (g : VhuSt → VhuSt) : (s.setVhu u g).hosts = s.hosts := rfl
@[simp] theorem setVhu_safety (u : Nat) (g : VhuSt → VhuSt) : (s.setVhu u g).safety = s.safety := rfl
@[simp] theorem setVhu_pins (u : Nat) (g : VhuSt → VhuSt) : (s.setVhu u g).pins = s.pins := rfl
@[simp] theorem setVhu_cyc (u : Nat) (g : VhuSt → VhuSt) : (s.setVhu u g).cyc = s.cyc := rfl
@[simp] theorem setVhu_p2 (u : Nat) (g : VhuSt → VhuSt) : (s.setVhu u g).p2 = s.p2 := rfl
@[simp] theorem setVhu_free (u : Nat) (g : VhuSt → VhuSt) : (s.setVhu u g).free = s.free := rfl
@[simp] theorem setVhu_outbox (u : Nat) (g : VhuSt → VhuSt) : (s.setVhu u g).outbox = s.outbox := rfl
@[simp] theorem setVhu_reg (u : Nat) (g : VhuSt → VhuSt) (x : Nat) : (s.setVhu u g).reg x = s.reg x := rfl
@[simp] theorem setVhu_get (u : Nat) (g : VhuSt → VhuSt) (x : Fld) : (s.setVhu u g).get x = s.get x := rfl
@[simp] theorem setVhu_getI (u : Nat) (g : VhuSt → VhuSt) (x : Fld) : (s.setVhu u g).getI x = s.getI x := rfl
@[simp] theorem setVhu_on (u : Nat) (g : VhuSt → VhuSt) (x : Fld) : (s.setVhu u g).on x = s.on x := rfl
@[simp] theorem setVhu_dev (u : Nat) (g : VhuSt → VhuSt) : (s.setVhu u g).dev = s.dev := rfl

/-! ### setTile -/

@[simp] theorem setTile_pending (t : Nat) (g : TileSt → TileSt) : (s.setTile t g).pending = s.pending := rfl
@[simp] theorem setTile_mono (t : Nat) (g : TileSt → TileSt) : (s.setTile t g).mono = s.mono := rfl
@[simp] theorem setTile_regs (t : Nat) (g : TileSt → TileSt) : (s.setTile t g).regs = s.regs := rfl
@[simp] theorem setTile_shadow (t : Nat) (g : TileSt → TileSt) : (s.setTile t g).shadow = s.shadow := rfl
@[simp] theorem setTile_time (t : Nat) (g : TileSt → TileSt) : (s.setTile t g).time = s.time := rfl
@[simp] theorem setTile_gptp (t : Nat) (g : TileSt → TileSt) : (s.setTile t g).gptp = s.gptp := rfl
@[simp] theorem setTile_trackers (t : Nat) (g : TileSt → TileSt) : (s.setTile t g).trackers = s.trackers := rfl
@[simp] theorem setTile_rev (t : Nat) (g : TileSt → TileSt) : (s.setTile t g).rev = s.rev := rfl
@[simp] theorem setTile_heads (t : Nat) (g : TileSt → TileSt) : (s.setTile t g).heads = s.heads := rfl
@[simp] theorem setTile_pose (t : Nat) (g : TileSt → TileSt) : (s.setTile t g).pose = s.pose := rfl
@[simp] theorem setTile_ing (t : Nat) (g : TileSt → TileSt) : (s.setTile t g).ing = s.ing := rfl
@[simp] theorem setTile_vhu (t : Nat) (g : TileSt → TileSt) : (s.setTile t g).vhu = s.vhu := rfl
@[simp] theorem setTile_grids (t : Nat) (g : TileSt → TileSt) : (s.setTile t g).grids = s.grids := rfl
@[simp] theorem setTile_ms (t : Nat) (g : TileSt → TileSt) : (s.setTile t g).ms = s.ms := rfl
@[simp] theorem setTile_wedges (t : Nat) (g : TileSt → TileSt) : (s.setTile t g).wedges = s.wedges := rfl
@[simp] theorem setTile_pipe (t : Nat) (g : TileSt → TileSt) : (s.setTile t g).pipe = s.pipe := rfl
@[simp] theorem setTile_tiles (t : Nat) (g : TileSt → TileSt) : (s.setTile t g).tiles = s.tiles.modify t g := rfl
@[simp] theorem setTile_spd (t : Nat) (g : TileSt → TileSt) : (s.setTile t g).spd = s.spd := rfl
@[simp] theorem setTile_tags (t : Nat) (g : TileSt → TileSt) : (s.setTile t g).tags = s.tags := rfl
@[simp] theorem setTile_dram (t : Nat) (g : TileSt → TileSt) : (s.setTile t g).dram = s.dram := rfl
@[simp] theorem setTile_map (t : Nat) (g : TileSt → TileSt) : (s.setTile t g).map = s.map := rfl
@[simp] theorem setTile_out (t : Nat) (g : TileSt → TileSt) : (s.setTile t g).out = s.out := rfl
@[simp] theorem setTile_age (t : Nat) (g : TileSt → TileSt) : (s.setTile t g).age = s.age := rfl
@[simp] theorem setTile_plk (t : Nat) (g : TileSt → TileSt) : (s.setTile t g).plk = s.plk := rfl
@[simp] theorem setTile_sec (t : Nat) (g : TileSt → TileSt) : (s.setTile t g).sec = s.sec := rfl
@[simp] theorem setTile_image (t : Nat) (g : TileSt → TileSt) : (s.setTile t g).image = s.image := rfl
@[simp] theorem setTile_loadBuf (t : Nat) (g : TileSt → TileSt) : (s.setTile t g).loadBuf = s.loadBuf := rfl
@[simp] theorem setTile_erapQ (t : Nat) (g : TileSt → TileSt) : (s.setTile t g).erapQ = s.erapQ := rfl
@[simp] theorem setTile_own (t : Nat) (g : TileSt → TileSt) : (s.setTile t g).own = s.own := rfl
@[simp] theorem setTile_hosts (t : Nat) (g : TileSt → TileSt) : (s.setTile t g).hosts = s.hosts := rfl
@[simp] theorem setTile_safety (t : Nat) (g : TileSt → TileSt) : (s.setTile t g).safety = s.safety := rfl
@[simp] theorem setTile_pins (t : Nat) (g : TileSt → TileSt) : (s.setTile t g).pins = s.pins := rfl
@[simp] theorem setTile_cyc (t : Nat) (g : TileSt → TileSt) : (s.setTile t g).cyc = s.cyc := rfl
@[simp] theorem setTile_p2 (t : Nat) (g : TileSt → TileSt) : (s.setTile t g).p2 = s.p2 := rfl
@[simp] theorem setTile_free (t : Nat) (g : TileSt → TileSt) : (s.setTile t g).free = s.free := rfl
@[simp] theorem setTile_outbox (t : Nat) (g : TileSt → TileSt) : (s.setTile t g).outbox = s.outbox := rfl
@[simp] theorem setTile_reg (t : Nat) (g : TileSt → TileSt) (x : Nat) : (s.setTile t g).reg x = s.reg x := rfl
@[simp] theorem setTile_get (t : Nat) (g : TileSt → TileSt) (x : Fld) : (s.setTile t g).get x = s.get x := rfl
@[simp] theorem setTile_getI (t : Nat) (g : TileSt → TileSt) (x : Fld) : (s.setTile t g).getI x = s.getI x := rfl
@[simp] theorem setTile_on (t : Nat) (g : TileSt → TileSt) (x : Fld) : (s.setTile t g).on x = s.on x := rfl
@[simp] theorem setTile_dev (t : Nat) (g : TileSt → TileSt) : (s.setTile t g).dev = s.dev := rfl

/-! ### setHost -/

@[simp] theorem setHost_pending (p : Nat) (g : HostPort → HostPort) : (s.setHost p g).pending = s.pending := rfl
@[simp] theorem setHost_mono (p : Nat) (g : HostPort → HostPort) : (s.setHost p g).mono = s.mono := rfl
@[simp] theorem setHost_regs (p : Nat) (g : HostPort → HostPort) : (s.setHost p g).regs = s.regs := rfl
@[simp] theorem setHost_shadow (p : Nat) (g : HostPort → HostPort) : (s.setHost p g).shadow = s.shadow := rfl
@[simp] theorem setHost_time (p : Nat) (g : HostPort → HostPort) : (s.setHost p g).time = s.time := rfl
@[simp] theorem setHost_gptp (p : Nat) (g : HostPort → HostPort) : (s.setHost p g).gptp = s.gptp := rfl
@[simp] theorem setHost_trackers (p : Nat) (g : HostPort → HostPort) : (s.setHost p g).trackers = s.trackers := rfl
@[simp] theorem setHost_rev (p : Nat) (g : HostPort → HostPort) : (s.setHost p g).rev = s.rev := rfl
@[simp] theorem setHost_heads (p : Nat) (g : HostPort → HostPort) : (s.setHost p g).heads = s.heads := rfl
@[simp] theorem setHost_pose (p : Nat) (g : HostPort → HostPort) : (s.setHost p g).pose = s.pose := rfl
@[simp] theorem setHost_ing (p : Nat) (g : HostPort → HostPort) : (s.setHost p g).ing = s.ing := rfl
@[simp] theorem setHost_vhu (p : Nat) (g : HostPort → HostPort) : (s.setHost p g).vhu = s.vhu := rfl
@[simp] theorem setHost_grids (p : Nat) (g : HostPort → HostPort) : (s.setHost p g).grids = s.grids := rfl
@[simp] theorem setHost_ms (p : Nat) (g : HostPort → HostPort) : (s.setHost p g).ms = s.ms := rfl
@[simp] theorem setHost_wedges (p : Nat) (g : HostPort → HostPort) : (s.setHost p g).wedges = s.wedges := rfl
@[simp] theorem setHost_pipe (p : Nat) (g : HostPort → HostPort) : (s.setHost p g).pipe = s.pipe := rfl
@[simp] theorem setHost_tiles (p : Nat) (g : HostPort → HostPort) : (s.setHost p g).tiles = s.tiles := rfl
@[simp] theorem setHost_spd (p : Nat) (g : HostPort → HostPort) : (s.setHost p g).spd = s.spd := rfl
@[simp] theorem setHost_tags (p : Nat) (g : HostPort → HostPort) : (s.setHost p g).tags = s.tags := rfl
@[simp] theorem setHost_dram (p : Nat) (g : HostPort → HostPort) : (s.setHost p g).dram = s.dram := rfl
@[simp] theorem setHost_map (p : Nat) (g : HostPort → HostPort) : (s.setHost p g).map = s.map := rfl
@[simp] theorem setHost_out (p : Nat) (g : HostPort → HostPort) : (s.setHost p g).out = s.out := rfl
@[simp] theorem setHost_age (p : Nat) (g : HostPort → HostPort) : (s.setHost p g).age = s.age := rfl
@[simp] theorem setHost_plk (p : Nat) (g : HostPort → HostPort) : (s.setHost p g).plk = s.plk := rfl
@[simp] theorem setHost_sec (p : Nat) (g : HostPort → HostPort) : (s.setHost p g).sec = s.sec := rfl
@[simp] theorem setHost_image (p : Nat) (g : HostPort → HostPort) : (s.setHost p g).image = s.image := rfl
@[simp] theorem setHost_loadBuf (p : Nat) (g : HostPort → HostPort) : (s.setHost p g).loadBuf = s.loadBuf := rfl
@[simp] theorem setHost_erapQ (p : Nat) (g : HostPort → HostPort) : (s.setHost p g).erapQ = s.erapQ := rfl
@[simp] theorem setHost_own (p : Nat) (g : HostPort → HostPort) : (s.setHost p g).own = s.own := rfl
@[simp] theorem setHost_hosts (p : Nat) (g : HostPort → HostPort) : (s.setHost p g).hosts = s.hosts.modify p g := rfl
@[simp] theorem setHost_safety (p : Nat) (g : HostPort → HostPort) : (s.setHost p g).safety = s.safety := rfl
@[simp] theorem setHost_pins (p : Nat) (g : HostPort → HostPort) : (s.setHost p g).pins = s.pins := rfl
@[simp] theorem setHost_cyc (p : Nat) (g : HostPort → HostPort) : (s.setHost p g).cyc = s.cyc := rfl
@[simp] theorem setHost_p2 (p : Nat) (g : HostPort → HostPort) : (s.setHost p g).p2 = s.p2 := rfl
@[simp] theorem setHost_free (p : Nat) (g : HostPort → HostPort) : (s.setHost p g).free = s.free := rfl
@[simp] theorem setHost_outbox (p : Nat) (g : HostPort → HostPort) : (s.setHost p g).outbox = s.outbox := rfl
@[simp] theorem setHost_reg (p : Nat) (g : HostPort → HostPort) (x : Nat) : (s.setHost p g).reg x = s.reg x := rfl
@[simp] theorem setHost_get (p : Nat) (g : HostPort → HostPort) (x : Fld) : (s.setHost p g).get x = s.get x := rfl
@[simp] theorem setHost_getI (p : Nat) (g : HostPort → HostPort) (x : Fld) : (s.setHost p g).getI x = s.getI x := rfl
@[simp] theorem setHost_on (p : Nat) (g : HostPort → HostPort) (x : Fld) : (s.setHost p g).on x = s.on x := rfl
@[simp] theorem setHost_dev (p : Nat) (g : HostPort → HostPort) : (s.setHost p g).dev = s.dev := rfl

/-! ### mp -/

@[simp] theorem mp_pending (g : MapSt → MapSt) : (s.mp g).pending = s.pending := rfl
@[simp] theorem mp_mono (g : MapSt → MapSt) : (s.mp g).mono = s.mono := rfl
@[simp] theorem mp_regs (g : MapSt → MapSt) : (s.mp g).regs = s.regs := rfl
@[simp] theorem mp_shadow (g : MapSt → MapSt) : (s.mp g).shadow = s.shadow := rfl
@[simp] theorem mp_time (g : MapSt → MapSt) : (s.mp g).time = s.time := rfl
@[simp] theorem mp_gptp (g : MapSt → MapSt) : (s.mp g).gptp = s.gptp := rfl
@[simp] theorem mp_trackers (g : MapSt → MapSt) : (s.mp g).trackers = s.trackers := rfl
@[simp] theorem mp_rev (g : MapSt → MapSt) : (s.mp g).rev = s.rev := rfl
@[simp] theorem mp_heads (g : MapSt → MapSt) : (s.mp g).heads = s.heads := rfl
@[simp] theorem mp_pose (g : MapSt → MapSt) : (s.mp g).pose = s.pose := rfl
@[simp] theorem mp_ing (g : MapSt → MapSt) : (s.mp g).ing = s.ing := rfl
@[simp] theorem mp_vhu (g : MapSt → MapSt) : (s.mp g).vhu = s.vhu := rfl
@[simp] theorem mp_grids (g : MapSt → MapSt) : (s.mp g).grids = s.grids := rfl
@[simp] theorem mp_ms (g : MapSt → MapSt) : (s.mp g).ms = s.ms := rfl
@[simp] theorem mp_wedges (g : MapSt → MapSt) : (s.mp g).wedges = s.wedges := rfl
@[simp] theorem mp_pipe (g : MapSt → MapSt) : (s.mp g).pipe = s.pipe := rfl
@[simp] theorem mp_tiles (g : MapSt → MapSt) : (s.mp g).tiles = s.tiles := rfl
@[simp] theorem mp_spd (g : MapSt → MapSt) : (s.mp g).spd = s.spd := rfl
@[simp] theorem mp_tags (g : MapSt → MapSt) : (s.mp g).tags = s.tags := rfl
@[simp] theorem mp_dram (g : MapSt → MapSt) : (s.mp g).dram = s.dram := rfl
@[simp] theorem mp_map (g : MapSt → MapSt) : (s.mp g).map = g s.map := rfl
@[simp] theorem mp_out (g : MapSt → MapSt) : (s.mp g).out = s.out := rfl
@[simp] theorem mp_age (g : MapSt → MapSt) : (s.mp g).age = s.age := rfl
@[simp] theorem mp_plk (g : MapSt → MapSt) : (s.mp g).plk = s.plk := rfl
@[simp] theorem mp_sec (g : MapSt → MapSt) : (s.mp g).sec = s.sec := rfl
@[simp] theorem mp_image (g : MapSt → MapSt) : (s.mp g).image = s.image := rfl
@[simp] theorem mp_loadBuf (g : MapSt → MapSt) : (s.mp g).loadBuf = s.loadBuf := rfl
@[simp] theorem mp_erapQ (g : MapSt → MapSt) : (s.mp g).erapQ = s.erapQ := rfl
@[simp] theorem mp_own (g : MapSt → MapSt) : (s.mp g).own = s.own := rfl
@[simp] theorem mp_hosts (g : MapSt → MapSt) : (s.mp g).hosts = s.hosts := rfl
@[simp] theorem mp_safety (g : MapSt → MapSt) : (s.mp g).safety = s.safety := rfl
@[simp] theorem mp_pins (g : MapSt → MapSt) : (s.mp g).pins = s.pins := rfl
@[simp] theorem mp_cyc (g : MapSt → MapSt) : (s.mp g).cyc = s.cyc := rfl
@[simp] theorem mp_p2 (g : MapSt → MapSt) : (s.mp g).p2 = s.p2 := rfl
@[simp] theorem mp_free (g : MapSt → MapSt) : (s.mp g).free = s.free := rfl
@[simp] theorem mp_outbox (g : MapSt → MapSt) : (s.mp g).outbox = s.outbox := rfl
@[simp] theorem mp_reg (g : MapSt → MapSt) (x : Nat) : (s.mp g).reg x = s.reg x := rfl
@[simp] theorem mp_get (g : MapSt → MapSt) (x : Fld) : (s.mp g).get x = s.get x := rfl
@[simp] theorem mp_getI (g : MapSt → MapSt) (x : Fld) : (s.mp g).getI x = s.getI x := rfl
@[simp] theorem mp_on (g : MapSt → MapSt) (x : Fld) : (s.mp g).on x = s.on x := rfl
@[simp] theorem mp_dev (g : MapSt → MapSt) : (s.mp g).dev = s.dev := rfl

/-! ### setTge -/

@[simp] theorem setTge_pending (u : Nat) (g : TgeSt → TgeSt) : (s.setTge u g).pending = s.pending := mp_pending _ _
@[simp] theorem setTge_mono (u : Nat) (g : TgeSt → TgeSt) : (s.setTge u g).mono = s.mono := mp_mono _ _
@[simp] theorem setTge_regs (u : Nat) (g : TgeSt → TgeSt) : (s.setTge u g).regs = s.regs := mp_regs _ _
@[simp] theorem setTge_shadow (u : Nat) (g : TgeSt → TgeSt) : (s.setTge u g).shadow = s.shadow := mp_shadow _ _
@[simp] theorem setTge_time (u : Nat) (g : TgeSt → TgeSt) : (s.setTge u g).time = s.time := mp_time _ _
@[simp] theorem setTge_gptp (u : Nat) (g : TgeSt → TgeSt) : (s.setTge u g).gptp = s.gptp := mp_gptp _ _
@[simp] theorem setTge_trackers (u : Nat) (g : TgeSt → TgeSt) : (s.setTge u g).trackers = s.trackers := mp_trackers _ _
@[simp] theorem setTge_rev (u : Nat) (g : TgeSt → TgeSt) : (s.setTge u g).rev = s.rev := mp_rev _ _
@[simp] theorem setTge_heads (u : Nat) (g : TgeSt → TgeSt) : (s.setTge u g).heads = s.heads := mp_heads _ _
@[simp] theorem setTge_pose (u : Nat) (g : TgeSt → TgeSt) : (s.setTge u g).pose = s.pose := mp_pose _ _
@[simp] theorem setTge_ing (u : Nat) (g : TgeSt → TgeSt) : (s.setTge u g).ing = s.ing := mp_ing _ _
@[simp] theorem setTge_vhu (u : Nat) (g : TgeSt → TgeSt) : (s.setTge u g).vhu = s.vhu := mp_vhu _ _
@[simp] theorem setTge_grids (u : Nat) (g : TgeSt → TgeSt) : (s.setTge u g).grids = s.grids := mp_grids _ _
@[simp] theorem setTge_ms (u : Nat) (g : TgeSt → TgeSt) : (s.setTge u g).ms = s.ms := mp_ms _ _
@[simp] theorem setTge_wedges (u : Nat) (g : TgeSt → TgeSt) : (s.setTge u g).wedges = s.wedges := mp_wedges _ _
@[simp] theorem setTge_pipe (u : Nat) (g : TgeSt → TgeSt) : (s.setTge u g).pipe = s.pipe := mp_pipe _ _
@[simp] theorem setTge_tiles (u : Nat) (g : TgeSt → TgeSt) : (s.setTge u g).tiles = s.tiles := mp_tiles _ _
@[simp] theorem setTge_spd (u : Nat) (g : TgeSt → TgeSt) : (s.setTge u g).spd = s.spd := mp_spd _ _
@[simp] theorem setTge_tags (u : Nat) (g : TgeSt → TgeSt) : (s.setTge u g).tags = s.tags := mp_tags _ _
@[simp] theorem setTge_dram (u : Nat) (g : TgeSt → TgeSt) : (s.setTge u g).dram = s.dram := mp_dram _ _
@[simp] theorem setTge_out (u : Nat) (g : TgeSt → TgeSt) : (s.setTge u g).out = s.out := mp_out _ _
@[simp] theorem setTge_age (u : Nat) (g : TgeSt → TgeSt) : (s.setTge u g).age = s.age := mp_age _ _
@[simp] theorem setTge_plk (u : Nat) (g : TgeSt → TgeSt) : (s.setTge u g).plk = s.plk := mp_plk _ _
@[simp] theorem setTge_sec (u : Nat) (g : TgeSt → TgeSt) : (s.setTge u g).sec = s.sec := mp_sec _ _
@[simp] theorem setTge_image (u : Nat) (g : TgeSt → TgeSt) : (s.setTge u g).image = s.image := mp_image _ _
@[simp] theorem setTge_loadBuf (u : Nat) (g : TgeSt → TgeSt) : (s.setTge u g).loadBuf = s.loadBuf := mp_loadBuf _ _
@[simp] theorem setTge_erapQ (u : Nat) (g : TgeSt → TgeSt) : (s.setTge u g).erapQ = s.erapQ := mp_erapQ _ _
@[simp] theorem setTge_own (u : Nat) (g : TgeSt → TgeSt) : (s.setTge u g).own = s.own := mp_own _ _
@[simp] theorem setTge_hosts (u : Nat) (g : TgeSt → TgeSt) : (s.setTge u g).hosts = s.hosts := mp_hosts _ _
@[simp] theorem setTge_safety (u : Nat) (g : TgeSt → TgeSt) : (s.setTge u g).safety = s.safety := mp_safety _ _
@[simp] theorem setTge_pins (u : Nat) (g : TgeSt → TgeSt) : (s.setTge u g).pins = s.pins := mp_pins _ _
@[simp] theorem setTge_cyc (u : Nat) (g : TgeSt → TgeSt) : (s.setTge u g).cyc = s.cyc := mp_cyc _ _
@[simp] theorem setTge_p2 (u : Nat) (g : TgeSt → TgeSt) : (s.setTge u g).p2 = s.p2 := mp_p2 _ _
@[simp] theorem setTge_free (u : Nat) (g : TgeSt → TgeSt) : (s.setTge u g).free = s.free := mp_free _ _
@[simp] theorem setTge_outbox (u : Nat) (g : TgeSt → TgeSt) : (s.setTge u g).outbox = s.outbox := mp_outbox _ _
@[simp] theorem setTge_reg (u : Nat) (g : TgeSt → TgeSt) (x : Nat) : (s.setTge u g).reg x = s.reg x := rfl
@[simp] theorem setTge_get (u : Nat) (g : TgeSt → TgeSt) (x : Fld) : (s.setTge u g).get x = s.get x := rfl
@[simp] theorem setTge_getI (u : Nat) (g : TgeSt → TgeSt) (x : Fld) : (s.setTge u g).getI x = s.getI x := rfl
@[simp] theorem setTge_on (u : Nat) (g : TgeSt → TgeSt) (x : Fld) : (s.setTge u g).on x = s.on x := rfl
@[simp] theorem setTge_dev (u : Nat) (g : TgeSt → TgeSt) : (s.setTge u g).dev = s.dev := rfl

/-! ### pl -/

@[simp] theorem pl_pending (g : PlkSt → PlkSt) : (s.pl g).pending = s.pending := rfl
@[simp] theorem pl_mono (g : PlkSt → PlkSt) : (s.pl g).mono = s.mono := rfl
@[simp] theorem pl_regs (g : PlkSt → PlkSt) : (s.pl g).regs = s.regs := rfl
@[simp] theorem pl_shadow (g : PlkSt → PlkSt) : (s.pl g).shadow = s.shadow := rfl
@[simp] theorem pl_time (g : PlkSt → PlkSt) : (s.pl g).time = s.time := rfl
@[simp] theorem pl_gptp (g : PlkSt → PlkSt) : (s.pl g).gptp = s.gptp := rfl
@[simp] theorem pl_trackers (g : PlkSt → PlkSt) : (s.pl g).trackers = s.trackers := rfl
@[simp] theorem pl_rev (g : PlkSt → PlkSt) : (s.pl g).rev = s.rev := rfl
@[simp] theorem pl_heads (g : PlkSt → PlkSt) : (s.pl g).heads = s.heads := rfl
@[simp] theorem pl_pose (g : PlkSt → PlkSt) : (s.pl g).pose = s.pose := rfl
@[simp] theorem pl_ing (g : PlkSt → PlkSt) : (s.pl g).ing = s.ing := rfl
@[simp] theorem pl_vhu (g : PlkSt → PlkSt) : (s.pl g).vhu = s.vhu := rfl
@[simp] theorem pl_grids (g : PlkSt → PlkSt) : (s.pl g).grids = s.grids := rfl
@[simp] theorem pl_ms (g : PlkSt → PlkSt) : (s.pl g).ms = s.ms := rfl
@[simp] theorem pl_wedges (g : PlkSt → PlkSt) : (s.pl g).wedges = s.wedges := rfl
@[simp] theorem pl_pipe (g : PlkSt → PlkSt) : (s.pl g).pipe = s.pipe := rfl
@[simp] theorem pl_tiles (g : PlkSt → PlkSt) : (s.pl g).tiles = s.tiles := rfl
@[simp] theorem pl_spd (g : PlkSt → PlkSt) : (s.pl g).spd = s.spd := rfl
@[simp] theorem pl_tags (g : PlkSt → PlkSt) : (s.pl g).tags = s.tags := rfl
@[simp] theorem pl_dram (g : PlkSt → PlkSt) : (s.pl g).dram = s.dram := rfl
@[simp] theorem pl_map (g : PlkSt → PlkSt) : (s.pl g).map = s.map := rfl
@[simp] theorem pl_out (g : PlkSt → PlkSt) : (s.pl g).out = s.out := rfl
@[simp] theorem pl_age (g : PlkSt → PlkSt) : (s.pl g).age = s.age := rfl
@[simp] theorem pl_plk (g : PlkSt → PlkSt) : (s.pl g).plk = g s.plk := rfl
@[simp] theorem pl_sec (g : PlkSt → PlkSt) : (s.pl g).sec = s.sec := rfl
@[simp] theorem pl_image (g : PlkSt → PlkSt) : (s.pl g).image = s.image := rfl
@[simp] theorem pl_loadBuf (g : PlkSt → PlkSt) : (s.pl g).loadBuf = s.loadBuf := rfl
@[simp] theorem pl_erapQ (g : PlkSt → PlkSt) : (s.pl g).erapQ = s.erapQ := rfl
@[simp] theorem pl_own (g : PlkSt → PlkSt) : (s.pl g).own = s.own := rfl
@[simp] theorem pl_hosts (g : PlkSt → PlkSt) : (s.pl g).hosts = s.hosts := rfl
@[simp] theorem pl_safety (g : PlkSt → PlkSt) : (s.pl g).safety = s.safety := rfl
@[simp] theorem pl_pins (g : PlkSt → PlkSt) : (s.pl g).pins = s.pins := rfl
@[simp] theorem pl_cyc (g : PlkSt → PlkSt) : (s.pl g).cyc = s.cyc := rfl
@[simp] theorem pl_p2 (g : PlkSt → PlkSt) : (s.pl g).p2 = s.p2 := rfl
@[simp] theorem pl_free (g : PlkSt → PlkSt) : (s.pl g).free = s.free := rfl
@[simp] theorem pl_outbox (g : PlkSt → PlkSt) : (s.pl g).outbox = s.outbox := rfl
@[simp] theorem pl_reg (g : PlkSt → PlkSt) (x : Nat) : (s.pl g).reg x = s.reg x := rfl
@[simp] theorem pl_get (g : PlkSt → PlkSt) (x : Fld) : (s.pl g).get x = s.get x := rfl
@[simp] theorem pl_getI (g : PlkSt → PlkSt) (x : Fld) : (s.pl g).getI x = s.getI x := rfl
@[simp] theorem pl_on (g : PlkSt → PlkSt) (x : Fld) : (s.pl g).on x = s.on x := rfl
@[simp] theorem pl_dev (g : PlkSt → PlkSt) : (s.pl g).dev = s.dev := rfl

/-! ### sc -/

@[simp] theorem sc_pending (g : SecSt → SecSt) : (s.sc g).pending = s.pending := rfl
@[simp] theorem sc_mono (g : SecSt → SecSt) : (s.sc g).mono = s.mono := rfl
@[simp] theorem sc_regs (g : SecSt → SecSt) : (s.sc g).regs = s.regs := rfl
@[simp] theorem sc_shadow (g : SecSt → SecSt) : (s.sc g).shadow = s.shadow := rfl
@[simp] theorem sc_time (g : SecSt → SecSt) : (s.sc g).time = s.time := rfl
@[simp] theorem sc_gptp (g : SecSt → SecSt) : (s.sc g).gptp = s.gptp := rfl
@[simp] theorem sc_trackers (g : SecSt → SecSt) : (s.sc g).trackers = s.trackers := rfl
@[simp] theorem sc_rev (g : SecSt → SecSt) : (s.sc g).rev = s.rev := rfl
@[simp] theorem sc_heads (g : SecSt → SecSt) : (s.sc g).heads = s.heads := rfl
@[simp] theorem sc_pose (g : SecSt → SecSt) : (s.sc g).pose = s.pose := rfl
@[simp] theorem sc_ing (g : SecSt → SecSt) : (s.sc g).ing = s.ing := rfl
@[simp] theorem sc_vhu (g : SecSt → SecSt) : (s.sc g).vhu = s.vhu := rfl
@[simp] theorem sc_grids (g : SecSt → SecSt) : (s.sc g).grids = s.grids := rfl
@[simp] theorem sc_ms (g : SecSt → SecSt) : (s.sc g).ms = s.ms := rfl
@[simp] theorem sc_wedges (g : SecSt → SecSt) : (s.sc g).wedges = s.wedges := rfl
@[simp] theorem sc_pipe (g : SecSt → SecSt) : (s.sc g).pipe = s.pipe := rfl
@[simp] theorem sc_tiles (g : SecSt → SecSt) : (s.sc g).tiles = s.tiles := rfl
@[simp] theorem sc_spd (g : SecSt → SecSt) : (s.sc g).spd = s.spd := rfl
@[simp] theorem sc_tags (g : SecSt → SecSt) : (s.sc g).tags = s.tags := rfl
@[simp] theorem sc_dram (g : SecSt → SecSt) : (s.sc g).dram = s.dram := rfl
@[simp] theorem sc_map (g : SecSt → SecSt) : (s.sc g).map = s.map := rfl
@[simp] theorem sc_out (g : SecSt → SecSt) : (s.sc g).out = s.out := rfl
@[simp] theorem sc_age (g : SecSt → SecSt) : (s.sc g).age = s.age := rfl
@[simp] theorem sc_plk (g : SecSt → SecSt) : (s.sc g).plk = s.plk := rfl
@[simp] theorem sc_sec (g : SecSt → SecSt) : (s.sc g).sec = g s.sec := rfl
@[simp] theorem sc_image (g : SecSt → SecSt) : (s.sc g).image = s.image := rfl
@[simp] theorem sc_loadBuf (g : SecSt → SecSt) : (s.sc g).loadBuf = s.loadBuf := rfl
@[simp] theorem sc_erapQ (g : SecSt → SecSt) : (s.sc g).erapQ = s.erapQ := rfl
@[simp] theorem sc_own (g : SecSt → SecSt) : (s.sc g).own = s.own := rfl
@[simp] theorem sc_hosts (g : SecSt → SecSt) : (s.sc g).hosts = s.hosts := rfl
@[simp] theorem sc_safety (g : SecSt → SecSt) : (s.sc g).safety = s.safety := rfl
@[simp] theorem sc_pins (g : SecSt → SecSt) : (s.sc g).pins = s.pins := rfl
@[simp] theorem sc_cyc (g : SecSt → SecSt) : (s.sc g).cyc = s.cyc := rfl
@[simp] theorem sc_p2 (g : SecSt → SecSt) : (s.sc g).p2 = s.p2 := rfl
@[simp] theorem sc_free (g : SecSt → SecSt) : (s.sc g).free = s.free := rfl
@[simp] theorem sc_outbox (g : SecSt → SecSt) : (s.sc g).outbox = s.outbox := rfl
@[simp] theorem sc_reg (g : SecSt → SecSt) (x : Nat) : (s.sc g).reg x = s.reg x := rfl
@[simp] theorem sc_get (g : SecSt → SecSt) (x : Fld) : (s.sc g).get x = s.get x := rfl
@[simp] theorem sc_getI (g : SecSt → SecSt) (x : Fld) : (s.sc g).getI x = s.getI x := rfl
@[simp] theorem sc_on (g : SecSt → SecSt) (x : Fld) : (s.sc g).on x = s.on x := rfl
@[simp] theorem sc_dev (g : SecSt → SecSt) : (s.sc g).dev = s.dev := rfl

/-! ### ag -/

@[simp] theorem ag_pending (g : AgeSt → AgeSt) : (s.ag g).pending = s.pending := rfl
@[simp] theorem ag_mono (g : AgeSt → AgeSt) : (s.ag g).mono = s.mono := rfl
@[simp] theorem ag_regs (g : AgeSt → AgeSt) : (s.ag g).regs = s.regs := rfl
@[simp] theorem ag_shadow (g : AgeSt → AgeSt) : (s.ag g).shadow = s.shadow := rfl
@[simp] theorem ag_time (g : AgeSt → AgeSt) : (s.ag g).time = s.time := rfl
@[simp] theorem ag_gptp (g : AgeSt → AgeSt) : (s.ag g).gptp = s.gptp := rfl
@[simp] theorem ag_trackers (g : AgeSt → AgeSt) : (s.ag g).trackers = s.trackers := rfl
@[simp] theorem ag_rev (g : AgeSt → AgeSt) : (s.ag g).rev = s.rev := rfl
@[simp] theorem ag_heads (g : AgeSt → AgeSt) : (s.ag g).heads = s.heads := rfl
@[simp] theorem ag_pose (g : AgeSt → AgeSt) : (s.ag g).pose = s.pose := rfl
@[simp] theorem ag_ing (g : AgeSt → AgeSt) : (s.ag g).ing = s.ing := rfl
@[simp] theorem ag_vhu (g : AgeSt → AgeSt) : (s.ag g).vhu = s.vhu := rfl
@[simp] theorem ag_grids (g : AgeSt → AgeSt) : (s.ag g).grids = s.grids := rfl
@[simp] theorem ag_ms (g : AgeSt → AgeSt) : (s.ag g).ms = s.ms := rfl
@[simp] theorem ag_wedges (g : AgeSt → AgeSt) : (s.ag g).wedges = s.wedges := rfl
@[simp] theorem ag_pipe (g : AgeSt → AgeSt) : (s.ag g).pipe = s.pipe := rfl
@[simp] theorem ag_tiles (g : AgeSt → AgeSt) : (s.ag g).tiles = s.tiles := rfl
@[simp] theorem ag_spd (g : AgeSt → AgeSt) : (s.ag g).spd = s.spd := rfl
@[simp] theorem ag_tags (g : AgeSt → AgeSt) : (s.ag g).tags = s.tags := rfl
@[simp] theorem ag_dram (g : AgeSt → AgeSt) : (s.ag g).dram = s.dram := rfl
@[simp] theorem ag_map (g : AgeSt → AgeSt) : (s.ag g).map = s.map := rfl
@[simp] theorem ag_out (g : AgeSt → AgeSt) : (s.ag g).out = s.out := rfl
@[simp] theorem ag_age (g : AgeSt → AgeSt) : (s.ag g).age = g s.age := rfl
@[simp] theorem ag_plk (g : AgeSt → AgeSt) : (s.ag g).plk = s.plk := rfl
@[simp] theorem ag_sec (g : AgeSt → AgeSt) : (s.ag g).sec = s.sec := rfl
@[simp] theorem ag_image (g : AgeSt → AgeSt) : (s.ag g).image = s.image := rfl
@[simp] theorem ag_loadBuf (g : AgeSt → AgeSt) : (s.ag g).loadBuf = s.loadBuf := rfl
@[simp] theorem ag_erapQ (g : AgeSt → AgeSt) : (s.ag g).erapQ = s.erapQ := rfl
@[simp] theorem ag_own (g : AgeSt → AgeSt) : (s.ag g).own = s.own := rfl
@[simp] theorem ag_hosts (g : AgeSt → AgeSt) : (s.ag g).hosts = s.hosts := rfl
@[simp] theorem ag_safety (g : AgeSt → AgeSt) : (s.ag g).safety = s.safety := rfl
@[simp] theorem ag_pins (g : AgeSt → AgeSt) : (s.ag g).pins = s.pins := rfl
@[simp] theorem ag_cyc (g : AgeSt → AgeSt) : (s.ag g).cyc = s.cyc := rfl
@[simp] theorem ag_p2 (g : AgeSt → AgeSt) : (s.ag g).p2 = s.p2 := rfl
@[simp] theorem ag_free (g : AgeSt → AgeSt) : (s.ag g).free = s.free := rfl
@[simp] theorem ag_outbox (g : AgeSt → AgeSt) : (s.ag g).outbox = s.outbox := rfl
@[simp] theorem ag_reg (g : AgeSt → AgeSt) (x : Nat) : (s.ag g).reg x = s.reg x := rfl
@[simp] theorem ag_get (g : AgeSt → AgeSt) (x : Fld) : (s.ag g).get x = s.get x := rfl
@[simp] theorem ag_getI (g : AgeSt → AgeSt) (x : Fld) : (s.ag g).getI x = s.getI x := rfl
@[simp] theorem ag_on (g : AgeSt → AgeSt) (x : Fld) : (s.ag g).on x = s.on x := rfl
@[simp] theorem ag_dev (g : AgeSt → AgeSt) : (s.ag g).dev = s.dev := rfl

/-! ### ow -/

@[simp] theorem ow_pending (g : OwnSt → OwnSt) : (s.ow g).pending = s.pending := rfl
@[simp] theorem ow_mono (g : OwnSt → OwnSt) : (s.ow g).mono = s.mono := rfl
@[simp] theorem ow_regs (g : OwnSt → OwnSt) : (s.ow g).regs = s.regs := rfl
@[simp] theorem ow_shadow (g : OwnSt → OwnSt) : (s.ow g).shadow = s.shadow := rfl
@[simp] theorem ow_time (g : OwnSt → OwnSt) : (s.ow g).time = s.time := rfl
@[simp] theorem ow_gptp (g : OwnSt → OwnSt) : (s.ow g).gptp = s.gptp := rfl
@[simp] theorem ow_trackers (g : OwnSt → OwnSt) : (s.ow g).trackers = s.trackers := rfl
@[simp] theorem ow_rev (g : OwnSt → OwnSt) : (s.ow g).rev = s.rev := rfl
@[simp] theorem ow_heads (g : OwnSt → OwnSt) : (s.ow g).heads = s.heads := rfl
@[simp] theorem ow_pose (g : OwnSt → OwnSt) : (s.ow g).pose = s.pose := rfl
@[simp] theorem ow_ing (g : OwnSt → OwnSt) : (s.ow g).ing = s.ing := rfl
@[simp] theorem ow_vhu (g : OwnSt → OwnSt) : (s.ow g).vhu = s.vhu := rfl
@[simp] theorem ow_grids (g : OwnSt → OwnSt) : (s.ow g).grids = s.grids := rfl
@[simp] theorem ow_ms (g : OwnSt → OwnSt) : (s.ow g).ms = s.ms := rfl
@[simp] theorem ow_wedges (g : OwnSt → OwnSt) : (s.ow g).wedges = s.wedges := rfl
@[simp] theorem ow_pipe (g : OwnSt → OwnSt) : (s.ow g).pipe = s.pipe := rfl
@[simp] theorem ow_tiles (g : OwnSt → OwnSt) : (s.ow g).tiles = s.tiles := rfl
@[simp] theorem ow_spd (g : OwnSt → OwnSt) : (s.ow g).spd = s.spd := rfl
@[simp] theorem ow_tags (g : OwnSt → OwnSt) : (s.ow g).tags = s.tags := rfl
@[simp] theorem ow_dram (g : OwnSt → OwnSt) : (s.ow g).dram = s.dram := rfl
@[simp] theorem ow_map (g : OwnSt → OwnSt) : (s.ow g).map = s.map := rfl
@[simp] theorem ow_out (g : OwnSt → OwnSt) : (s.ow g).out = s.out := rfl
@[simp] theorem ow_age (g : OwnSt → OwnSt) : (s.ow g).age = s.age := rfl
@[simp] theorem ow_plk (g : OwnSt → OwnSt) : (s.ow g).plk = s.plk := rfl
@[simp] theorem ow_sec (g : OwnSt → OwnSt) : (s.ow g).sec = s.sec := rfl
@[simp] theorem ow_image (g : OwnSt → OwnSt) : (s.ow g).image = s.image := rfl
@[simp] theorem ow_loadBuf (g : OwnSt → OwnSt) : (s.ow g).loadBuf = s.loadBuf := rfl
@[simp] theorem ow_erapQ (g : OwnSt → OwnSt) : (s.ow g).erapQ = s.erapQ := rfl
@[simp] theorem ow_own (g : OwnSt → OwnSt) : (s.ow g).own = g s.own := rfl
@[simp] theorem ow_hosts (g : OwnSt → OwnSt) : (s.ow g).hosts = s.hosts := rfl
@[simp] theorem ow_safety (g : OwnSt → OwnSt) : (s.ow g).safety = s.safety := rfl
@[simp] theorem ow_pins (g : OwnSt → OwnSt) : (s.ow g).pins = s.pins := rfl
@[simp] theorem ow_cyc (g : OwnSt → OwnSt) : (s.ow g).cyc = s.cyc := rfl
@[simp] theorem ow_p2 (g : OwnSt → OwnSt) : (s.ow g).p2 = s.p2 := rfl
@[simp] theorem ow_free (g : OwnSt → OwnSt) : (s.ow g).free = s.free := rfl
@[simp] theorem ow_outbox (g : OwnSt → OwnSt) : (s.ow g).outbox = s.outbox := rfl
@[simp] theorem ow_reg (g : OwnSt → OwnSt) (x : Nat) : (s.ow g).reg x = s.reg x := rfl
@[simp] theorem ow_get (g : OwnSt → OwnSt) (x : Fld) : (s.ow g).get x = s.get x := rfl
@[simp] theorem ow_getI (g : OwnSt → OwnSt) (x : Fld) : (s.ow g).getI x = s.getI x := rfl
@[simp] theorem ow_on (g : OwnSt → OwnSt) (x : Fld) : (s.ow g).on x = s.on x := rfl
@[simp] theorem ow_dev (g : OwnSt → OwnSt) : (s.ow g).dev = s.dev := rfl

/-! ### What is due -/

/-- With no wedge due to close, the instant of a command is only the move of TB_MONO to it. -/
theorem at_of_dueAt (t : Nat) (h : s.pipe.dueAt = none) : s.at_ t = s.clock t := by unfold State.at_; rw [h]

/-- In the evaluation step in which a wedge came due, the instant of a command is only the move of TB_MONO to it. -/
theorem at_of_step (t a : Nat) (h : s.pipe.dueAt = some a) (e : evalStep (max s.mono t) ≤ evalStep a) : s.at_ t = s.clock t := by
  unfold State.at_; rw [h]; simp [Nat.not_lt.mpr e]

/-- The registers of two states with the same register words and the same variant read the same. -/
theorem reg_congr (s u : State) (h : u.regs = s.regs) (p : u.p2 = s.p2) (a : Nat) : u.reg a = s.reg a := by
  unfold State.reg State.dflt; rw [h, p]

/-- A hardware set leaves the register as a plain set of the bit does. -/
@[simp] theorem set1_reg (f : Fld) (x : Nat) : (s.set1 f).reg x = (s.put f 1).reg x := reg_congr _ _ (by simp only [State.set1]) (by simp only [State.set1]) x

/-- A hardware load leaves the register as a plain change of the field does. -/
@[simp] theorem load_reg (f : Fld) (v x : Nat) : (s.load f v).reg x = (s.put f v).reg x := reg_congr _ _ (by simp only [State.load]) (by simp only [State.load]) x

end Sys2Proof.Laws
end

