-- ==== Sys2Proof/Laws/Regs.lean ====
section
/-! SUPPORT. The laws of registers and fields: what a read gives after a write, and what the other writes leave. -/

namespace Sys2Proof.Laws

open Sys2Proof.Machine

/-! ### Words and fields -/

theorem withBits_lt {x lo w v : Nat} (h : lo + w ≤ 32) (hx : x < 2 ^ 32) : withBits x lo w v < 2 ^ 32 := by
  unfold withBits
  obtain ⟨k, hk⟩ := Nat.exists_eq_add_of_le h
  have h1 : x / 2 ^ (lo + w) < 2 ^ k := by
    rw [Nat.div_lt_iff_lt_mul (by positivity), ← pow_add]
    rwa [show k + (lo + w) = 32 by omega]
  have h2 : v % 2 ^ w * 2 ^ lo + x % 2 ^ lo < 2 ^ (lo + w) := by
    have ha := Nat.mod_lt v (show 0 < 2 ^ w by positivity)
    have hb := Nat.mod_lt x (show 0 < 2 ^ lo by positivity)
    have hc := Nat.mul_le_mul_right (2 ^ lo) (Nat.succ_le_of_lt ha)
    rw [Nat.succ_mul] at hc
    rw [pow_add, Nat.mul_comm (2 ^ lo)]
    omega
  have h3 : (2 : Nat) ^ 32 = 2 ^ k * 2 ^ (lo + w) := by rw [← pow_add]; congr 1; omega
  have hc := Nat.mul_le_mul_right (2 ^ (lo + w)) (Nat.succ_le_of_lt h1)
  rw [Nat.succ_mul] at hc
  rw [h3]
  omega

theorem bitsOf_withBits_self (x lo w v : Nat) : bitsOf (withBits x lo w v) lo w = v % 2 ^ w := by
  unfold bitsOf withBits
  rw [Nat.shiftRight_eq_div_pow]
  have hb := Nat.mod_lt x (show 0 < 2 ^ lo by positivity)
  rw [pow_add, show x / (2 ^ lo * 2 ^ w) * (2 ^ lo * 2 ^ w) + v % 2 ^ w * 2 ^ lo + x % 2 ^ lo =
    x % 2 ^ lo + (x / (2 ^ lo * 2 ^ w) * 2 ^ w + v % 2 ^ w) * 2 ^ lo by ring,
    Nat.add_mul_div_right _ _ (by positivity), Nat.div_eq_of_lt hb, Nat.zero_add, Nat.mul_add_mod_self_right,
    Nat.mod_mod]

theorem testBit_withBits (x lo w v i : Nat) :
    (withBits x lo w v).testBit i = if lo ≤ i ∧ i < lo + w then v.testBit (i - lo) else x.testBit i := by
  unfold withBits
  have hb := Nat.mod_lt x (show 0 < 2 ^ lo by positivity)
  have ha := Nat.mod_lt v (show 0 < 2 ^ w by positivity)
  have e : x / 2 ^ (lo + w) * 2 ^ (lo + w) + v % 2 ^ w * 2 ^ lo + x % 2 ^ lo =
      2 ^ lo * (2 ^ w * (x / 2 ^ (lo + w)) + v % 2 ^ w) + x % 2 ^ lo := by rw [pow_add]; ring
  rw [e, Nat.testBit_two_pow_mul_add _ hb, Nat.testBit_two_pow_mul_add _ ha, Nat.testBit_mod_two_pow, Nat.testBit_mod_two_pow,
    Nat.testBit_div_two_pow]
  by_cases h1 : i < lo
  · simp [h1, show ¬ (lo ≤ i ∧ i < lo + w) by omega]
  · by_cases h2 : i - lo < w
    · simp [h1, h2, show lo ≤ i ∧ i < lo + w by omega]
    · simp [h1, h2, show ¬ (lo ≤ i ∧ i < lo + w) by omega, show i - lo - w + (lo + w) = i by omega]

theorem testBit_bitsOf (x lo w i : Nat) : (bitsOf x lo w).testBit i = (decide (i < w) && x.testBit (lo + i)) := by
  simp [bitsOf, Nat.testBit_mod_two_pow, Nat.testBit_shiftRight]

theorem bitsOf_withBits_of_disjoint {x lo w v lo' w' : Nat} (h : lo' + w' ≤ lo ∨ lo + w ≤ lo') :
    bitsOf (withBits x lo w v) lo' w' = bitsOf x lo' w' := by
  refine Nat.eq_of_testBit_eq fun i => ?_
  rw [testBit_bitsOf, testBit_bitsOf, testBit_withBits]
  by_cases hi : i < w'
  · simp [show ¬ (lo ≤ lo' + i ∧ lo' + i < lo + w) by omega]
  · simp [hi]

/-! ### Registers -/

variable (s : State)

theorem reg_lt (a : Nat) : s.reg a < 2 ^ 32 := (rd (s.dflt a) s.regs a).isLt

@[simp] theorem setReg_dflt (a v b : Nat) : (s.setReg a v).dflt b = s.dflt b := rfl

@[simp] theorem reg_setReg_self (a v : Nat) : (s.setReg a v).reg a = v % 2 ^ 32 := by
  rw [State.reg, setReg_dflt]
  simp [State.setReg]

theorem reg_setReg_of_ne {a b : Nat} (h : b ≠ a) (v : Nat) : (s.setReg a v).reg b = s.reg b := by
  rw [State.reg, State.reg, setReg_dflt]
  simp [State.setReg, rd_wr_of_ne h]

/-- A field of a register. -/
def Fits (f : Fld) : Prop := f.lo + f.w ≤ 32

theorem get_lt (f : Fld) : s.get f < 2 ^ f.w := Nat.mod_lt _ (by positivity)

@[simp] theorem reg_put_self (f : Fld) (v : Nat) (h : f.lo + f.w ≤ 32) :
    (s.put f v).reg f.addr = withBits (s.reg f.addr) f.lo f.w v := by
  rw [State.put, reg_setReg_self, Nat.mod_eq_of_lt (withBits_lt h (reg_lt s _))]

theorem reg_put_of_ne {f : Fld} {a : Nat} (h : a ≠ f.addr) (v : Nat) : (s.put f v).reg a = s.reg a := reg_setReg_of_ne s h _

theorem get_put_self (f : Fld) (v : Nat) (h : f.lo + f.w ≤ 32) : (s.put f v).get f = v % 2 ^ f.w := by
  rw [State.get, reg_put_self s f v h, bitsOf_withBits_self]

theorem get_put_of_ne {f g : Fld} (h : g.addr ≠ f.addr) (v : Nat) : (s.put f v).get g = s.get g := by
  rw [State.get, reg_put_of_ne s h, State.get]

theorem get_put_of_disjoint {f g : Fld} (hf : f.lo + f.w ≤ 32) (h : g.lo + g.w ≤ f.lo ∨ f.lo + f.w ≤ g.lo) (v : Nat) :
    (s.put f v).get g = s.get g := by
  by_cases e : g.addr = f.addr
  · rw [State.get, e, reg_put_self s f v hf, bitsOf_withBits_of_disjoint h, State.get, e]
  · exact get_put_of_ne s e v

/-- Two fields that share no bit. -/
def Apart (f g : Fld) : Prop := g.addr ≠ f.addr ∨ g.lo + g.w ≤ f.lo ∨ f.lo + f.w ≤ g.lo

theorem get_put_of_apart {f g : Fld} (hf : f.lo + f.w ≤ 32) (h : Apart f g) (v : Nat) : (s.put f v).get g = s.get g := by
  rcases h with h | h
  · exact get_put_of_ne s h v
  · exact get_put_of_disjoint s hf h v

theorem on_put_of_apart {f g : Fld} (hf : f.lo + f.w ≤ 32) (h : Apart f g) (v : Nat) : (s.put f v).on g = s.on g := by
  simp [State.on, get_put_of_apart s hf h]

theorem on_set1_self (f : Fld) (h : f.lo + f.w ≤ 32) (hw : f.w = 1) : (s.set1 f).on f = true := by
  simp [State.on, State.get, set1_reg, reg_put_self s f 1 h, bitsOf_withBits_self, hw]

theorem satU_lt (w x : Nat) : satU w x < 2 ^ w := by
  have : 0 < 2 ^ w := by positivity
  unfold satU; split <;> omega

/-- A counter rises by `n` and saturates (R10). -/
theorem get_addCnt_self (f : Fld) (n : Nat) (h : f.lo + f.w ≤ 32) : (s.addCnt f n).get f = satU f.w (s.get f + n) := by
  rw [State.addCnt, get_put_self s f _ h, Nat.mod_eq_of_lt (satU_lt _ _)]

theorem get_bump_self (f : Fld) (h : f.lo + f.w ≤ 32) : (s.bump f).get f = satU f.w (s.get f + 1) := get_addCnt_self s f 1 h

/-! ### The canonical form of the register file -/

/-- The register file lists only registers that differ from their reset value, in rising order. -/
def regsCanon (s : State) : Bool := canon s.dflt s.regs

theorem regsCanon_setReg (a v : Nat) (h : regsCanon s = true) : regsCanon (s.setReg a v) = true := canon_wr a _ h

theorem regsCanon_put (f : Fld) (v : Nat) (h : regsCanon s = true) : regsCanon (s.put f v) = true := regsCanon_setReg s _ _ h

theorem regsCanon_set1 (f : Fld) (h : regsCanon s = true) : regsCanon (s.set1 f) = true := by
  have e : (s.set1 f).dflt = (s.put f 1).dflt := by funext a; unfold State.dflt; rw [set1_p2, put_p2]
  rw [regsCanon, e]; exact regsCanon_put s f 1 h

theorem regsCanon_addCnt (f : Fld) (n : Nat) (h : regsCanon s = true) : regsCanon (s.addCnt f n) = true := regsCanon_put s _ _ h

end Sys2Proof.Laws
end

