-- ==== Sys2Proof/Laws/Run.lean ====
section
/-! SUPPORT. What the frame of every meaning does: `run`, `finish`, `settle` and `notice`. -/

namespace Sys2Proof.Laws

open Sys2Proof.Machine

variable (s0 s : State)

theorem run_released {t : Nat} {f : State → State} (h : s.released = true) :
    run t f s = .next ((s.at_ t).finish (f (s.at_ t))) := by simp [run, h]

theorem run_in_reset {t : Nat} {f : State → State} (h : s.released = false) : run t f s = .next s := by simp [run, h]

/-- Every meaning in this frame answers a next state. -/
theorem run_next (t : Nat) (f : State → State) : ∃ u, run t f s = .next u := by unfold run; split <;> exact ⟨_, rfl⟩

theorem settle_of_quiet (h : s.safety.act = 0) : s.settle = s := by simp [State.settle, h]

@[simp] theorem notice_pending : s.notice.pending = s.pending := rfl
@[simp] theorem notice_mono : s.notice.mono = s.mono := rfl
@[simp] theorem notice_regs : s.notice.regs = s.regs := rfl
@[simp] theorem notice_shadow : s.notice.shadow = s.shadow := rfl
@[simp] theorem notice_time : s.notice.time = s.time := rfl
@[simp] theorem notice_gptp : s.notice.gptp = s.gptp := rfl
@[simp] theorem notice_trackers : s.notice.trackers = s.trackers := rfl
@[simp] theorem notice_rev : s.notice.rev = s.rev := rfl
@[simp] theorem notice_heads : s.notice.heads = s.heads := rfl
@[simp] theorem notice_pose : s.notice.pose = s.pose := rfl
@[simp] theorem notice_ing : s.notice.ing = s.ing := rfl
@[simp] theorem notice_vhu : s.notice.vhu = s.vhu := rfl
@[simp] theorem notice_grids : s.notice.grids = s.grids := rfl
@[simp] theorem notice_ms : s.notice.ms = s.ms := rfl
@[simp] theorem notice_wedges : s.notice.wedges = s.wedges := rfl
@[simp] theorem notice_pipe : s.notice.pipe = s.pipe := rfl
@[simp] theorem notice_tiles : s.notice.tiles = s.tiles := rfl
@[simp] theorem notice_spd : s.notice.spd = s.spd := rfl
@[simp] theorem notice_tags : s.notice.tags = s.tags := rfl
@[simp] theorem notice_dram : s.notice.dram = s.dram := rfl
@[simp] theorem notice_map : s.notice.map = s.map := rfl
@[simp] theorem notice_out : s.notice.out = s.out := rfl
@[simp] theorem notice_age : s.notice.age = s.age := rfl
@[simp] theorem notice_plk : s.notice.plk = s.plk := rfl
@[simp] theorem notice_sec : s.notice.sec = s.sec := rfl
@[simp] theorem notice_image : s.notice.image = s.image := rfl
@[simp] theorem notice_loadBuf : s.notice.loadBuf = s.loadBuf := rfl
@[simp] theorem notice_erapQ : s.notice.erapQ = s.erapQ := rfl
@[simp] theorem notice_hosts : s.notice.hosts = s.hosts := rfl
@[simp] theorem notice_safety : s.notice.safety = s.safety := rfl
@[simp] theorem notice_pins : s.notice.pins = s.pins := rfl
@[simp] theorem notice_cyc : s.notice.cyc = s.cyc := rfl
@[simp] theorem notice_p2 : s.notice.p2 = s.p2 := rfl
@[simp] theorem notice_free : s.notice.free = s.free := rfl
@[simp] theorem notice_outbox : s.notice.outbox = s.outbox := rfl
@[simp] theorem notice_reg (a : Nat) : s.notice.reg a = s.reg a := rfl
@[simp] theorem notice_get (f : Fld) : s.notice.get f = s.get f := rfl

@[simp] theorem finish_pending : (s0.finish s).pending = s0.pending := rfl
@[simp] theorem finish_mono : (s0.finish s).mono = s0.mono := rfl
@[simp] theorem finish_released : (s0.finish s).released = s0.released := rfl
@[simp] theorem finish_act : (s0.finish s).safety.act = 0 := rfl

variable {s0 s} (h : s.safety.act = 0)

include h

theorem finish_regs : (s0.finish s).regs = s.regs := by simp only [State.finish, settle_of_quiet s h, notice_regs]
theorem finish_shadow : (s0.finish s).shadow = s.shadow := by simp only [State.finish, settle_of_quiet s h, notice_shadow]
theorem finish_time : (s0.finish s).time = s.time := by simp only [State.finish, settle_of_quiet s h, notice_time]
theorem finish_gptp : (s0.finish s).gptp = s.gptp := by simp only [State.finish, settle_of_quiet s h, notice_gptp]
theorem finish_trackers : (s0.finish s).trackers = s.trackers := by simp only [State.finish, settle_of_quiet s h, notice_trackers]
theorem finish_rev : (s0.finish s).rev = s.rev := by simp only [State.finish, settle_of_quiet s h, notice_rev]
theorem finish_heads : (s0.finish s).heads = s.heads := by simp only [State.finish, settle_of_quiet s h, notice_heads]
theorem finish_pose : (s0.finish s).pose = s.pose := by simp only [State.finish, settle_of_quiet s h, notice_pose]
theorem finish_ing : (s0.finish s).ing = s.ing := by simp only [State.finish, settle_of_quiet s h, notice_ing]
theorem finish_vhu : (s0.finish s).vhu = s.vhu := by simp only [State.finish, settle_of_quiet s h, notice_vhu]
theorem finish_grids : (s0.finish s).grids = s.grids := by simp only [State.finish, settle_of_quiet s h, notice_grids]
theorem finish_ms : (s0.finish s).ms = s.ms := by simp only [State.finish, settle_of_quiet s h, notice_ms]
theorem finish_wedges : (s0.finish s).wedges = s.wedges := by simp only [State.finish, settle_of_quiet s h, notice_wedges]
theorem finish_pipe : (s0.finish s).pipe = s.pipe := by simp only [State.finish, settle_of_quiet s h, notice_pipe]
theorem finish_tiles : (s0.finish s).tiles = s.tiles := by simp only [State.finish, settle_of_quiet s h, notice_tiles]
theorem finish_spd : (s0.finish s).spd = s.spd := by simp only [State.finish, settle_of_quiet s h, notice_spd]
theorem finish_tags : (s0.finish s).tags = s.tags := by simp only [State.finish, settle_of_quiet s h, notice_tags]
theorem finish_dram : (s0.finish s).dram = s.dram := by simp only [State.finish, settle_of_quiet s h, notice_dram]
theorem finish_map : (s0.finish s).map = s.map := by simp only [State.finish, settle_of_quiet s h, notice_map]
theorem finish_out : (s0.finish s).out = s.out := by simp only [State.finish, settle_of_quiet s h, notice_out]
theorem finish_age : (s0.finish s).age = s.age := by simp only [State.finish, settle_of_quiet s h, notice_age]
theorem finish_plk : (s0.finish s).plk = s.plk := by simp only [State.finish, settle_of_quiet s h, notice_plk]
theorem finish_sec : (s0.finish s).sec = s.sec := by simp only [State.finish, settle_of_quiet s h, notice_sec]
theorem finish_image : (s0.finish s).image = s.image := by simp only [State.finish, settle_of_quiet s h, notice_image]
theorem finish_loadBuf : (s0.finish s).loadBuf = s.loadBuf := by simp only [State.finish, settle_of_quiet s h, notice_loadBuf]
theorem finish_erapQ : (s0.finish s).erapQ = s.erapQ := by simp only [State.finish, settle_of_quiet s h, notice_erapQ]
theorem finish_hosts : (s0.finish s).hosts = s.hosts := by simp only [State.finish, settle_of_quiet s h, notice_hosts]
theorem finish_pins : (s0.finish s).pins = s.pins := by simp only [State.finish, settle_of_quiet s h, notice_pins]
theorem finish_cyc : (s0.finish s).cyc = s.cyc := by simp only [State.finish, settle_of_quiet s h, notice_cyc]
theorem finish_p2 : (s0.finish s).p2 = s.p2 := by simp only [State.finish, settle_of_quiet s h, notice_p2]
theorem finish_free : (s0.finish s).free = s.free := by simp only [State.finish, settle_of_quiet s h, notice_free]
theorem finish_outbox : (s0.finish s).outbox = s.outbox := by simp only [State.finish, settle_of_quiet s h, notice_outbox]
theorem finish_flog : (s0.finish s).safety.flog = s.safety.flog := by simp only [State.finish, settle_of_quiet s h, notice_safety]
theorem finish_owner : (s0.finish s).own.owner = s.own.owner := by simp only [State.finish, settle_of_quiet s h]; rfl
theorem finish_token : (s0.finish s).own.token = s.own.token := by simp only [State.finish, settle_of_quiet s h]; rfl
theorem finish_reg (a : Nat) : (s0.finish s).reg a = s.reg a := reg_congr _ _ (finish_regs h) (finish_p2 h) a
theorem finish_get (f : Fld) : (s0.finish s).get f = s.get f := by rw [State.get, State.get, finish_reg h]
theorem finish_on (f : Fld) : (s0.finish s).on f = s.on f := by rw [State.on, State.on, finish_get h]
theorem finish_dev : (s0.finish s).dev = s.dev := finish_get h _

end Sys2Proof.Laws
end

