-- ==== Sys2Proof/Laws/Claims.lean ====
section
/-! SUPPORT. The terms of the claims: a command completes through `run`, and what `finish` leaves of a frame. -/

namespace Sys2Proof.Laws

open Sys2Proof.Machine

variable {s0 s u : State}

/-- A command of the frame `run` completes with what its meaning gives. -/
theorem completes_run {c : Instr} {t : Nat} {f : State → State} {P : State → Prop} (hr : s.Running t) (he : exec c s = run t f s)
    (hp : P ((s.at_ t).finish (f (s.at_ t)))) : Completes c s P := ⟨_, he.trans (run_released s hr.1), hp⟩

/-- The same with the meaning's result named. -/
theorem completes_next {c : Instr} {v : State} {P : State → Prop} (he : exec c s = .next v) (hp : P v) : Completes c s P := ⟨v, he, hp⟩

theorem memKept_refl (s : State) : MemKept s s :=
  ⟨fun _ => rfl, fun _ => rfl, fun _ => rfl, fun _ => rfl, fun _ => rfl, fun _ => rfl, fun _ => rfl, rfl⟩

/-- Equal memories read alike. -/
theorem memKept_of (h1 : u.spd = s.spd) (h2 : u.dram = s.dram) (h3 : u.map.mem = s.map.mem) (h4 : u.loadBuf = s.loadBuf)
    (h5 : u.sec.recBuf = s.sec.recBuf) (h6 : u.sec.flash = s.sec.flash) (h7 : u.sec.otp = s.sec.otp) (h8 : u.tags = s.tags) :
    MemKept s u := by simp [MemKept, h1, h2, h3, h4, h5, h6, h7, h8]

theorem memKept_finish (q : u.safety.act = 0) (h : MemKept s u) : MemKept s (s0.finish u) := by
  simpa [MemKept, finish_spd q, finish_dram q, finish_map q, finish_loadBuf q, finish_sec q, finish_tags q] using h

theorem regsBut_finish {l : List Nat} (q : u.safety.act = 0) (h : RegsBut l s u) : RegsBut l s (s0.finish u) := by
  intro a ha; rw [finish_reg q]; exact h a ha

theorem regsBut_refl (l : List Nat) (s : State) : RegsBut l s s := fun _ _ => rfl

/-- With no wedge left to close, the instant of a command changes no register. -/
theorem regsBut_at (l : List Nat) (s : State) (t : Nat) (h : s.at_ t = s.clock t) : RegsBut l s (s.at_ t) := by
  rw [h]; exact fun _ _ => rfl

theorem regsBut_setReg {l : List Nat} {a : Nat} (v : Nat) (ha : a ∈ l) (h : RegsBut l s u) : RegsBut l s (u.setReg a v) := by
  intro b hb
  have hne : b ≠ a := fun e => hb (by rw [e]; exact ha)
  rw [reg_setReg_of_ne u hne, h b hb]

theorem regsBut_put {l : List Nat} {f : Fld} (v : Nat) (ha : f.addr ∈ l) (h : RegsBut l s u) : RegsBut l s (u.put f v) :=
  regsBut_setReg _ ha h

theorem regsBut_set1 {l : List Nat} {f : Fld} (ha : f.addr ∈ l) (h : RegsBut l s u) : RegsBut l s (u.set1 f) := by
  intro a hb; rw [set1_reg]; exact regsBut_put 1 ha h a hb

theorem regsBut_bump {l : List Nat} {f : Fld} (ha : f.addr ∈ l) (h : RegsBut l s u) : RegsBut l s (u.bump f) := regsBut_put _ ha h

/-! ### Parts read from lists that an update leaves -/

theorem tile_congr (h : u.tiles = s.tiles) (g : Nat) : u.tile g = s.tile g := by rw [State.tile, State.tile, h]
theorem hd_congr (h : u.heads = s.heads) (i : Nat) : u.hd i = s.hd i := by rw [State.hd, State.hd, h]
theorem tk_congr (h : u.trackers = s.trackers) (i : Nat) : u.tk i = s.tk i := by rw [State.tk, State.tk, h]
theorem wd_congr (h : u.wedges = s.wedges) (i : Nat) : u.wd i = s.wd i := by rw [State.wd, State.wd, h]
theorem vu_congr (h : u.vhu = s.vhu) (i : Nat) : u.vu i = s.vu i := by rw [State.vu, State.vu, h]
theorem ig_congr (h : u.ing = s.ing) (i : Nat) : u.ig i = s.ig i := by rw [State.ig, State.ig, h]
theorem host_congr (h : u.hosts = s.hosts) (i : Nat) : u.host i = s.host i := by rw [State.host, State.host, h]
theorem tge_congr (h : u.map = s.map) (i : Nat) : u.tge i = s.tge i := by rw [State.tge, State.tge, h]

/-- A tile changed by what changes nothing of it. -/
theorem setTile_same (s : State) (g : Nat) (f : TileSt → TileSt) (h : f (s.tile g) = s.tile g) : s.setTile g f = s := by
  have : s.tiles.modify g f = s.tiles := by
    apply List.ext_getElem (by simp)
    intro i h1 h2
    by_cases hgi : g = i
    · subst hgi
      have h3 : g < s.tiles.length := h2
      simp [State.tile, List.getD, h3] at h
      simp [h]
    · simp [hgi]
  simp [State.setTile, this]

/-- A fetch whose read meets nothing gives the descriptor that is next. -/
theorem fetch_clean (s : State) (g : Nat) (h1 : s.meet g ((s.get (TILE.PROG_START g) + (s.tile g).next) * 64) 64 false = (s, false))
    (h2 : (s.tile g).injSeq = false) (h3 : dSeq (s.descAt g (s.tile g).next) = (s.tile g).next)
    (hk : dKind (s.descAt g (s.tile g).next) ≠ 0 ∧ ¬ 8 < dKind (s.descAt g (s.tile g).next)) :
    s.fetch g = (s, some { n := (s.tile g).issues, idx := (s.tile g).next, desc := s.descAt g (s.tile g).next, loops := (s.tile g).loops,
                           q := queueOf (s.descAt g (s.tile g).next) }) := by
  simp [State.fetch, h1, h2, h3, hk.1, hk.2]

/-- The sequencer executes the descriptor it fetches where nothing keeps it. -/
theorem seqStep_of_fetch (s u : State) (g : Nat) (e : QEnt) (mine : Bytes → Bool) (body : State → QEnt → State) (h1 : s.tileRuns g = true)
    (h2 : (s.tile g).wait = none) (h3 : s.fetch g = (u, some e)) (h4 : mine e.desc = true) (h5 : u.fenceOk g e = true) :
    s.seqStep g mine body = (body u e).tileShow g := by
  simp [State.seqStep, h1, h2, h3, h4, h5]

end Sys2Proof.Laws
end

