-- ==== Sys2Proof/Laws/Faults.lean ====
section
/-! SUPPORT. What a fault report does: it writes the log, its page's PG_FAULT and SI's status, leaves its action due, and touches
nothing else. -/

namespace Sys2Proof.Laws

open Sys2Proof.Machine

/-- The registers that a report from `page` may write: SI.STAT, SI.EVT and the page's PG_FAULT. -/
def reportRegs (page : Nat) : List Nat := [SI.STAT.addr, SI.EVT.addr, (PG.FAULT page).addr]

variable (s : State) (cls page event parts admNo : Nat) (inj : Bool)

theorem regsBut_putMax {l : List Nat} {f : Fld} {u : State} (v : Nat) (ha : f.addr ∈ l) (h : RegsBut l s u) : RegsBut l s (u.putMax f v) := by
  unfold State.putMax; split
  · exact regsBut_put _ ha h
  · exact h

theorem regsBut_set1If {l : List Nat} {f : Fld} {u : State} (b : Bool) (ha : f.addr ∈ l) (h : RegsBut l s u) : RegsBut l s (u.set1If b f) := by
  unfold State.set1If; split
  · exact regsBut_set1 ha h
  · exact h

/-- A report writes no register but those of `reportRegs`. -/
theorem report_regsBut : RegsBut (reportRegs page) s (s.report cls page event parts admNo inj) := by
  unfold State.report
  split
  · exact regsBut_refl _ _
  · have hd : ∀ (u : State) (c k : Nat), RegsBut (reportRegs page) s u → RegsBut (reportRegs page) s (u.due c k) := by
      intro u c k h; unfold State.due; split
      · exact h
      · exact h
    apply hd
    unfold State.pgFault
    refine regsBut_put _ (by simp [reportRegs, PG.FAULT_COUNT, PG.FAULT]) (regsBut_set1 (by simp [reportRegs, PG.FAULT_VALID, PG.FAULT])
      (regsBut_putMax s _ (by simp [reportRegs, PG.FAULT_MAXSEV, PG.FAULT]) (regsBut_set1If s _ (by simp [reportRegs, SI.EVT_FAULT_LOST, SI.EVT])
      (regsBut_putMax s _ (by simp [reportRegs, SI.STAT_MAXSEV, SI.STAT]) (regsBut_put _ (by simp [reportRegs, SI.STAT_FLOG_OCC, SI.STAT]) ?_)))))
    exact fun _ _ => rfl

/-- The faults of an instant in which none has been detected yet. -/
theorem cycleFaults_fresh (h : s.safety.now.at_ ≠ some s.mono) :
    s.cycleFaults = { at_ := some s.mono, log := s.safety.flog, handling := s.safety.handling } := by
  simp [State.cycleFaults, h]

/-- An entry with room for it stands last. -/
theorem pushFault_room (l : List FaultEntry) (e : FaultEntry) (h : l.length < 16) : pushFault l e = (l ++ [e], false) := by
  simp [pushFault, h]

/-- One fault of an instant: the log with it at the end, where there is room. -/
theorem flog_one (l : List FaultEntry) (e : FaultEntry) (a : Option Nat) (b : Bool) (h : l.length < 16) :
    CycleFaults.flog { at_ := a, log := l, handling := b, entries := [e] } = (l ++ [e], false) := by
  simp [CycleFaults.flog, pushFault_room l e h]

/-- Two faults of an instant: both at the end of the log, in the order of the cycle. -/
theorem flog_two (l : List FaultEntry) (e₁ e₂ : FaultEntry) (a : Option Nat) (b : Bool) (h : l.length < 15) :
    CycleFaults.flog { at_ := a, log := l, handling := b, entries := [e₁, e₂] } = (l ++ [e₁, e₂], false) := by
  have h₂ : (l ++ [e₁]).length < 16 := by simp; omega
  simp [CycleFaults.flog, pushFault_room l e₁ (by omega), pushFault_room _ e₂ h₂]

/-- `u` differs from `s` in registers, what this instant has done to them, and the safety state alone. -/
def OnlyRegsSafety (s u : State) : Prop := u = { s with regs := u.regs, safety := u.safety, cyc := u.cyc }

theorem onlyRS_refl (s : State) : OnlyRegsSafety s s := rfl

theorem onlyRS_put {u : State} (f : Fld) (v : Nat) (h : OnlyRegsSafety s u) : OnlyRegsSafety s (u.put f v) := by
  unfold OnlyRegsSafety at *; rw [h]; rfl

theorem onlyRS_set1 {u : State} (f : Fld) (h : OnlyRegsSafety s u) : OnlyRegsSafety s (u.set1 f) := by
  have h' := onlyRS_put s f 1 h
  unfold OnlyRegsSafety State.set1 at *; rw [h']

theorem onlyRS_trans {s u v : State} (h : OnlyRegsSafety s u) (h' : OnlyRegsSafety u v) : OnlyRegsSafety s v := by
  unfold OnlyRegsSafety at *; rw [h', h]

theorem onlyRS_pending {s u : State} (h : OnlyRegsSafety s u) : u.pending = s.pending := by rw [h]
theorem onlyRS_mono {s u : State} (h : OnlyRegsSafety s u) : u.mono = s.mono := by rw [h]
theorem onlyRS_shadow {s u : State} (h : OnlyRegsSafety s u) : u.shadow = s.shadow := by rw [h]
theorem onlyRS_time {s u : State} (h : OnlyRegsSafety s u) : u.time = s.time := by rw [h]
theorem onlyRS_gptp {s u : State} (h : OnlyRegsSafety s u) : u.gptp = s.gptp := by rw [h]
theorem onlyRS_trackers {s u : State} (h : OnlyRegsSafety s u) : u.trackers = s.trackers := by rw [h]
theorem onlyRS_rev {s u : State} (h : OnlyRegsSafety s u) : u.rev = s.rev := by rw [h]
theorem onlyRS_heads {s u : State} (h : OnlyRegsSafety s u) : u.heads = s.heads := by rw [h]
theorem onlyRS_pose {s u : State} (h : OnlyRegsSafety s u) : u.pose = s.pose := by rw [h]
theorem onlyRS_ing {s u : State} (h : OnlyRegsSafety s u) : u.ing = s.ing := by rw [h]
theorem onlyRS_vhu {s u : State} (h : OnlyRegsSafety s u) : u.vhu = s.vhu := by rw [h]
theorem onlyRS_grids {s u : State} (h : OnlyRegsSafety s u) : u.grids = s.grids := by rw [h]
theorem onlyRS_ms {s u : State} (h : OnlyRegsSafety s u) : u.ms = s.ms := by rw [h]
theorem onlyRS_wedges {s u : State} (h : OnlyRegsSafety s u) : u.wedges = s.wedges := by rw [h]
theorem onlyRS_pipe {s u : State} (h : OnlyRegsSafety s u) : u.pipe = s.pipe := by rw [h]
theorem onlyRS_tiles {s u : State} (h : OnlyRegsSafety s u) : u.tiles = s.tiles := by rw [h]
theorem onlyRS_spd {s u : State} (h : OnlyRegsSafety s u) : u.spd = s.spd := by rw [h]
theorem onlyRS_tags {s u : State} (h : OnlyRegsSafety s u) : u.tags = s.tags := by rw [h]
theorem onlyRS_dram {s u : State} (h : OnlyRegsSafety s u) : u.dram = s.dram := by rw [h]
theorem onlyRS_map {s u : State} (h : OnlyRegsSafety s u) : u.map = s.map := by rw [h]
theorem onlyRS_out {s u : State} (h : OnlyRegsSafety s u) : u.out = s.out := by rw [h]
theorem onlyRS_age {s u : State} (h : OnlyRegsSafety s u) : u.age = s.age := by rw [h]
theorem onlyRS_plk {s u : State} (h : OnlyRegsSafety s u) : u.plk = s.plk := by rw [h]
theorem onlyRS_sec {s u : State} (h : OnlyRegsSafety s u) : u.sec = s.sec := by rw [h]
theorem onlyRS_image {s u : State} (h : OnlyRegsSafety s u) : u.image = s.image := by rw [h]
theorem onlyRS_loadBuf {s u : State} (h : OnlyRegsSafety s u) : u.loadBuf = s.loadBuf := by rw [h]
theorem onlyRS_erapQ {s u : State} (h : OnlyRegsSafety s u) : u.erapQ = s.erapQ := by rw [h]
theorem onlyRS_own {s u : State} (h : OnlyRegsSafety s u) : u.own = s.own := by rw [h]
theorem onlyRS_hosts {s u : State} (h : OnlyRegsSafety s u) : u.hosts = s.hosts := by rw [h]
theorem onlyRS_pins {s u : State} (h : OnlyRegsSafety s u) : u.pins = s.pins := by rw [h]
theorem onlyRS_p2 {s u : State} (h : OnlyRegsSafety s u) : u.p2 = s.p2 := by rw [h]
theorem onlyRS_free {s u : State} (h : OnlyRegsSafety s u) : u.free = s.free := by rw [h]
theorem onlyRS_outbox {s u : State} (h : OnlyRegsSafety s u) : u.outbox = s.outbox := by rw [h]

theorem onlyRS_if {u v : State} (c : Prop) [Decidable c] (h : OnlyRegsSafety s u) (h' : OnlyRegsSafety s v) :
    OnlyRegsSafety s (if c then u else v) := by split <;> assumption

/-- A report touches only registers and the safety state. -/
theorem report_only : OnlyRegsSafety s (s.report cls page event parts admNo inj) := by
  unfold State.report
  refine onlyRS_if s _ rfl ?_
  have hdue : ∀ (u : State) (k : Nat), OnlyRegsSafety s u → OnlyRegsSafety s (u.due cls k) := by
    intro u k h; unfold State.due
    exact onlyRS_if s _ h (by unfold OnlyRegsSafety at *; rw [h])
  have hif : ∀ (u : State) (b : Bool) (f : Fld), OnlyRegsSafety s u → OnlyRegsSafety s (u.set1If b f) :=
    fun u b f h => onlyRS_if s _ (onlyRS_set1 s _ h) h
  have hmax : ∀ (u : State) (f : Fld) (v : Nat), OnlyRegsSafety s u → OnlyRegsSafety s (u.putMax f v) :=
    fun u f v h => onlyRS_if s _ (onlyRS_put s _ _ h) h
  exact hdue _ _ (onlyRS_put s _ _ (onlyRS_set1 s _ (hmax _ _ _ (hif _ _ _ (hmax _ _ _ (onlyRS_put s _ _ rfl))))))

theorem report_act : (s.report cls page event parts admNo inj).safety.act =
    if s.on SI.FSQ_ACTED then s.safety.act else if cls < 2 then s.safety.act else max s.safety.act cls := by
  unfold State.report
  split
  · rfl
  · have hsafe : ∀ u : State, (u.pgFault page cls).safety = u.safety := by
      intro u; unfold State.pgFault; simp
    have h1 : ∀ (u : State) (b : Bool) (f : Fld), (u.set1If b f).safety = u.safety := by intro u b f; simp
    have h2 : ∀ (u : State) (f : Fld) (v : Nat), (u.putMax f v).safety = u.safety := by intro u f v; unfold State.putMax; split <;> rfl
    unfold State.due
    split
    · rw [hsafe, h1, h2]; rfl
    · show max _ _ = _
      rw [hsafe, h1, h2]; rfl

theorem raise_regsBut (f : Fld) : RegsBut (f.addr :: reportRegs (f.addr / 4096)) s (s.raise f cls parts inj) := by
  intro a ha
  unfold State.raise
  rw [report_regsBut _ _ _ _ _ _ _ a (by simp at ha; simp [ha])]
  rw [set1_reg]
  exact reg_put_of_ne _ (by simp at ha; simp [ha]) _

theorem raise_act (f : Fld) (h : f.addr ≠ SI.FSQ_ACTED.addr) : (s.raise f cls parts inj).safety.act =
    if s.on SI.FSQ_ACTED then s.safety.act else if cls < 2 then s.safety.act else max s.safety.act cls := by
  unfold State.raise
  have e : (s.set1 f).on SI.FSQ_ACTED = s.on SI.FSQ_ACTED := by
    rw [State.on, State.on, State.get, set1_reg, reg_put_of_ne _ (fun e => h e.symm), State.get]
  rw [report_act, e, set1_safety]

/-- A report of class C0 or C1 leaves no action due. -/
theorem raise_act_low (f : Fld) (hc : cls < 2) : (s.raise f cls parts inj).safety.act = s.safety.act := by
  unfold State.raise
  rw [report_act]; simp [hc]

theorem raise_only (f : Fld) : OnlyRegsSafety s (s.raise f cls parts inj) :=
  onlyRS_trans (onlyRS_set1 s f (onlyRS_refl s)) (report_only (s.set1 f) _ _ _ _ _ _)

@[simp] theorem raise_pending (f : Fld) : (s.raise f cls parts inj).pending = s.pending := onlyRS_pending (raise_only s cls parts inj f)
@[simp] theorem raise_mono (f : Fld) : (s.raise f cls parts inj).mono = s.mono := onlyRS_mono (raise_only s cls parts inj f)
@[simp] theorem raise_shadow (f : Fld) : (s.raise f cls parts inj).shadow = s.shadow := onlyRS_shadow (raise_only s cls parts inj f)
@[simp] theorem raise_time (f : Fld) : (s.raise f cls parts inj).time = s.time := onlyRS_time (raise_only s cls parts inj f)
@[simp] theorem raise_gptp (f : Fld) : (s.raise f cls parts inj).gptp = s.gptp := onlyRS_gptp (raise_only s cls parts inj f)
@[simp] theorem raise_trackers (f : Fld) : (s.raise f cls parts inj).trackers = s.trackers := onlyRS_trackers (raise_only s cls parts inj f)
@[simp] theorem raise_rev (f : Fld) : (s.raise f cls parts inj).rev = s.rev := onlyRS_rev (raise_only s cls parts inj f)
@[simp] theorem raise_heads (f : Fld) : (s.raise f cls parts inj).heads = s.heads := onlyRS_heads (raise_only s cls parts inj f)
@[simp] theorem raise_pose (f : Fld) : (s.raise f cls parts inj).pose = s.pose := onlyRS_pose (raise_only s cls parts inj f)
@[simp] theorem raise_ing (f : Fld) : (s.raise f cls parts inj).ing = s.ing := onlyRS_ing (raise_only s cls parts inj f)
@[simp] theorem raise_vhu (f : Fld) : (s.raise f cls parts inj).vhu = s.vhu := onlyRS_vhu (raise_only s cls parts inj f)
@[simp] theorem raise_grids (f : Fld) : (s.raise f cls parts inj).grids = s.grids := onlyRS_grids (raise_only s cls parts inj f)
@[simp] theorem raise_ms (f : Fld) : (s.raise f cls parts inj).ms = s.ms := onlyRS_ms (raise_only s cls parts inj f)
@[simp] theorem raise_wedges (f : Fld) : (s.raise f cls parts inj).wedges = s.wedges := onlyRS_wedges (raise_only s cls parts inj f)
@[simp] theorem raise_pipe (f : Fld) : (s.raise f cls parts inj).pipe = s.pipe := onlyRS_pipe (raise_only s cls parts inj f)
@[simp] theorem raise_tiles (f : Fld) : (s.raise f cls parts inj).tiles = s.tiles := onlyRS_tiles (raise_only s cls parts inj f)
@[simp] theorem raise_spd (f : Fld) : (s.raise f cls parts inj).spd = s.spd := onlyRS_spd (raise_only s cls parts inj f)
@[simp] theorem raise_tags (f : Fld) : (s.raise f cls parts inj).tags = s.tags := onlyRS_tags (raise_only s cls parts inj f)
@[simp] theorem raise_dram (f : Fld) : (s.raise f cls parts inj).dram = s.dram := onlyRS_dram (raise_only s cls parts inj f)
@[simp] theorem raise_map (f : Fld) : (s.raise f cls parts inj).map = s.map := onlyRS_map (raise_only s cls parts inj f)
@[simp] theorem raise_out (f : Fld) : (s.raise f cls parts inj).out = s.out := onlyRS_out (raise_only s cls parts inj f)
@[simp] theorem raise_age (f : Fld) : (s.raise f cls parts inj).age = s.age := onlyRS_age (raise_only s cls parts inj f)
@[simp] theorem raise_plk (f : Fld) : (s.raise f cls parts inj).plk = s.plk := onlyRS_plk (raise_only s cls parts inj f)
@[simp] theorem raise_sec (f : Fld) : (s.raise f cls parts inj).sec = s.sec := onlyRS_sec (raise_only s cls parts inj f)
@[simp] theorem raise_image (f : Fld) : (s.raise f cls parts inj).image = s.image := onlyRS_image (raise_only s cls parts inj f)
@[simp] theorem raise_loadBuf (f : Fld) : (s.raise f cls parts inj).loadBuf = s.loadBuf := onlyRS_loadBuf (raise_only s cls parts inj f)
@[simp] theorem raise_erapQ (f : Fld) : (s.raise f cls parts inj).erapQ = s.erapQ := onlyRS_erapQ (raise_only s cls parts inj f)
@[simp] theorem raise_own (f : Fld) : (s.raise f cls parts inj).own = s.own := onlyRS_own (raise_only s cls parts inj f)
@[simp] theorem raise_hosts (f : Fld) : (s.raise f cls parts inj).hosts = s.hosts := onlyRS_hosts (raise_only s cls parts inj f)
@[simp] theorem raise_pins (f : Fld) : (s.raise f cls parts inj).pins = s.pins := onlyRS_pins (raise_only s cls parts inj f)
@[simp] theorem raise_p2 (f : Fld) : (s.raise f cls parts inj).p2 = s.p2 := onlyRS_p2 (raise_only s cls parts inj f)
@[simp] theorem raise_free (f : Fld) : (s.raise f cls parts inj).free = s.free := onlyRS_free (raise_only s cls parts inj f)
@[simp] theorem raise_outbox (f : Fld) : (s.raise f cls parts inj).outbox = s.outbox := onlyRS_outbox (raise_only s cls parts inj f)

/-- A field that no report writes keeps its value. -/
theorem raise_get (f g : Fld) (h1 : g.addr ≠ f.addr) (h2 : g.addr ∉ reportRegs (f.addr / 4096)) :
    (s.raise f cls parts inj).get g = s.get g := by
  rw [State.get, raise_regsBut _ _ _ _ _ g.addr (by simp [h1, h2]), State.get]

end Sys2Proof.Laws
end

