-- ==== Sys2Proof/WellFormed.lean ====
section
/-! DEFINITION. The commands that the outside can bring: every number within the width that its field has on the wire or in its
register. The meanings are total and stand for any command; an operand beyond its width comes from no wire. -/

namespace Sys2Proof

/-- `x` fits `w` bits. -/
def fits (w x : Nat) : Bool := decide (x < 2 ^ w)

/-- A UDP datagram or the like: addresses and ports of their width, a payload that one IPv4 packet holds. -/
def Datagram.wf (d : Datagram) : Bool :=
  fits 32 d.srcIp && fits 16 d.srcUdp && fits 48 d.srcMac && fits 32 d.dstIp && fits 16 d.dstUdp && decide (d.payload.length ≤ 65507)

/-- A SecTAG: an SCI of 64 bits, an association number of two, a packet number of 32 (R308, R310). -/
def SecInfo.wf (x : SecInfo) : Bool := fits 64 x.sci && fits 2 x.an && fits 32 x.pn

/-- An ARP message. -/
def ArpInfo.wf (a : ArpInfo) : Bool := fits 32 a.senderIp && fits 48 a.senderMac && fits 32 a.targetIp

/-- The header of a partner-link frame (R394). -/
def LinkHdr.wf (x : LinkHdr) : Bool := fits 32 x.lseq && fits 32 x.ack

/-- HELLO (R397): a byte of slots, sixteen serials. -/
def HelloInfo.wf (x : HelloInfo) : Bool :=
  fits 16 x.part && fits 256 x.digest && fits 8 x.local_ && fits 32 x.epoch && x.serials.length = 16

/-- TIME (R402): eight status bytes. -/
def TimeInfo.wf (x : TimeInfo) : Bool :=
  fits 3 x.state && fits 3 x.vehState && fits 32 x.epoch && x.slots.length = 8 && x.slots.all (fits 8)

/-- A cross-check record (R405). -/
def XcRec.wf (x : XcRec) : Bool := fits 6 x.wedge && fits 16 x.nObj && fits 32 x.admNo && fits 64 x.digest

/-- A map row-block record (R277). -/
def MapRec.wf (r : MapRec) : Bool := fits 32 r.epoch && fits 8 r.level && fits 8 r.table && fits 16 r.block && fits 32 r.serial && fits 64 r.crc

/-- A key of a map row (R263): sixteen levels, two slots, two tables, 2^22 rows. -/
def RowKey.wf (k : RowKey) : Bool := fits 4 k.level && fits 1 k.slot && fits 1 k.table && fits 22 k.row

/-- A command that the outside can bring. -/
def Instr.wf : Instr → Bool
  | .porstNRelease _ b => b.flash.all (fun e => fits 24 e.1) && b.otp.all (fun e => fits 12 e.1)
  | .syncRx _ _ y => fits 8 y.domain
  | .pdelayReqRx _ _ seq | .pdelayRespRx _ _ seq _ => fits 16 seq
  | .sectorStart _ _ k => fits 6 k
  | .columnEmissionDeadline _ _ c => fits 13 c
  | .arpRequestRx _ _ a x | .arpReplyRx _ _ a x => a.wf && x.wf
  | .icmpEchoRx _ _ d x | .poseFrame _ _ d x | .erapFrame _ _ d x => d.wf && x.wf
  | .answerSegmentRx _ _ d | .pointPacket _ _ d => d.wf
  | .scrubSweepLine _ _ _ word _ | .forcedScrubSlot _ _ _ word _ => fits 6 word
  | .cacheRefresh _ _ unpin loads => unpin.all RowKey.wf && loads.all (fun e => e.1.wf)
  | .batchApplyDone _ _ _ errs => errs.all (fun e => e.2.1.wf)
  | .thermalRead _ temps => temps.length = 6
  | .hello _ hd x => hd.wf && x.wf
  | .fwd _ hd _ _ _ | .rej _ hd => hd.wf
  | .mapck _ hd recs errs => hd.wf && recs.all MapRec.wf && errs.all (fun e => e.2.1.wf)
  | .drop _ hd _ n a b => hd.wf && fits 16 n && fits 24 a && fits 24 b
  | .time _ x => x.wf
  | .xc _ hd r => hd.wf && r.wf
  | .mirror _ hd part line => hd.wf && fits 2 part && line.length = 512
  | .maprow _ hd rows => hd.wf && rows.all (fun e => e.1.wf)
  | .monRd _ addr _ | .monWr _ addr _ _ | .jtagDebugAccess _ addr _ => fits 24 addr
  | .idleRx _ ack => fits 32 ack
  | .headCheckDone _ _ _ digest => digest.length = 32
  | .porstNLow _ _ | .tapReset _ | .holdover _ | .syncTx _ _ | .announceTx _ _ | .announceRx _ _ | .pdelayReqTx _ _ | .ppsInEdge _
  | .ppsInLost _ | .ppsOutEdge _ | .ppsOutPulseEnd _ | .stepAccept _ _ | .snapshotGo _ _ | .snapshotDone _ | .sampleGap _ _
  | .stopped _ _ | .farEdgeCrossing _ _ _ | .wedgeTimeout _ _ | .wedgeCloseAfterCommit _ _ | .twilightSlotOpen _ _
  | .twilightSlotClose _ _ | .revolutionMark _ | .headLinkUp _ _ | .headLinkDown _ _ | .headPortEnable _ _ _ | .challengeSend _ _
  | .challengeTimeout _ _ | .rechal _ _ _ | .rechallengePeriod _ _ | .intDrift _ _ | .imuDrdy _ | .imuReadDone _ _ | .imuLost _
  | .poseWaitTimeout _ _ | .deskew _ _ | .shedLevelUpdate _ _ | .voxelInsert _ _ _ | .ageingPassStart _ _ _ | .ageingPassDone _ _
  | .recentringPassStart _ _ _ | .recentringPassDone _ _ | .wedgeBuildStart _ _ _ | .wedgeBuildDone _ | .chainNone _ _ _
  | .chainDense _ _ _ | .chainSparse _ _ _ | .chainDenseSm _ _ _ | .gather _ _ _ | .moveLinear _ _ _ | .moveStrided _ _ _
  | .moveTransposedInt8 _ _ _ | .moveTransposedFp16 _ _ _ | .moveAllGather _ _ _ | .moveReduceScatter _ _ _ | .select _ _ _
  | .merge _ _ _ | .maplookLookup _ _ _ | .maplookUpdate _ _ _ | .waitFull _ _ _ | .waitEmpty _ _ _ | .setFull _ _ _ | .setEmpty _ _ _
  | .barrier _ _ _ | .barrierComplete _ _ | .tagWaitSatisfied _ _ _ | .wedgeAccept _ _ _ | .wedgeDone _ _ _ | .wedgeFptrWb _ _ _
  | .loop _ _ _ | .late _ _ | .hang _ _ | .tagTo _ _ | .barTo _ _ | .ringArrival _ _ _ | .windowWrite _ _ _ | .scrubWriteBack _ _ _
  | .overflowSweepDone _ _ _ | .mapDramReadDone _ _ _ | .shadowBankClear _ | .slotBusyEnd _ | .mapCommit _ _ _
  | .migrationRun _ _ _ _ | .columnEntryDrain _ _ _ | .resultBlockDrain _ _ _ | .colPackHoldExpiry _ _ | .datagramTxStart _ _
  | .columnExpectationMissed _ | .wedgeExpectationMissed _ | .hostLinkUp _ _ | .hostLinkDown _ _ | .arpRetry _ _ | .arpRefresh _ _
  | .arpRefreshTimeout _ _ | .access _ | .claim _ | .electionClose _ | .renew _ | .release _ | .handover _ | .handoverOfferLapse _
  | .leaseExpiry _ | .loadImage _ | .loadMap _ | .loadRecovery _ | .notify _ _ | .pgCommit _ _ _ | .counterClear _ _ _ | .verify _ _
  | .imageVerifyDone _ _ | .keyLoad _ _ _ | .macsecLock _ _ _ | .macsecEnable _ _ _ | .goNoon _ _ | .noonEntryComplete _ _ | .goDusk _ _
  | .drainComplete _ _ | .duskTo _ | .goReady _ _ | .goHold _ _ | .refillComplete _ _ | .refillCheckDone _ _ _ | .flogPop _ _
  | .fire _ _ _ | .lockstepMismatch _ | .wdt _ | .holdTo _ | .goldenWedgeClose _ | .sliceStart _ | .sliceDone _ _ _ | .abort _
  | .roundTimeout _ | .missed _ _ _ | .dramScrubRead _ _ _ | .zqCalibration _ _ | .readRetraining _ _ | .portPhyCalibration _ _
  | .ageingMeasurement _ _ | .canary _ _ _ | .lifeLimit _ | .telemetrySnapshot _ _ | .laneLock _ _ | .laneLockLoss _ _ | .timeTx _
  | .idle _ | .replayTimeout _ | .xcWaitExpiry _ | .mirrorLineSend _ _ _ | .hbLost _ | .linkDown _ | .pulse _ _ | .autoResetDelay _
  | .resetPulseEnd _ | .recover _ _ _ | .flashWr _ _ | .flashDone _ | .progKey _ _ | .revoke _ _ | .advArb _ _ | .advLc _ _
  | .otpDone _ _ | .attGo _ _ | .attDone _ _ _ _ | .rngFail _ | .unlockExpiry _ | .monHelp _ | .monId _ | .monState _ | .monFlog _
  | .monClaim _ _ | .monRelease _ | .monHandover _ _ | .monPop _ | .monUnlock _ | .monTok _ _ | .monTokEnd _ _ | .monLock _
  | .monBaud _ _ | .monitorIdle _ | .monitorLeaseRenew _ | .bypass _ | .idcode _ | .samplePreload _ | .extest _ | .clamp _ | .highz _
  | .railCheck _ _ _ | .pmbAlert _ _ | .refclkLost _ | .pllUnlock _ _ | .clkWindow _ _ | .lastDawnStepComplete _
  | .trackerEnable _ _ _ _ | .partnerLinkEnable _ _ _ | .imuEnable _ _ | .outputEnable _ _ | .partnerHbInEdge _ | .holdoffExpiry _ _
  | .rngPass _ => true

end Sys2Proof
end

