-- ==== Sys2Proof/Tests/Slice0.lean ====
section
/-! SUPPORT. The model's own tests: ill-formed commands refused, single commands against values computed from the manual by hand,
and for each statement with hypotheses a state and operands that meet them (`witness_<statement>`). -/

namespace Sys2Proof.Tests

set_option Elab.async false

open Sys2Proof.Machine

/-! ### Small states -/

/-- Out of reset, all else at its reset value. -/
def base : State := { State.reset with safety := { released := true } }

/-- `s` with fields written. -/
def set (s : State) (l : List (Fld × Nat)) : State := l.foldl (fun s e => s.put e.1 e.2) s

/-- Out of reset in device state `d`, with the compute domains powered. -/
def inState (d : Nat) (l : List (Fld × Nat) := []) : State := set base ([(SYS.STATE_STATE, d), (PM.DOM_ON_ON, 0x2F7FFFFF)] ++ l)

def noon : State := inState dsNoon

/-- An instant 62.5 s after reset. -/
def late : Nat := 10 ^ 12

/-- `s` owned by master `m` with token 77. -/
def owned (m : Nat) (s : State) : State := { s with own := { owner := some m, token := 77, leaseEnd := late + 10 } }

/-- One field of what a command leaves. -/
def after (c : Instr) (s : State) (f : Fld) : Option Nat :=
  match exec c s with
  | .next u => some (u.get f)
  | _ => none

def datagram (port : Nat) (b : Bytes) : Datagram :=
  { srcIp := 9, srcUdp := 7000, srcMac := 77, dstIp := 0x0A000001, dstUdp := port, payload := b }
def noSec : SecInfo := { protected_ := false, sci := 0, an := 0, pn := 0, icvOk := false }
def hdr1 : LinkHdr := { lseq := 1, ack := 0, crcOk := true }
def boot : BootInput :=
  { pairRole := true, flash := [], otp := [], otpBad := false, flashOk := true, fwSigOk := true, imgSigOk := false, log := none,
    pllOk := true, dramOk := true, spdOk := true, slicesBad := [], fsqOk := true }

/-! ### Well-formedness: for each check a command that it refuses -/

theorem test_wf_accepts : (Instr.idcode 0).wf = true ∧ (Instr.sectorStart 0 0 63).wf = true ∧ (Instr.monRd 0 0xFFFFFF 1).wf = true := by
  decide
theorem test_wf_boot : (Instr.porstNRelease 0 { boot with flash := [(2 ^ 24, [])] }).wf = false ∧
    (Instr.porstNRelease 0 { boot with otp := [(4096, [])] }).wf = false := by decide
theorem test_wf_time : (Instr.syncRx 0 0 ⟨0, 256, 0, 0, 0, true⟩).wf = false ∧ (Instr.pdelayReqRx 0 (.head 0) 65536).wf = false ∧
    (Instr.pdelayRespRx 0 (.host 1) 65536 0).wf = false := by decide
theorem test_wf_angles : (Instr.sectorStart 0 0 64).wf = false ∧ (Instr.columnEmissionDeadline 0 0 8192).wf = false := by decide
theorem test_wf_datagrams : (Instr.pointPacket 0 0 (datagram 65536 [])).wf = false ∧
    (Instr.answerSegmentRx 0 0 { datagram 0 [] with srcMac := 2 ^ 48 }).wf = false ∧
    (Instr.poseFrame 0 0 { datagram 0 [] with srcIp := 2 ^ 32 } noSec).wf = false ∧
    (Instr.erapFrame 0 0 { datagram 0 [] with srcUdp := 65536 } noSec).wf = false ∧
    (Instr.icmpEchoRx 0 0 { datagram 0 [] with dstIp := 2 ^ 32 } noSec).wf = false ∧
    (Instr.erapFrame 0 0 (datagram 0 []) { noSec with sci := 2 ^ 64 }).wf = false ∧
    (Instr.erapFrame 0 0 (datagram 0 []) { noSec with an := 4 }).wf = false ∧
    (Instr.erapFrame 0 0 (datagram 0 []) { noSec with pn := 2 ^ 32 }).wf = false := by decide
theorem test_wf_payload : (datagram 0 (zeroBytes 65508)).wf = false := by decide +kernel
theorem test_wf_arp : (Instr.arpRequestRx 0 (.host 0) ⟨2 ^ 32, 0, 0⟩ noSec).wf = false ∧
    (Instr.arpReplyRx 0 0 ⟨0, 2 ^ 48, 0⟩ noSec).wf = false ∧ (Instr.arpReplyRx 0 0 ⟨0, 0, 2 ^ 32⟩ noSec).wf = false := by decide
theorem test_wf_lists : (Instr.thermalRead 0 [0]).wf = false := by decide
theorem test_wf_rows : (Instr.scrubSweepLine 0 0 0 64 .clean).wf = false ∧ (Instr.forcedScrubSlot 0 0 0 64 .clean).wf = false ∧
    (Instr.cacheRefresh 0 0 [⟨16, 0, 0, 0⟩] []).wf = false ∧ (Instr.cacheRefresh 0 0 [] [(⟨0, 2, 0, 0⟩, .clean)]).wf = false ∧
    (Instr.cacheRefresh 0 0 [⟨0, 0, 2, 0⟩] []).wf = false ∧ (Instr.cacheRefresh 0 0 [] [(⟨0, 0, 0, 2 ^ 22⟩, .clean)]).wf = false ∧
    (Instr.batchApplyDone 0 0 .none [(0, ⟨16, 0, 0, 0⟩, .clean)]).wf = false ∧ (Instr.maprow 0 hdr1 [(⟨0, 0, 2, 0⟩, 0, [])]).wf = false := by decide
theorem test_wf_link : (Instr.rej 0 { hdr1 with lseq := 2 ^ 32 }).wf = false ∧ (Instr.mapck 0 { hdr1 with ack := 2 ^ 32 } [] []).wf = false ∧ (Instr.mapck 0 hdr1 [] [(0, ⟨16, 0, 0, 0⟩, .clean)]).wf = false ∧
    (Instr.mapck 0 hdr1 [⟨0, 0, 256, 0, 0, 0, 0, true⟩] []).wf = false ∧
    (Instr.fwd 0 { hdr1 with lseq := 2 ^ 32 } 0 true []).wf = false ∧ (Instr.drop 0 hdr1 0 65536 0 0).wf = false ∧
    (Instr.drop 0 hdr1 0 0 (2 ^ 24) 0).wf = false ∧ (Instr.drop 0 hdr1 0 0 0 (2 ^ 24)).wf = false ∧
    (Instr.headCheckDone 0 0 true [0]).wf = false ∧ (Instr.idleRx 0 (2 ^ 32)).wf = false := by decide
theorem test_wf_hello : (Instr.hello 0 hdr1 ⟨true, 2 ^ 16, 0, 0, 0, List.replicate 16 0⟩).wf = false ∧
    (Instr.hello 0 hdr1 ⟨true, 0, 2 ^ 256, 0, 0, List.replicate 16 0⟩).wf = false ∧
    (Instr.hello 0 hdr1 ⟨true, 0, 0, 256, 0, List.replicate 16 0⟩).wf = false ∧
    (Instr.hello 0 hdr1 ⟨true, 0, 0, 0, 2 ^ 32, List.replicate 16 0⟩).wf = false ∧
    (Instr.hello 0 hdr1 ⟨true, 0, 0, 0, 0, []⟩).wf = false := by decide
theorem test_wf_status : (Instr.time 0 ⟨0, 8, 0, 0, List.replicate 8 0, true⟩).wf = false ∧
    (Instr.time 0 ⟨0, 0, 8, 0, List.replicate 8 0, true⟩).wf = false ∧ (Instr.time 0 ⟨0, 0, 0, 2 ^ 32, List.replicate 8 0, true⟩).wf = false ∧
    (Instr.time 0 ⟨0, 0, 0, 0, [], true⟩).wf = false ∧ (Instr.time 0 ⟨0, 0, 0, 0, List.replicate 8 256, true⟩).wf = false ∧
    (Instr.xc 0 hdr1 ⟨64, 0, 0, 0, 0, 0⟩).wf = false ∧ (Instr.xc 0 hdr1 ⟨0, 0, 65536, 0, 0, 0⟩).wf = false ∧
    (Instr.xc 0 hdr1 ⟨0, 0, 0, 2 ^ 32, 0, 0⟩).wf = false ∧ (Instr.xc 0 hdr1 ⟨0, 0, 0, 0, 0, 2 ^ 64⟩).wf = false := by decide
theorem test_wf_mirror : (Instr.mirror 0 hdr1 4 (zeroBytes 512)).wf = false ∧ (Instr.mirror 0 hdr1 0 []).wf = false := by decide +kernel
theorem test_wf_addresses : (Instr.monRd 0 (2 ^ 24) 1).wf = false ∧ (Instr.monWr 0 (2 ^ 24) 0 none).wf = false ∧
    (Instr.jtagDebugAccess 0 (2 ^ 24) none).wf = false := by decide

/-! ### Witnesses: the machine, reset, time -/

theorem witness_StepRunsFrontCommand : ({ base with pending := [.idcode 0] } : State).pending = .idcode 0 :: [] ∧ base.pending = [] := by decide
theorem witness_EveryStepKeepsInv : State.reset.Inv ∧ ∃ u, step { State.reset with pending := [.porstNRelease 5 boot] } = .next u :=
  ⟨⟨rfl, fun _ => rfl⟩, _, rfl⟩
theorem witness_NothingHappensInReset : State.reset.released = false ∧ actsInReset (.holdover 5) = false ∧ actsInReset (.monHelp 0) = false := by
  decide
theorem witness_EveryCommandAnswers : (∃ u, exec (.hbLost late) base = .next u) ∧ base.Running late ∧ ∀ t n, Instr.hbLost late ≠ .porstNLow t n :=
  ⟨⟨_, rfl⟩, by decide, fun _ _ h => by cases h⟩
/-- Noon with wedge 3 due to close, its mask complete. -/
def wedgeDue1 : State := { noon with wedges := noon.wedges.set 3 { mask := 1, due := some 0 }, pipe := { dueAt := some 0 } }

theorem witness_QueueAndTimeKept : (∃ u, exec (.idcode late) wedgeDue1 = .next u) ∧ (∀ t n, Instr.idcode late ≠ .porstNLow t n) ∧
    wedgeDue1.released = true ∧ wedgeDue1.safety.act = 0 :=
  ⟨⟨_, rfl⟩, fun _ _ h => Instr.noConfusion h, rfl, rfl⟩
theorem witness_QueueAndTimeKept_due : wedgeDue1.released = true ∧ actsInReset (.hbLost late) = false ∧ wedgeDue1.pipe.dueAt = some 0 ∧
    evalStep 0 < evalStep (max wedgeDue1.mono (instantOf (.hbLost late))) ∧ wedgeDue1.closeDue.pipe.dueAt = none := by decide +kernel
theorem witness_FaultsAct :
    (noon.on SI.FSQ_ACTED = false ∧ noon.safety.now.at_ ≠ some noon.mono ∧ noon.safety.flog.length < 15) ∧ (set noon [(SI.FSQ_ACTED, 1)]).on SI.FSQ_ACTED = true ∧
    (let s : State := { noon with safety := { released := true, act := 3 } }
     s.dev ≠ dsHold ∧ s.safety.act = 3) ∧
    (let s : State := { noon with mono := late, safety := { released := true, act := 2, restarts := [late - 1000 * tickMs + 1, late - 1000 * tickMs] } }
     s.dev ≠ dsHold ∧ s.safety.act = 2 ∧ s.dev = dsNoon ∧ s.recentRestarts.length = 1 ∧ s.safety.restarts.head? ≠ some s.mono) ∧
    (let s : State := { inState dsHold with sec := { fwHead := [1] }, safety := { released := true, holdAt := some 0 } }
     s.Running late ∧ s.siRuns = true ∧ s.safety.wdtStop = none ∧ s.safety.holdAt = some 0 ∧ s.dev = dsHold ∧ 0 + tickMs ≤ (s.at_ tickMs).mono ∧
       s.on SI.FSQ_ACTED = false) ∧ base.safety.act = 0 := by decide +kernel

/-- The header of a firmware of 10,000 bytes (R419). -/
def fwHead1 : Bytes := leBytes 4 0x57464C45 ++ leBytes 2 1 ++ leBytes 2 0x48 ++ leBytes 1 0 ++ leBytes 1 3 ++ leBytes 2 7 ++ leBytes 4 10000
def release (s : State) (b : BootInput) : State :=
  (({ s with
       sec := { s.sec with flash := programmed s.sec.flash b.flash
                           otp := b.otp.foldl (fun m e => otpBlow m (e.1 % 4096) e.2) s.sec.otp }
       safety := { s.safety with released := true }
       age := { s.age with log := ageLogOf b s.age.log } } : State).sampleOtp b).put PM.DOM_ON_ON 0x2F700000
    |>.phyBanks

/-- Faults of one instant stand in ascending page (R344): page 0x039 is reported first, page 0x003 lies first in the log. -/
theorem test_same_instant_faults :
    ((noon.report 1 0x039 2 1 0xFFFF false).report 2 0x003 7 1 0xFFFF false).safety.flog.map (fun e => (bitsOf e.w0 16 12, bitsOf e.w1 0 8)) =
      [(0x003, 7), (0x039, 2)] := by decide +kernel
/-- A fault of a later instant stands after them. -/
theorem test_later_fault_stands_after :
    let s := (noon.report 1 0x039 2 1 0xFFFF false).at_ late
    (s.report 1 0x003 7 1 0xFFFF false).safety.flog.map (fun e => bitsOf e.w0 16 12) = [0x039, 0x003] := by decide +kernel

theorem witness_PorstN : 10000 ≤ 10000 ∧ 999 < 1000 ∧ State.reset.released = false ∧ State.reset.safety.act = 0 ∧
    ({ boot with otpBad := true } : BootInput).otpBad = true ∧ ({ boot with flashOk := false } : BootInput).flashOk = false ∧
    (let y := release State.reset boot
     y.fwCode (Mem.bytes y.sec.flash 0 256) true ≠ 0) ∧
    (let y := release State.reset { boot with flash := [(0, fwHead1)] }
     y.fwCode (Mem.bytes y.sec.flash 0 256) true = 0) := by decide +kernel
theorem witness_TapInstructions : (base.dev ≠ dsNoon ∧ base.dev ≠ dsDusk ∧ base.dev ≠ dsMidnight) ∧
    noon.Running late ∧ noon.dev = dsNoon ∧ (inState dsDusk).dev = dsDusk ∧ (inState dsMidnight).dev = dsMidnight := by decide +kernel
theorem witness_JtagDebugAccess :
    (let s : State := { inState dsReady [(SYS.STATE_LIFECYCLE, lcProduction), (SEC.DBG_SCOPE, 2)] with sec := { unlockEnd := [0, late, 0] } }
     s.Running late ∧ (s.at_ late).jtagOpen = false) ∧
    (let s : State := { inState dsReady [(SYS.STATE_LIFECYCLE, lcProduction), (SEC.DBG_SCOPE, 2)] with sec := { unlockEnd := [0, late + 1, 0] } }
     s.Running late ∧ (s.at_ late).jtagOpen = true ∧ s.openLife = false) ∧
    (let s := inState dsReady [(SYS.STATE_LIFECYCLE, lcDevelopment)]
     s.Running late ∧ (s.at_ late).jtagOpen = true ∧ s.openLife = true ∧ 0xFFFFFC % 4 = 0 ∧ 0xFFFFFC < 2 ^ 24) := by decide +kernel

/-- Noon with TB_VEH locked to a grandmaster on HS0, both host links up. -/
def vehOn : State :=
  { set noon [(TMU.STAT_VEH_STATE, vehLocked), (HS.STAT_LINK 0, 1), (HS.STAT_LINK 1, 1), (TMU.CTRL_VEH_PORT, 1)] with
    time := { vehInit := true, src := some (5, 0), srcIntv := 16000, lastSync := late - 48000 } }
def sync1 : SyncInfo := { gmId := 5, domain := 0, logIntv := -3, origin := 10 ^ 13, rxIntern := 0, usable := true }
def ppsOn : State :=
  { set noon [(TMU.STAT_VEH_STATE, vehPps), (TMU.CTRL_PPS_IN_EN, 1)] with
    time := { vehInit := true, src := some (0, 2), lastPps := some 0 } }

theorem witness_VehicleTimeSources :
    (vehOn.Running late ∧ (vehOn.at_ late).follows = true ∧ vehOn.time.lastSync + 3 * vehOn.time.srcIntv ≤ max vehOn.mono late) ∧
    (let x := (vehOn.at_ late).rxCount (.host 0)
     sync1.usable = true ∧ x.portUp (.host 0) = true ∧ sync1.domain = x.get TMU.GPTP_CFG_VEH_DOMAIN ∧ x.get TMU.CTRL_VEH_PORT = 0 + 1) ∧
    (ppsOn.Running late ∧ (ppsOn.at_ late).on TMU.CTRL_PPS_IN_EN = true ∧ (ppsOn.at_ late).network = false) ∧
    ((set ppsOn [(TMU.CTRL_PPS_IN_EN, 0)]).Running late ∧ ((set ppsOn [(TMU.CTRL_PPS_IN_EN, 0)]).at_ late).on TMU.CTRL_PPS_IN_EN = false ∧
      (vehOn.at_ late).network = true) ∧
    (ppsOn.time.lastPps = some 0 ∧ 0 + 1500 * tickMs ≤ max ppsOn.mono (1500 * tickMs) ∧ ppsOn.vehState = vehPps ∧
      ppsOn.time.src = some (0, 2)) := by decide +kernel
theorem witness_VehicleTimeMeasured :
    (noon.time.vehInit = false ∧ noon.on TMU.CTRL_COUPLE = false) ∧
    (vehOn.time.vehInit = true ∧ vehOn.stepLim < ((vehOn.stepLim + 1).natAbs : Int) ∧ vehOn.time.src ≠ some (6, 2)) := by decide +kernel
theorem witness_PpsOutAndSnapshot :
    (let s := set noon [(TMU.PPS_OUT_SRC, 1)]
     s.Running (32 * 10 ^ 9 + 128) ∧ (s.at_ (32 * 10 ^ 9 + 128)).ppsBase = some (32 * 10 ^ 9 + 128) ∧
       ((32 * 10 ^ 9 + 128 : Int) - nearestSec (32 * 10 ^ 9 + 128) * 16000000000).natAbs ≤ 128 ∧
       s.time.ppsLast ≠ some (nearestSec (32 * 10 ^ 9 + 128)) ∧ s.dev ≠ dsDawn) ∧
    (let s : State := { noon with time := { ppsHigh := some 0 } }
     s.time.ppsHigh = some 0 ∧ 0 + max 1 (s.get TMU.PPS_OUT_WIDTH_MS) * tickMs ≤ max s.mono late) ∧
    (let s : State := { noon with time := { snap := some [none, some (4, true)] } }
     s.Running (32 * 10 ^ 9 + 128) ∧ s.time.snap = some [none, some (4, true)]) := by decide +kernel

/-- Noon with every head and host link up. -/
def linked : State := set noon ((List.range 8).map (fun h => (HP.STAT_LINK h, 1)) ++ [(HS.STAT_LINK 0, 1), (HS.STAT_LINK 1, 1)])

theorem witness_GptpMessages :
    let s : State := { linked with gptp := List.replicate 10 { pdT1 := some (3, 50), syncAt := some 0, annAt := some 0, pdAt := some 0 } }
    let x := s.at_ late
    s.Running late ∧ x.portUp (.head 7) = true ∧ x.portUp (.host 1) = true ∧ (x.gpOf (.head 7)).syncAt = some 0 ∧ 0 + (x.snsIntv : Int) ≤ x.sns ∧
      (x.gpOf (.head 7)).annAt = some 0 ∧ (x.gpOf (.host 1)).pdAt = some 0 ∧ 0 + tickS ≤ x.mono ∧ (x.gpOf (.host 1)).pdT1 = some (3, 50) := by
  decide +kernel

/-! ### Witnesses: trackers, wedges, heads -/

def tracker1 : Tracker := { t0 := 0, pos := 2 ^ 40 * 5 - 1, r := 0, lastArr := 0 }
/-- `s` with every tracker in state `st`, five revolutions on, every head covering wedges 0 to 31. -/
def tracking (s : State) (st : Nat) : State :=
  { set s ((List.range 8).flatMap (fun h => [(AT.STAT_STATE h, st), (AT.COVER_LO_WEDGES h, 0xFFFFFFFF), (AT.TWI_START_ANGLE h, 100),
      (AT.TWI_END_ANGLE h, 5000), (HP.STAT_QUAR h, 0)])) with trackers := List.replicate 8 tracker1 }
def turning : State := tracking noon atLocked
/-- The trackers of `s` just before angle `a` of a later revolution. -/
def before (s : State) (a : Nat) : State :=
  { s with trackers := s.trackers.map (fun k => { k with pos := 2 ^ 40 * 4 + (a * 2 ^ 16 : Nat) - 1 }) }
def wedgesAll (s : State) (w : WedgeSt) : State := { s with wedges := List.replicate 64 w }

theorem witness_SectorAndTwilightEvents :
    (let n := 2 ^ turning.get (AT.CFG_SECT_LOG2 0)
     let a := (n - 1) * 2 ^ 24 / n
     let s := before turning a
     let x := (s.at_ 0).closeDue
     s.Running 0 ∧ x.safety.act = 0 ∧ n - 1 < 2 ^ x.get (AT.CFG_SECT_LOG2 0) ∧ x.due? 0 (keySector (n - 1)) a = true ∧
       x.first? 0 a ((List.range n).map (fun i => (keySector i, i * 2 ^ 24 / n))) = true) ∧
    (let x := (turning.at_ 0).closeDue
     turning.Running 0 ∧ 0 < turning.trackers.length ∧ x.hasTwilight 0 = true ∧
       x.due? 0 keyTwiClose (x.get (AT.TWI_END_ANGLE 0)) = true ∧ x.due? 0 keyTwiOpen (x.get (AT.TWI_START_ANGLE 0)) = true) := by
  decide +kernel
theorem witness_TrackerFallsBackAndStops :
    (turning.Running late ∧ turning.atState 0 = atLocked ∧ (turning.tk 0).lastArr + 2 * tickMs ≤ max turning.mono (2 * tickMs)) ∧
    (let s : State := { tracking noon atFallback with trackers := List.replicate 8 { tracker1 with r := 10 ^ 9, fbAt := 0 } }
     s.Running late ∧ s.atState 7 = atFallback ∧ (s.get (AT.CFG_FB_REVS 7) : Int) * 2 ^ 40 ≤ predictAt (s.tk 7).fbAt 0 (s.tk 7).r (s.at_ late).monoNs) := by
  decide +kernel
theorem witness_WedgeCloses :
    (let s := before turning (turning.farAngle 0 31)
     let x := s.at_ 0
     s.Running 0 ∧ s.schedules = true ∧ x.covers 0 31 = true ∧ x.due? 0 (keyFar 31) (x.farAngle 0 31) = true ∧
       x.first? 0 (x.farAngle 0 31) (x.farEvents 0) = true ∧ bitOf (x.maskHeads 31) 0 = true) ∧
    (let s := wedgesAll turning { timer := some 0, mask := 1 }
     (s.wd 31).timer = some 0 ∧ 0 + s.get TMU.WEDGE_TO_US * tickUs ≤ (s.at_ late).mono ∧ (s.at_ late).maskHeads 31 ≠ 0) ∧
    (let s := wedgesAll turning { after := some 0, mask := 254 }
     (s.wd 0).after = some 0 ∧ evalStep 0 < evalStep (s.at_ late).mono ∧ (s.at_ late).maskHeads 0 ≠ 0) ∧
    ((inState dsMidnight).dev = dsMidnight ∧ 63 ∈ [(63, true)].map Prod.fst ∧ 63 < (inState dsMidnight).wedges.length) := by decide +kernel
theorem witness_ColumnDeadlineAndMarks :
    (let s := before (set turning [(TILE.ROLE_ROLE 1, 2), (TILE.ROLE_SLOTS 1, 255)]) (turning.colAngle 0 0)
     let x := (s.at_ 0).closeDue
     let before := (0 + x.columns 0 - 1) % x.columns 0
     s.Running 0 ∧ x.dev = dsNoon ∧ 0 < x.columns 0 ∧ x.due? 0 (keyCol 0) (x.colAngle 0 0) = true ∧
       x.first? 0 (x.colAngle 0 0) [(keyCol before, x.colAngle 0 before)] = true ∧ x.colTile 0 = some 1) ∧
    (let s : State := { turning with rev := { lastMark := some 0 } }
     let x := s.at_ late
     s.tracking 0 = true ∧ s.get TMU.REF_REF_HEAD = 0 ∧ x.due? 0 keyRev (s.get TMU.REF_REV_ANGLE) = true ∧ s.rev.lastMark = some 0 ∧
       2 * 0 + s.revPeriod ≤ 2 * x.mono) ∧
    (noon.tracking (noon.get TMU.REF_REF_HEAD) = false ∧ noon.rev.lastTimer.getD noon.rev.lastHead + noon.revPeriod ≤ (noon.at_ late).mono) ∧
    (inState dsDusk).dev = dsDusk := by decide +kernel

/-- `s` with the links of heads 0 and 1 up and an address on them. -/
def headsUp (s : State) : State := set s
  [(HP.CTRL_EN 0, 1), (HP.CTRL_EN 1, 1), (HP.STAT_LINK 0, 1), (HP.STAT_LINK 1, 1), (HP.IPV4_ADDR 0, 0x0A000001), (HP.IPV4_ADDR 1, 0x0A000002),
   (HP.LIFE_CFG_PERIOD_S 0, 5), (HP.STAT_QUAR 0, 0)]
def trusted (s : State) : State := set s [(HP.STAT_ID_STATE 0, idTrusted), (HP.STAT_ID_STATE 1, idTrusted)]
def heads (s : State) (h : HeadSt) : State := { s with heads := List.replicate 8 h }

theorem witness_HeadLink :
    (let s : State := { set noon [(HP.CTRL_EN 7, 1)] with time := { snsSession := true } }
     s.Running late ∧ s.on (HP.CTRL_EN 7) = true ∧ s.on (HP.STAT_LINK 7) = false ∧ s.dev ≠ dsHold ∧ s.time.snsSession = true) ∧
    (let s := set noon [(HP.CTRL_EN 0, 1), (TMU.CTRL_COUPLE, 1), (TMU.STAT_VEH_STATE, vehLocked)]
     s.on (HP.CTRL_EN 0) = true ∧ s.on (HP.STAT_LINK 0) = false ∧ s.time.snsSession = false ∧ s.on TMU.CTRL_COUPLE = true ∧ s.vehState = vehLocked) ∧
    (linked.Running late ∧ linked.on (HP.STAT_LINK 7) = true) := by decide +kernel
theorem witness_Challenges :
    (let s := heads (headsUp noon) { chalDue := true, learned := some 0x0A000009, seq := 2 ^ 32 - 1 }
     s.Running late ∧ s.headAddr 0 = some 0x0A000009 ∧ s.on (HP.STAT_LINK 0) = true ∧ s.get (HP.IPV4_ADDR 0) ≠ 0 ∧ s.rngOk = true ∧ 0 < s.heads.length ∧
       (s.hd 0).chalDue = true ∧ s.get (HP.STAT_ID_STATE 0) ≠ idTrusted) ∧
    (let s := heads (trusted (headsUp noon)) { lastChal := some 0, learned := some 0x0A000009 }
     s.get (HP.STAT_ID_STATE 0) = idTrusted ∧ s.get (HP.LIFE_CFG_PERIOD_S 0) ≠ 0 ∧ (s.hd 0).lastChal = some 0 ∧
       0 + s.get (HP.LIFE_CFG_PERIOD_S 0) * tickS ≤ (s.at_ late).mono ∧ (s.hd 0).sentAt = none ∧ (s.hd 0).checking = false ∧
       s.headAddr 0 = some 0x0A000009) ∧
    (let s := heads (headsUp noon) { sentAt := some 0, tries := 2 }
     s.Running late ∧ (s.hd 0).sentAt = some 0 ∧ (s.hd 0).checking = false ∧ 0 + 100 * tickMs ≤ max s.mono (100 * tickMs) ∧ (s.hd 0).tries < 3) ∧
    3 ≤ ((heads (headsUp noon) { sentAt := some 0, tries := 3 }).hd 0).tries ∧
    (let s := heads (headsUp noon) { sentAt := some 5 }
     let d := datagram (s.get (HP.UDP_CTL_PORT 0)) [2, 0, 1, 0, 0, 0, 0, 0]
     s.on (HP.STAT_LINK 0) = true ∧ d.dstUdp = s.get (HP.UDP_CTL_PORT 0) ∧ frameTaken d false = true ∧ (s.hd 0).sentAt = some 5 ∧ max s.mono 5 < 5 + 100 * tickMs ∧
       (s.hd 0).checking = false ∧ 8 ≤ d.payload.length ∧ d.payload.length ≤ 1400 ∧ fieldB d.payload 0 1 = 2 ∧
       fieldB d.payload 1 1 < fieldB d.payload 2 1 ∧ fieldB d.payload 4 4 = (s.hd 0).seq) := by decide +kernel

/-- The answer's body (R89): version 1, `rated` and `hours`, a nonce of sevens. -/
def answerBody (rated hours : Nat) : List (Nat × Bytes) :=
  [(0, leBytes 2 1 ++ zeroBytes 50 ++ leBytes 4 rated ++ leBytes 4 hours ++ List.replicate 32 7 ++ zeroBytes (7948 - 92))]
def answered (rated : Nat) : HeadSt := { checking := true, segCnt := 1, nonce := List.replicate 32 7, segs := answerBody rated 10 }

/-- Noon with an answer of head 0 handed to its check. -/
def headAnswer : State := heads (headsUp noon) (answered 1000)

theorem test_answer_length : (headAnswer.hd 0).body.length = 7948 := by
  have h : (headAnswer.hd 0).body = leBytes 2 1 ++ zeroBytes 50 ++ leBytes 4 1000 ++ leBytes 4 10 ++ List.replicate 32 7 ++ zeroBytes (7948 - 92) ++ [] :=
    rfl
  rw [h]
  simp only [leBytes, zeroBytes, List.length_append, List.length_replicate, List.length_cons, List.length_nil]
theorem test_answer_fields : (headAnswer.hd 0).checking = true ∧ fieldB (headAnswer.hd 0).body 0 2 = 1 ∧
    sliceB (headAnswer.hd 0).body 60 32 = (headAnswer.hd 0).nonce ∧ headAnswer.get (HP.LIFE_HRS 0) ≤ fieldB (headAnswer.hd 0).body 56 4 ∧
    fieldB (headAnswer.hd 0).body 52 4 * 9 > fieldB (headAnswer.hd 0).body 56 4 * 10 := by decide +kernel
theorem witness_HeadChecked : headAnswer.Running late ∧ (headAnswer.hd 0).checking = true ∧
    ((headAnswer.hd 0).body.length = 7948 ∧ fieldB (headAnswer.hd 0).body 0 2 = 1 ∧
      sliceB (headAnswer.hd 0).body 60 32 = (headAnswer.hd 0).nonce ∧ headAnswer.get (HP.LIFE_HRS 0) ≤ fieldB (headAnswer.hd 0).body 56 4) ∧
    fieldB (headAnswer.hd 0).body 52 4 * 9 > fieldB (headAnswer.hd 0).body 56 4 * 10 :=
  let h := test_answer_fields
  ⟨⟨rfl, rfl, rfl⟩, h.1, ⟨test_answer_length, h.2.1, h.2.2.1, h.2.2.2.1⟩, h.2.2.2.2⟩
theorem witness_HeadIdentity :
    (let s := heads (headsUp noon) { answered 1000 with nonce := [] }
     (s.hd 0).checking = true ∧ sliceB (s.hd 0).body 60 32 ≠ (s.hd 0).nonce) ∧
    (let s : State := { headsUp noon with safety := { released := true, wedgeSeen := true }, pipe := { backlog := [{ w := 1, seq := 0 }] } }
     s.noWedge = false ∧ 7 < s.heads.length ∧ s.get (HP.STAT_ID_STATE 7) ≠ idTrusted) ∧
    (trusted noon).get (HP.STAT_ID_STATE 0) = idTrusted ∧
    ((headsUp noon).Running late ∧ (headsUp noon).get (HP.INT_REF_MEAN 0) = 0) ∧
    (let s := heads (set (headsUp noon) [(AT.TWI_START_ANGLE 0, 5), (HP.INT_REF_MEAN 0, 77)]) { intSum := 1000, intN := 10 }
     s.Running late ∧ s.hasTwilight 0 = true ∧ s.get (HP.INT_REF_MEAN 0) ≠ 0 ∧ (s.hd 0).intN ≠ 0) := by decide +kernel

/-- `s` with both host links up, an address on HS0 and a destination. -/
def hostsUp (s : State) (h : HostPort) : State :=
  { set s [(HS.STAT_LINK 0, 1), (HS.STAT_LINK 1, 1), (HS.IPV4_ADDR 0, 0x0A000001), (HS.CTRL_EN 0, 1), (HS.CTRL_EN 1, 1), (OUT.DST_ADDR 0, 0x0A00000A)] with
    hosts := [h, h] }

theorem witness_HostLinkAndArp :
    (let s := set noon [(HS.CTRL_EN 1, 1)]
     s.Running (100 * tickMs) ∧ s.on (HS.CTRL_EN 1) = true ∧ s.on (HS.STAT_LINK 1) = false ∧ (s.host 1).off = false) ∧
    (let s := hostsUp noon { arpRun := true }
     s.Running (100 * tickMs) ∧ s.secOn 0 = false ∧ 0 < s.hosts.length ∧
       (s.host 0).arpRun = true ∧ s.on (HS.STAT_LINK 0) = true ∧ (s.host 0).arpAt + 100 * tickMs ≤ (s.at_ (100 * tickMs)).mono) ∧
    (let s := hostsUp noon { arp := some 5 }
     s.Running (30 * tickS) ∧
       (s.host 0).arp.isSome = true ∧ (s.host 0).arpRun = false ∧ (s.host 0).arpAt + 30 * tickS ≤ (s.at_ (30 * tickS)).mono) ∧
    (let s := hostsUp noon { arp := some 5, arpRun := true }
     let a : ArpInfo := { senderIp := 0x0A00000A, senderMac := 5, targetIp := 0x0A000001 }
     s.Running (3 * tickS) ∧
       (s.host 0).arp.isSome = true ∧ (s.host 0).arpRun = true ∧ (s.host 0).arpSince + 3 * tickS ≤ (s.at_ (3 * tickS)).mono ∧
       s.on (HS.STAT_LINK 0) = true ∧ s.secOn 0 = false ∧ noSec.protected_ = false ∧ a.senderIp = s.get (OUT.DST_ADDR 0) ∧
       a.targetIp = s.get (HS.IPV4_ADDR 0)) := by decide +kernel
theorem witness_AddressQueries :
    (let s := headsUp noon
     s.Running late ∧ s.portUp (.head 0) = true ∧ s.get (HP.IPV4_ADDR 0) ≠ 0 ∧ 0x0A000001 = s.get (HP.IPV4_ADDR 0) ∧
       0x0A000001 ≠ s.get (HP.IPV4_ADDR 1) ∧ s.portUp (.head 1) = true) ∧
    (let s := hostsUp noon {}
     s.Running late ∧ s.on (HS.STAT_LINK 0) = true ∧ s.secOn 0 = false ∧ noSec.protected_ = false ∧ s.get (HS.IPV4_ADDR 0) ≠ 0 ∧
       0x0A000001 = s.get (HS.IPV4_ADDR 0) ∧ (datagram 7 []).dstIp = s.get (HS.IPV4_ADDR 0) ∧ frameTaken (datagram 7 []) false = true) := by
  decide +kernel

/-! ### Witnesses: ingest, voxel hash, build -/

/-- A pose record (R96) at `t`, valid where its last quaternion word is 1.0. -/
def poseRec (q t : Nat) : Bytes :=
  let b := leBytes 2 0x4F50 ++ [1, 0] ++ zeroBytes 4 ++ leBytes 8 t ++ zeroBytes 24 ++ leBytes 4 q ++ zeroBytes 12
  b ++ leBytes 4 (crc32 b)
def pose1 (t : Int) : Pose := { t := t, pos := [0, 0, 0], rot := [2 ^ 30, 0, 0, 0, 2 ^ 30, 0, 0, 0, 2 ^ 30] }
def ret1 (t : Int) : WRet := { slot := 1, rng := 1000, az := 100, ch := 0, t := t, ing := 0, inten := 3 }
def engines (s : State) (k : IngSt) : State := { s with ing := [k, k] }

theorem witness_PointPacketIngested :
    (let s := headsUp noon
     s.Running late ∧ s.on (HP.STAT_LINK 1) = true ∧ s.dev ≠ dsHold ∧ frameTaken (datagram (s.get (HP.UDP_PT_PORT 1)) []) false = true ∧
       (datagram (s.get (HP.UDP_PT_PORT 1)) []).dstUdp = s.get (HP.UDP_PT_PORT 1)) ∧
    (set noon [(HP.STAT_MAP_ERR 1, 1)]).on (HP.STAT_MAP_ERR 1) = true := by decide +kernel
theorem witness_HostPoses :
    (let s := hostsUp noon {}
     let d := datagram (s.get (ING.POSE_UDP_PORT 0)) (poseRec (2 ^ 30) 500)
     s.Running late ∧ s.on (HS.STAT_LINK 0) = true ∧ s.secOn 0 = false ∧ noSec.protected_ = false ∧ s.dev ≠ dsHold ∧
       frameTaken d false = true ∧ d.dstUdp = s.get (ING.POSE_UDP_PORT 0) ∧ s.poseSrc = 0) ∧
    (readPose (poseRec 7 500)).ok = false ∧ (readPose (poseRec (2 ^ 30) 500)).ok = true ∧
    (let s : State := { noon with pose := { poses := [pose1 5, pose1 1000] } }
     s.pose.poses.getLast? = some (pose1 1000) ∧ (1000 : Int) ≤ (pose1 1000).t) := by decide +kernel
theorem witness_InertialUnit :
    ((set noon [(ING.IMU_CFG_EN 0, 1)]).Running (5 * tickMs) ∧ (set noon [(ING.IMU_CFG_EN 0, 1)]).on (ING.IMU_CFG_EN 0) = true ∧ noon.dev ≠ dsHold ∧
      noon.pose.capture = none ∧ ({ noon with pose := { capture := some 0 } } : State).pose.capture ≠ none) ∧
    (let s : State := { set noon [(ING.STAT_POSE_ACT 0, 2)] with pose := { imuHealthy := true, imuBad := 4 } }
     s.pose.imuHealthy = true ∧ s.pose.drdyAt + 5 * tickMs ≤ (s.at_ (5 * tickMs)).mono ∧ s.get (ING.STAT_POSE_ACT 0) = 2) ∧
    (let s : State := { set noon [(ING.CTRL_POSE_SRC 0, 2)] with pose := { imuHealthy := true, capture := some 600, poses := [pose1 0] } }
     let r := readPose (poseRec (2 ^ 30) 500)
     s.pose.capture = some 600 ∧ r.ok = true ∧ r.crcOk = true ∧ s.poseSrc = 2 ∧ s.pose.poses.getLast? = some (pose1 0) ∧
       (pose1 0).t < 600 - (s.get (ING.IMU_LAT_NS 0) : Int)) := by decide +kernel
theorem witness_ReturnsDeskewedAndShed :
    (let s : State := { engines noon { deskQ := [ret1 5] } with heads := List.replicate 8 { level := 64 } }
     s.Running late ∧ (s.ig 1).deskQ = ret1 5 :: [] ∧ (((s.at_ late).setIng 1 (fun k => { k with deskQ := [] })).sheds (ret1 5)) = true) ∧
    (let s : State := { engines noon { deskQ := [ret1 5] } with pose := { poses := [pose1 0, pose1 100] } }
     let y := (s.at_ 0).setIng 0 (fun k => { k with deskQ := [] })
     y.sheds (ret1 5) = false ∧
       (match y.pose.bracket (y.get (ING.POSE_GAP_US 0)) 5 false with | .found _ _ _ _ _ => true | _ => false) = true) ∧
    (let s := engines noon { deskQ := [ret1 5], pwb := [] }
     let y := (s.at_ 0).setIng 0 (fun k => { k with deskQ := [] })
     y.sheds (ret1 5) = false ∧ y.pose.bracket (y.get (ING.POSE_GAP_US 0)) 5 false = .wait ∧ (s.ig 0).pwb.length < 1048576 ∧
       (y.poseAccess 0 (s.ig 0).pwb.length true).1 = true) ∧
    (let s := engines (set noon [(SI.REGION_ATTR_EN 3, 1), (SI.REGION_SIZE_MIB 3, 32)]) { deskQ := [ret1 5] }
     let y := (s.at_ 0).setIng 0 (fun k => { k with deskQ := [] })
     s.Running 0 ∧ (s.ig 0).deskQ = ret1 5 :: [] ∧ y.sheds (ret1 5) = false ∧ y.pose.bracket (y.get (ING.POSE_GAP_US 0)) 5 false = .wait ∧
       (y.poseAccess 0 (s.ig 0).pwb.length true).1 = false) ∧
    (let s := engines noon { pwb := [ret1 5] }
     (s.ig 1).pwb = ret1 5 :: [] ∧ (ret1 5).ing + s.get (ING.POSE_WAIT_US 0) * tickUs ≤ max s.mono late) ∧
    (let s := engines (set noon [(ING.SHED_WM_HI 0, 0), (ING.SHED_STAT_LEVEL 0, 63)]) { deskQ := [ret1 5] }
     s.Running 0 ∧ s.dev ≠ dsHold ∧ (s.ig 0).shedAt = none ∧ s.get (ING.SHED_WM_HI 0) * 16384 < (s.ig 0).deskQ.length * 100 ∧
       s.get (ING.SHED_STAT_LEVEL 0) < 64) ∧
    (let s := set noon [(ING.SHED_STAT_LEVEL 1, 2)]
     ¬ s.get (ING.SHED_WM_HI 1) * 16384 < (s.ig 1).deskQ.length * 100 ∧ s.on (VHU.STAT_STASH_PRESS 0) = false ∧
       s.on (VHU.STAT_STASH_PRESS 1) = false ∧ (s.ig 1).deskQ.length * 100 < s.get (ING.SHED_WM_LO 1) * 16384 ∧
       1 < s.get (ING.SHED_STAT_LEVEL 1)) := by decide +kernel

def point1 (t : Int) : VIns := { key := [1, 2, 3], grid := 0, off := [0, 5, 0], inten := 3, slot := 1, t := t, mark := 4 }
def hashes (s : State) (v : VhuSt) : State := { s with vhu := [v, v] }

theorem witness_VoxelTable :
    ((hashes noon { inq := [point1 10] }).Running late ∧ ((hashes noon { inq := [point1 10] }).vu 1).inq = point1 10 :: []) ∧
    noon.sweepOf (-5) = none ∧
    (let s : State := { noon with ms := { pend := [{ code := 1, inst := 1, at_ := 0 }] } }
     s.msCanStart 1 1 = true) ∧
    (let s : State := { hashes noon { recGo := true, recGrids := [1], recAt := 10 } with
       ms := { run := [{ code := 2, inst := 1, at_ := 0 }] }, pipe := { backlog := [{ w := 0, seq := 0, at_ := 10 }] } }
     s.msRuns 2 1 = true ∧ (s.vu 1).recGo = true ∧ (s.vu 1).recGrids ≠ [] ∧ ∀ j ∈ s.pipe.backlog, j.golden = true ∨ (s.vu 1).recAt ≤ j.at_) ∧
    (let s : State := { hashes noon { recGo := true } with ms := { run := [{ code := 2, inst := 0, at_ := 0 }] } }
     s.msRuns 2 0 = true ∧ (s.vu 0).recGo = true ∧ (s.vu 0).recGrids = []) := by decide +kernel
/-- Noon with wedge 63 in the backlog, which asks for one rulebook, and tile 1 of the first stage, whose handle 0 is tagged. -/
def building (full : Bool) : State :=
  let s := set noon [(TILE.ROLE_ROLE 1, 1), (HDL.BASE_ADDR 1 0, 0x4000), (HDL.LEN_BYTES 1 0, 0x4000), (HDL.ATTR_VALID 1 0, 1),
    (HDL.ATTR_PARTS 1 0, 15), (HDL.ATTR_TAGM 1 0, 1), (VHU.RBQ_KIND_KIND 0 0, 1)]
  let s := if full then s.setTag 1 32 true else s
  { s with pipe := { backlog := [{ w := 63, seq := 0, regs := s.regs }] } }

theorem witness_WedgeBuilt :
    (∀ b : Bool, let s := building b
     let x := s.at_ late
     s.Running late ∧ s.pipe.backlog = { w := 63, seq := 0, regs := s.regs } :: [] ∧ s.dev = dsNoon ∧ s.pipe.building = false ∧
       s.stage0Free s.pipe.nextAdmit = true ∧ (x.buildWait { w := 63, seq := 0, regs := s.regs, admNo := s.pipe.nextAdmit }).isSome = b) ∧
    (inState dsDusk).dev = dsDusk ∧
    ({ building := true, buildAt := 16 } : PipeSt).building = true ∧
    (let s : State := { noon with age := { goldT0 := some 3 } }
     s.age.goldT0 = some 3 ∧ s.dev = dsNoon) := by decide +kernel

/-! ### Witnesses: tiles -/

/-- A descriptor of a kind at an index (R143). -/
def desc (kind seq : Nat) (rest : Bytes) : Bytes := fitBytes 64 (leBytes 1 kind ++ [0] ++ leBytes 2 seq ++ rest)
/-- Tile 1 of stage 0 in state `st` with `b` as its first descriptor. -/
def tile1 (st : Nat) (b : Bytes) : State :=
  (set noon [(TILE.STAT_STATE 1, st), (TILE.ROLE_ROLE 1, 1), (TILE.STAT_PART 1, 1), (TILE.BUDGET_CYC 1, 100), (PM.DOM_ON_ON, 0x2F7FFFFF)]).spdStore 1 0 b
def tiles (s : State) (k : TileSt) : State := { s with tiles := List.replicate 80 k }
def wait1 (kind : Nat) (ls : List Nat) : TWait := { kind := kind, line := ls.headD 0, port := 4, at_ := 0, sync := true, lines := ls }
/-- `s` at the instant `late` with nothing met. -/
def soft (s : State) : State := (s.at_ late).softOn 1 Soft.none
/-- Whether the next descriptor of tile 1 is fetched as DescriptorsRun asks; `tag` where it meets a tag parity error. -/
def issuable (s : State) (mine : Bytes → Bool) (tag : Bool := false) : Bool :=
  let k := s.tile 1
  s.tileRuns 1 && k.queue.isEmpty && k.wait.isNone &&
  match s.fetch 1 with
  | (y, some e) => (y.tile 1).queue.isEmpty && mine e.desc && (if y.tagged 1 e then y.parity 1 else none).isSome = tag
  | _ => false
/-- What executing the first descriptor of tile 1 comes to: 0 it completes, 1 it waits, 2 it stops the program, 3 it has been stopped. -/
def comesTo (s : State) (body : State → QEnt → DRes) : Nat :=
  match s.fetch 1 with
  | (y, some e) =>
    match body y e with
    | .ok _ => 0
    | .wait _ _ _ _ _ => 1
    | .stop _ _ => 2
    | .halt _ => 3
  | _ => 4

/-- `s` with handles 1 to 8 of tile 1, in wide view, of 16 KiB at 16 KiB each; 8 is tagged. -/
def handles (s : State) : State := set s ((List.range 8).flatMap (fun i =>
  let h := i + 1
  [(HDL.BASE_ADDR 1 h, h * 0x4000), (HDL.LEN_BYTES 1 h, 0x4000), (HDL.ATTR_VALID 1 h, 1), (HDL.ATTR_PARTS 1 h, 15), (HDL.ATTR_FMT 1 h, 1),
   (HDL.ATTR_TAGM 1 h, if h = 8 then 1 else 0)]))
def opref (h : Nat) : Bytes := leBytes 4 h
def noRef : Bytes := leBytes 4 0xFFFFFFFF
/-- A CHAIN of INT8 operands, A in handle 1, B in 2, OUT in 3 (R145). -/
def chainDesc (main m k n : Nat) (rb : Bytes) : Bytes :=
  desc 1 0 (opref 1 ++ opref 2 ++ opref 3 ++ rb ++ noRef ++ noRef ++ noRef ++ leBytes 2 m ++ leBytes 2 k ++ leBytes 2 n ++
    leBytes 1 (16 + main) ++ [0x11, 1, 1])
/-- A MOVE of `len` bytes from handle 1 to handle 2, BS8 scales in handle 3 (R147). -/
def moveDesc (mode conv len cnt : Nat) : Bytes :=
  desc 3 0 (opref 1 ++ opref 2 ++ leBytes 4 len ++ [0, 0] ++ leBytes 1 mode ++ leBytes 1 conv ++ leBytes 4 64 ++ leBytes 2 cnt ++ zeroBytes 6 ++ opref 3)
def gatherDesc : Bytes := desc 2 0 (opref 1 ++ opref 2 ++ opref 3 ++ leBytes 2 64 ++ leBytes 2 3 ++ [0])
def selectDesc (mode : Nat) : Bytes :=
  desc 4 0 (opref 1 ++ noRef ++ opref 2 ++ opref 3 ++ noRef ++ leBytes 4 16 ++ [4] ++ leBytes 1 mode ++ [2, 0] ++ leBytes 4 1024)
def maplookDesc (mode : Nat) : Bytes := desc 5 0 (opref 1 ++ opref 8 ++ opref 2 ++ leBytes 2 2 ++ leBytes 2 1 ++ leBytes 1 mode ++ [1, 0])
def fptrDesc : Bytes := desc 7 0 ([2, 0, 0, 0] ++ opref 1 ++ opref 2 ++ leBytes 2 2)
def tileOf (b : Bytes) : State := handles (tile1 2 b)
def tileWith (b : Bytes) : State := soft (tileOf b)
/-- A rulebook of handle 4 with no entry in any of its offsets (R129). -/
def ringOpen (s : State) : State := set s [(RING.SIZE_LINES 21 1, 8), (RING.SIZE_LINES 1 1, 8), (RING.BASE_ADDR 1 1, 0x30000), (RING.CFG_EN 1 1, 1)]
/-- The three partial sums that die 0 takes have landed. -/
def sums (s : State) : State := [2, 1, 0].foldl (fun s i =>
  (s.landSum 1 { sum := true, slice := i, hop := 3 - i, part := 1, el := zeroBytes 32, sc := zeroBytes 8 }).getD s) s

theorem witness_DescriptorsRun :
    (let s := tileOf (chainDesc 1 1 4 2 noRef)
     s.Running late ∧ issuable (soft s) (isChain 1) = true ∧ comesTo (soft s) (fun s e => s.chain 1 e) = 0) ∧
    (let s := tileWith (moveDesc 5 1 128 0)
     issuable s (isMove 5) = true ∧ comesTo (ringOpen s) (fun s e => State.reduceScatter 1 e 5 s e.phase) = 1) ∧
    (let s := tileWith (desc 1 0 (opref 9))
     issuable s (isChain 0) = true ∧ comesTo s (fun s e => s.chain 1 e) = 2) ∧
    (let s := tileOf (moveDesc 0 0 64 0)
     let z := (s.at_ late).softOn 1 { Soft.none with spd := .uncorrectable, spdAt := 0x4000 }
     s.Running late ∧ issuable z (isMove 0) = true ∧ comesTo z (fun s e => s.move 1 e) = 3) ∧
    issuable (((tileOf (maplookDesc 0)).at_ late).softOn 1 { Soft.none with tag := true }) (fun b => dKind b = 5) true = true := by decide +kernel
theorem witness_BadDescriptorStops :
    (let s := tile1 2 (desc 1 0 [])
     (s.tile 1).queue = [] ∧ (s.tile 1).wait = none ∧ (s.meet 1 0 64 false).2 = false ∧ s.get (TILE.PROG_START 1) = 0 ∧
       (((s.at_ 0).softOn 1 { Soft.none with spd := .uncorrectable }).meet 1 0 64 false).2 = true ∧
       ((s.setTile 1 (fun k => { k with injSeq := true })).tile 1).injSeq = true) ∧
    (let s := tile1 2 (desc 1 1 [])
     s.tileRuns 1 = true ∧ (s.tile 1).injSeq = false ∧ dSeq (s.descAt 1 0) ≠ (s.tile 1).next) ∧
    (let s := tile1 3 (desc 9 0 [])
     s.tileRuns 1 = true ∧ (s.tile 1).injSeq = false ∧ dSeq (s.descAt 1 0) = (s.tile 1).next ∧ 8 < dKind (s.descAt 1 0)) := by
  decide +kernel
theorem witness_DescriptorsRun_chains :
    issuable (tileWith (chainDesc 0 1 0 4 noRef)) (isChain 0) = true ∧ comesTo (tileWith (chainDesc 0 1 0 4 noRef)) (fun s e => s.chain 1 e) = 0 ∧
    issuable (tileWith (chainDesc 2 1 4 2 (opref 4))) (isChain 2) = true ∧
    comesTo (tileWith (chainDesc 2 1 4 2 (opref 4))) (fun s e => s.chain 1 e) = 0 ∧
    issuable (tileWith (chainDesc 3 1 4 2 noRef)) (isChain 3) = true ∧ comesTo (tileWith (chainDesc 3 1 4 2 noRef)) (fun s e => s.chain 1 e) = 0 := by
  decide +kernel
theorem witness_DescriptorsRun_moves :
    issuable (tileWith (moveDesc 0 0 64 0)) (isMove 0) = true ∧ comesTo (tileWith (moveDesc 0 0 64 0)) (fun s e => s.move 1 e) = 0 ∧
    issuable (tileWith (moveDesc 1 0 64 2)) (isMove 1) = true ∧ comesTo (tileWith (moveDesc 1 0 64 2)) (fun s e => s.move 1 e) = 0 ∧
    issuable (tileWith (moveDesc 4 1 128 0)) (isMove 4) = true ∧ comesTo (ringOpen (tileWith (moveDesc 4 1 128 0))) (fun s e => s.allGather 1 e) = 0 ∧
    comesTo (sums (ringOpen (tileWith (moveDesc 5 1 128 0)))) (fun s e => State.reduceScatter 1 e 5 s e.phase) = 0 := by decide +kernel
theorem witness_DescriptorsRun_transposed :
    issuable (tileWith (moveDesc 2 0 1024 1)) (isMove 2) = true ∧ comesTo (tileWith (moveDesc 2 0 1024 1)) (fun s e => s.move 1 e) = 0 ∧
    issuable (tileWith (moveDesc 3 0 512 1)) (isMove 3) = true ∧ comesTo (tileWith (moveDesc 3 0 512 1)) (fun s e => s.move 1 e) = 0 := by
  decide +kernel
theorem witness_DescriptorsRun_others :
    issuable (tileWith gatherDesc) (fun b => dKind b = 2) = true ∧ comesTo (tileWith gatherDesc) (fun s e => s.gatherRows 1 e) = 0 ∧
    issuable (tileWith (selectDesc 5)) (isSelect false) = true ∧ comesTo (tileWith (selectDesc 5)) (fun s e => s.select 1 e) = 0 ∧
    issuable (tileWith (selectDesc 21)) (isSelect true) = true ∧ comesTo (tileWith (selectDesc 21)) (fun s e => s.select 1 e) = 0 ∧
    issuable ((tileWith (maplookDesc 0)).tgeErr 0 .none) (fun b => dKind b = 5 && dU8 b 20 = 0) = true ∧
    comesTo ((tileWith (maplookDesc 0)).tgeErr 0 .none) (fun s e => s.mapLookup 1 e) = 0 ∧
    issuable ((tileWith (maplookDesc 1)).tgeErr 0 .none) (fun b => dKind b = 5 && dU8 b 20 = 1) = true ∧
    comesTo ((tileWith (maplookDesc 1)).tgeErr 0 .none) (fun s e => s.mapUpdate 1 e) = 0 ∧
    issuable (tileWith fptrDesc) (fun b => dKind b = 7 && dU8 b 4 = 2) = true ∧ comesTo (tileWith fptrDesc) (fun s e => s.fptrWb 1 e []) = 0 := by
  decide +kernel

def syncDesc (op : Nat) : Bytes := desc 6 0 (opref 8 ++ leBytes 2 2 ++ leBytes 1 op ++ [3])
def loopDesc (form : Nat) : Bytes := desc 8 0 (leBytes 2 3 ++ [1] ++ leBytes 1 form ++ opref 1)
def ent1 (b : Bytes) : QEnt := { n := 0, idx := 0, desc := b, loops := [], q := 3 }

theorem witness_SequencerRuns :
    ((tileOf (syncDesc 0)).Running late ∧ ∀ op ∈ [0, 1, 2, 3, 4], issuable (tileWith (syncDesc op)) (isSync op) true = false ∧
      issuable (tileWith (syncDesc op)) (isSync op) = true ∧
      (match (tileWith (syncDesc op)).fetch 1 with | (y, some e) => y.fenceOk 1 e | _ => false) = true) ∧
    issuable (tileWith (loopDesc 0)) (fun b => dKind b = 8) = true := by decide +kernel
theorem witness_SyncAndLoop :
    (let s := tileWith (syncDesc 0)
     s.parity 1 = none ∧ ((s.at_ late).softOn 1 { Soft.none with tag := true } |>.parity 1).isSome = true ∧
       s.syncLines 1 (ent1 (syncDesc 0)) = .ok [0x100, 0x101] ∧ s.full 1 0x100 = false ∧
       [0x100, 0x101].find? (fun l => decide (s.full 1 l ≠ true)) = some 0x100) ∧
    (match (tile1 2 (syncDesc 0)).syncLines 1 (ent1 (syncDesc 0)) with | .error _ => true | _ => false) = true ∧
    (∀ v ∈ [0, 1], let s := (tileWith (loopDesc 1)).spdStore 1 0x4000 [BitVec.ofNat 8 v, 0]
     let e := ent1 (loopDesc 1)
     1 < s.tiles.length ∧ bitOf (dU8 e.desc 7) 0 = true ∧ bitOf (dU8 (loopDesc 0) 7) 0 = false ∧ bitOf (dU8 e.desc 7) 1 = false ∧
       (match (s.refs 1 e [(8, false)]).bind (fun l => needAt l 0) with
        | .ok o => o.fits 2 && !(s.opMeet 1 o 0 2).2 && decide (leNat ((s.opMeet 1 o 0 2).1.opRead 1 o 0 2) = v)
        | _ => false) = true) := by decide +kernel
theorem witness_WaitsEnd :
    (let s : State := { tiles (tile1 3 []) { wait := some (wait1 0 [3, 4]) } with tags := [8195, 8196] }
     let so := soft s
     s.Running late ∧ so.tileRuns 1 = true ∧ (so.tile 1).queue = [] ∧ (so.tile 1).wait = some (wait1 0 [3, 4]) ∧ (wait1 0 [3, 4]).kind ≤ 1 ∧
       so.parity 1 = none ∧ (∀ l ∈ (wait1 0 [3, 4]).lines, so.full 1 l = decide ((wait1 0 [3, 4]).kind = 0)) ∧
       (((s.at_ late).softOn 1 { Soft.none with tag := true }).parity 1).isSome = true) ∧
    (let s := (tiles (tile1 3 []) { wait := some (wait1 2 []), bar := some 3 }).at_ late
     s.stageTiles 0 = [1] ∧ s.tileRuns 1 = true ∧ (s.tile 1).bar.isSome = true) := by decide +kernel
def wedge1 : WJob := { w := 5, seq := 0, built := true }
def column1 : ColSvc := { n := 0, slot := 1, col := 2, flags := 0, az := 3, first := 1, last := 2 }
/-- What `p` says of the state and the descriptor that tile 1's fetch gives. -/
def onFetch (s : State) (p : State → QEnt → Bool) : Bool :=
  match s.fetch 1 with
  | (y, some e) => p y e
  | _ => false
theorem witness_WedgeAccepted :
    (let s : State := { tile1 1 (desc 7 0 [0]) with pipe := { flight := [wedge1] } }
     let so := soft s
     s.Running late ∧ s.dev = dsNoon ∧ so.dev = s.dev ∧ so.get (TILE.STAT_STATE 1) = 1 ∧ (so.tile 1).busy = false ∧ (so.tile 1).wait = none ∧
       onFetch so (fun y e => isAccept e.desc && y.fenceOk 1 e && decide (y.get (TILE.ROLE_ROLE 1) = 1) && y.acceptReady 1 = some wedge1) = true ∧
       onFetch (soft (tile1 1 (desc 7 0 [0]))) (fun y e => isAccept e.desc && (y.acceptReady 1).isNone) = true) ∧
    (let s := set (tiles (tile1 1 (desc 7 0 [0])) { cols := [column1] }) [(TILE.ROLE_ROLE 1, 2)]
     s.Running late ∧ onFetch (soft s) (fun y e => isAccept e.desc && y.fenceOk 1 e && decide (y.get (TILE.ROLE_ROLE 1) = 2) &&
       (y.tile 1).cols = column1 :: []) = true) ∧
    (let s := set (tile1 1 (desc 7 0 [0])) [(TILE.ROLE_ROLE 1, 2)]
     s.Running late ∧ onFetch (soft s) (fun y e => isAccept e.desc && decide (y.get (TILE.ROLE_ROLE 1) = 2) && (y.tile 1).cols = []) = true) := by
  decide +kernel
theorem witness_WedgeDoneOnStage :
    ∀ f ∈ [(0 : Nat), 64], let s := (tile1 2 []).spdStore 1 0 (leBytes 1 (7 + f) ++ [0, 0, 0, 1])
      let so := ((s.at_ 0).softOn 1 Soft.none)
      s.Running 0 ∧ so.tileRuns 1 = true ∧ (so.tile 1).wait = none ∧
      onFetch so (fun y e => dKind e.desc = 7 && dU8 e.desc 4 = 1 && dEnd e.desc = decide (f = 64) && (y.tile 1).queue.isEmpty &&
        decide (y.tileCount 1 ≤ (y.budget 1).1) && decide (y.get (TILE.ROLE_ROLE 1) = 1) && decide (1 < y.tiles.length)) = true := by decide +kernel
theorem witness_BudgetsAndTimeouts :
    (let s := tiles (tile1 2 []) { busy := true }
     let z := s.at_ late
     let bs := (z.budget 1).1 + (z.budget 1).2
     s.Running late ∧ z.tileRuns 1 = true ∧ (z.tile 1).busy = true ∧ (z.tile 1).lateM = false ∧ (z.tile 1).hangM = false ∧ bs < z.tileCount 1 ∧
       4 * bs ≤ z.tileCount 1 ∧ (s.at_ 0).tileCount 1 ≤ bs) ∧
    (let x := (tiles (tile1 3 []) { wait := some (wait1 1 [3]) }).at_ late
     x.tileRuns 1 = true ∧ (x.tile 1).queue = [] ∧ (x.tile 1).wait = some (wait1 1 [3]) ∧ x.waitLong 1 (wait1 1 [3]) = true ∧ (wait1 1 [3]).kind ≠ 2) ∧
    (let x := (tiles (tile1 3 []) { xwaits := [wait1 6 [3]] }).at_ late
     x.tileRuns 1 = true ∧ (x.tile 1).queue = [] ∧ (x.tile 1).wait = none ∧ (x.tile 1).xwaits.head? = some (wait1 6 [3]) ∧
       x.waitLong 1 (wait1 6 [3]) = true) ∧
    (let x := (tiles (tile1 3 []) { wait := some (wait1 2 []) }).at_ late
     x.tileRuns 1 = true ∧ (x.tile 1).queue = [] ∧ (x.tile 1).wait = some (wait1 2 []) ∧ x.waitLong 1 (wait1 2 []) = true) := by decide +kernel
theorem witness_HangReported :
    let s := tiles (tile1 3 []) { busy := true }
    let x := s.at_ late
    s.Running late ∧ x.tileRuns 1 = true ∧ (x.tile 1).busy = true ∧ (x.tile 1).hangM = false ∧
      4 * ((x.budget 1).1 + (x.budget 1).2) ≤ x.tileCount 1 ∧ x.on SI.FSQ_ACTED = false := by decide +kernel

/-- Window 2 of tile 1 admits pieces of tiles up to 60 in partitions 0 and 1. -/
def windowed (s : State) (ps : List Piece) : State :=
  tiles (set s [(WIN.BASE_ADDR 1 2, 0x8000), (WIN.LEN_BYTES 1 2, 72), (WIN.SRC_TILES 1 2, 1), (WIN.SRC_LAST 1 2, 60), (WIN.ATTR_EN 1 2, 1),
    (WIN.ATTR_PARTS 1 2, 3)]) { win := ps }
def piece1 (src win ofs part : Nat) : Piece := ⟨src, 1, win, ofs, part, [1, 2, 3, 4, 5, 6, 7, 8]⟩
def block1 (h : Nat) : RingBlk := { sum := false, slice := 1, hop := h, part := 1, ref := (1, 0), ofs := 512, el := zeroBytes 512 }

theorem witness_ArrivalsLand :
    (let s := windowed noon [piece1 60 2 64 1]
     let so := soft s
     s.Running late ∧ (so.tile 1).win = piece1 60 2 64 1 :: [] ∧ (so.tile 1).rej.contains (60, 1) = false ∧ so.winReason 1 (piece1 60 2 64 1) = 0 ∧
       so.get (WIN.ATTR_TAGM 1 2) = 0 ∧ (piece1 60 2 64 1).data.length % 8 = 0) ∧
    (let s := windowed noon []
     s.winReason 1 (piece1 60 3 0 1) = 1 ∧ s.winReason 1 (piece1 61 2 0 1) = 2 ∧ s.winReason 1 (piece1 60 2 0 2) = 3 ∧
       s.winReason 1 (piece1 60 2 65 1) = 4) ∧
    (let s := tiles (windowed noon []) { win := [piece1 60 3 0 1], rej := [(60, 1)] }
     ((soft s).tile 1).rej.contains (60, 1) = true) ∧
    (let s := set (windowed noon [piece1 60 2 64 1]) [(WIN.ATTR_TAGM 1 2, 1)]
     let a := (soft s).get (WIN.BASE_ADDR 1 2) + 64
     (soft s).winReason 1 (piece1 60 2 64 1) = 0 ∧ (soft s).get (WIN.ATTR_TAGM 1 2) ≠ 0 ∧ (soft s).parity 1 = none ∧
       (∀ l ∈ linesOf a 8, (soft s).full 1 l = false) ∧ (∃ l ∈ linesOf a 8, (soft (s.setTag 1 64 true)).full 1 l = true) ∧
       (((s.at_ late).softOn 1 { Soft.none with tag := true }).parity 1).isSome = true) ∧
    (∀ h ∈ [1, 3], let s := ringOpen (handles (tiles noon { xin := [block1 h] }))
     let so := soft s
     s.Running late ∧ (so.tile 1).xin = block1 h :: [] ∧ so.parity 1 = none ∧
       (match so.landAt 1 (block1 h) with | .ok _ => true | _ => false) = true ∧ so.landWait 1 (block1 h) = none ∧ so.ringNoRoom 1 = none ∧
       so.landWait (nextDie 1) { block1 h with hop := h + 1 } = none) ∧
    (let k : RingBlk := { sum := true, slice := 1, hop := 1, part := 1, el := zeroBytes 32, sc := zeroBytes 8 }
     let so := soft (ringOpen (tiles noon { xin := [k] }))
     (so.tile 1).xin = k :: [] ∧ k.sum = true ∧ (so.landSum 1 k).isSome = true) ∧
    (let so := soft (tiles noon { xin := [block1 1] })
     (match so.landAt 1 (block1 1) with | .error _ => true | _ => false) = true) := by decide +kernel
theorem witness_ScrubberWorks :
    (let s := tile1 2 []
     let x := s.at_ late
     s.Running late ∧ x.tilePowered 1 = true ∧ s.get MS.SCRUB_SPD_INT ≤ tileCycles (x.mono - (x.tile 1).sweepAt) ∧ x.msAllowed 11 = true ∧
       s.ms.run = [] ∧ (x.tile 1).ceq = [] ∧ 2 < s.get (TILE.SPD_SIZE_GROUPS 1)) ∧
    (let s := set (tile1 2 []) [(TILE.SPD_SIZE_GROUPS 1, 2)]
     s.Running late ∧ (s.at_ late).tilePowered 1 = true ∧ (s.tile 1).ceq = [] ∧ s.get (TILE.SPD_SIZE_GROUPS 1) ≤ 2) ∧
    (let s := tiles (tile1 2 []) { ceq := [0x2000, 0x100008] }
     let x := s.at_ late
     s.Running late ∧ x.tilePowered 1 = true ∧ (x.tile 1).ceq = 0x2000 :: [0x100008] ∧
       s.get MS.SCRUB_SPD_INT ≤ tileCycles (x.mono - (x.tile 1).sweepAt) ∧ x.msAllowed 11 = true ∧ s.ms.run = [] ∧
       (x.tile 1).ceq.find? (fun a => a / 2 ^ 20 = 1) = some 0x100008 ∧ 1 < s.get (TILE.SPD_SIZE_GROUPS 1) ∧
       ∀ a ∈ (x.tile 1).ceq, a / 2 ^ 20 ≠ 2) ∧
    (let s := set (tile1 2 []) [(TILE.SPD_STAT_SWEEP 1, 1)]
     s.Running late ∧ (s.at_ late).tilePowered 1 = true ∧ s.on (TILE.SPD_STAT_SWEEP 1) = true ∧ (s.tile 1).ceq = [] ∧
       (tile1 2 []).on (TILE.SPD_STAT_SWEEP 1) = false) := by decide +kernel

/-! ### Witnesses: map store, output, registers, ERAP -/

def row1 (r : Nat) : RowKey := { level := 1, slot := 0, table := 1, row := r }
theorem witness_MapUpdatesApplied :
    (let s : State := { noon with map := { tge := List.replicate 2 { outst := [(row1 1, 3)] } } }
     s.Running 0 ∧ (s.tge 1).outst = (row1 1, 3) :: [] ∧ ([] : List (RowKey × Nat)).length ≤ 512 ∧ s.age.dramInj.getD 1 0 = 0) ∧
    (let s : State := { noon with map := { banks := [{ rev := 0, phase := 1 }] } }
     s.map.banks.any (fun b => b.phase = 1) = true ∧ s.linkUp = false) ∧
    (let s : State := { noon with map := { banks := [{ rev := 0, phase := 2 }] } }
     s.map.banks.any s.shadowFree = true) ∧
    noon.before (noon.get (MAP.STAGES_LOOK_LAST 0)) = [] := by decide +kernel
/-- Migration of unit 1 running, the map's region on its die, four spare units, two to move. -/
def migrating (mig : Nat) : State :=
  { set noon [(MAP.SPARE_UNIT 0, 8), (MAP.SPARE_N_UNITS 0, 4), (MAP.MIG_UNITS 0, 2), (SI.REGION_ATTR_EN 16, 1), (SI.REGION_ATTR_VIA_TGE 16, 1),
      (SI.REGION_SIZE_MIB 16, 1024), (SI.REGION_ATTR_RPARTS 16, 4), (MAP.LVL_CFG_EN 0 1, 1), (MAP.LVL_CFG_COMPOSE 0 1, 1), (MAP.LVL_CFG_RLOG 0 1, 10)] with
    ms := { run := [{ code := 3, inst := 1, at_ := 0 }] }, map := { tge := List.replicate 2 { mig := mig } } }
theorem witness_MapMaintained :
    (let s := migrating 0
     let x := s.at_ late
     s.Running late ∧ s.age.forced = false ∧ x.msRuns 3 1 = true ∧ x.maintWaits 3 = false ∧ (x.tge 1).mig < x.get (MAP.MIG_UNITS 0) ∧
       x.moveFull 1 5 (some 11) = false ∧ x.moveOk 1 5 (some 11) = true ∧ x.moveOk 1 5 (some 12) = false ∧ (x.unitRead 1 5 []).1 = true ∧
       (x.unitRead 1 5 [(5 * 4096 + 8, .uncorrectable)]).1 = false) ∧
    (let x := (migrating 2).at_ late
     x.msRuns 3 1 = true ∧ x.maintWaits 3 = false ∧ x.get (MAP.MIG_UNITS 0) ≤ (x.tge 1).mig) ∧
    (let s : State := { migrating 0 with map := { banks := [{ rev := 0, phase := 1 }] } }
     (s.at_ late).msRuns 3 1 = true ∧ (s.at_ late).maintWaits 3 = true) ∧
    (let x := (set (migrating 0) [(MAP.SPARE_N_UNITS 0, 0)]).at_ late
     x.msRuns 3 1 = true ∧ x.maintWaits 3 = false ∧ (x.tge 1).mig < x.get (MAP.MIG_UNITS 0) ∧ x.moveFull 1 5 (some 11) = true) ∧
    (let s : State := { migrating 0 with ms := { pend := [{ code := 4, inst := 1, at_ := 0 }] } }
     let x := s.at_ late
     s.Running late ∧ s.age.forced = false ∧ x.msRuns 4 1 = false ∧ x.msCanStart 4 1 = true ∧
       ((x.msStart 4 1).put (TGE.STAT_REFRESH 1) 1).maintWaits 4 = false) ∧
    (let s : State := { migrating 0 with ms := { run := [{ code := 4, inst := 1, at_ := 0 }] } }
     s.Running late ∧ (s.at_ late).msRuns 4 1 = true) ∧
    (let s := migrating 0
     s.rowExists (row1 7) = true ∧ s.badRow 1 (row1 7) = false ∧ (s.tge 1).pins.contains (row1 7) = false ∧ (s.tge 1).pins.length < 65536 ∧
       (s.rowAccess 1 (row1 7) 2 false).1 = true ∧ ((s.rowAccess 1 (row1 7) 2 false).2.rowRead 1 (row1 7) .clean).1 = true) := by decide +kernel

/-- RING[3] of tile 1 with two lines, the first of them `b`. -/
def ring3 (b : Bytes) : State :=
  (set noon [(RING.CFG_EN 1 3, 1), (RING.BASE_ADDR 1 3, 0), (RING.SIZE_LINES 1 3, 8), (RING.TAIL_PTR_PTR 1 3, 2), (OUT.CTRL_EN, 1),
    (OUT.CTRL_COL_EN, 1)]).spdStore 1 0 b
def entry1 (id res : Nat) : Bytes := leBytes 2 id ++ zeroBytes 12 ++ [3] ++ leBytes 1 res
def block3 (admNo n : Nat) : Bytes := leBytes 4 admNo ++ leBytes 2 n ++ zeroBytes 58 ++ List.replicate (32 * n) 7
theorem witness_ResultsDrained :
    (let s := set (tiles (ring3 (entry1 8194 2)) { outSvc := [some column1] }) [(TILE.ROLE_ROLE 1, 2)]
     let so := soft s
     s.Running late ∧ so.dev = dsNoon ∧ so.on (RING.CFG_EN 1 3) = true ∧ so.get (TILE.ROLE_ROLE 1) = 2 ∧ 0 < so.ringOcc 1 3 ∧
       (match so.ringPop 1 3 with
        | (some b, y) => !y.out.injBad && decide (bitsOf (fieldB b 15 1) 4 4 = 0) &&
            decide ((so.tile 1).nextSvc.filter (fun c => c.slot * 8192 + c.col = fieldB b 0 2) = some column1)
        | _ => false) = true) ∧
    (let so := soft (set (ring3 (entry1 8194 0x20)) [(TILE.ROLE_ROLE 1, 2)])
     (match so.ringPop 1 3 with | (some b, _) => decide (bitsOf (fieldB b 15 1) 4 4 ≠ 0) | _ => false) = true) ∧
    (let s := set (ring3 (entry1 8194 2)) [(TILE.ROLE_ROLE 1, 2)]
     (((s.at_ late).softOn 1 { Soft.none with spd := .uncorrectable }).ringPop 1 3).1 = none) ∧
    (let s : State := { tiles (ring3 (block3 0 2)) { blocks := [0] } with pipe := { flight := [wedge1] } }
     let so := soft s
     let h := so.spdBytes 1 (so.headLine 1 3 * 512) 64
     s.Running late ∧ so.dev = dsNoon ∧ so.on (RING.CFG_EN 1 3) = true ∧ (so.tile 1).blocks = 0 :: [] ∧
       so.pipe.flight.find? (fun j => j.admNo = 0) = some wedge1 ∧ fieldB h 4 2 ≤ 256 ∧ blockLines h ≤ so.ringOcc 1 3 ∧
       so.wedgeQueue + blockLines h * 512 ≤ 2 ^ 17 ∧ (so.ringPops 1 3 (min (blockLines h) (so.ringOcc 1 3))).1.isSome = true ∧
       (((s.at_ late).softOn 1 { Soft.none with spd := .uncorrectable }).ringPops 1 3 1).1 = none) ∧
    (let s : State := { tiles (ring3 (block3 0 2)) { blocks := [0] } with
       pipe := { flight := [wedge1] }, out := { blocks := [(9, 1, zeroBytes (2 ^ 17))] } }
     let so := soft s
     let h := so.spdBytes 1 (so.headLine 1 3 * 512) 64
     (so.tile 1).blocks = 0 :: [] ∧ wedge1.golden = false ∧ fieldB h 4 2 ≤ 256 ∧ 2 ^ 17 < so.wedgeQueue + blockLines h * 512) := by decide +kernel
def record1 (a : Nat) : ColRec := { svc := column1, band := [1, 2, 3, 4], ground := 5, free := 6, conf := 7, prog := 1, todo := [0, 1], at_ := a }
def frame1 : WFrame :=
  { port := 1, job := wedge1, flags := 0, lateStage := 0, nCand := 3, ovfCnt := 0, epoch := 1, objs := List.replicate 50 (zeroBytes 32), frag := 1 }
theorem witness_DatagramsLeave :
    let on : List (Fld × Nat) := [(OUT.CTRL_EN, 1), (OUT.CTRL_COL_EN, 1), (OUT.CTRL_PORT, 0)]
    let w1 : TxWait := { plain := true, ip := 9, mac := 77, src := 1, dst := 2, body := [1] }
    let up (k : HostPort) : State := hostsUp (set noon on) { k with arp := some 77 }
    let ready (s : State) : Bool := decide ((s.host 1).busyUntil ≤ (s.at_ late).mono) && decide (s.get OUT.CTRL_PORT = s.out.portSel)
    let results (s : State) : Bool := s.on OUT.CTRL_EN && decide (s.dev ≠ dsHold) && decide ((s.at_ late).portBar 1 = 0)
    (let s : State := { hostsUp (set noon (on ++ [(OUT.COL_PACK_HOLD_US, 3)])) { arp := some 77 } with out := { colQ := [record1 0] } }
     s.Running late ∧ s.out.colQ.find? (fun r => r.todo.contains 1) = some (record1 0) ∧ 0 + s.get OUT.COL_PACK_HOLD_US * tickUs ≤ (s.at_ late).mono ∧
       s.out.held.contains 1 = false) ∧
    (let s : State := { up {} with out := { colQ := [record1 0], held := [1] } }
     s.Running late ∧ ready s = true ∧ results s = true ∧ (s.at_ late).colReady 1 = true) ∧
    (let s : State := up { txQ := [w1] }
     ready s = true ∧ (s.at_ late).colReady 1 = false ∧ (s.host 1).txQ = w1 :: []) ∧
    (let s : State := { up {} with out := { frames := [frame1] } }
     ready s = true ∧ results s = true ∧ (s.at_ late).colReady 1 = false ∧ (s.host 1).txQ = [] ∧
       (s.out.frames.filter (fun f => f.port = 1)).find? (fun f => f.frag ≠ 0) = some frame1) ∧
    (let s : State := { up {} with out := { reports := [(1, [3])] } }
     ready s = true ∧ results s = true ∧ (s.at_ late).colReady 1 = false ∧ (s.host 1).txQ = [] ∧ s.out.frames = [] ∧
       s.out.reports.find? (fun e => e.1 = 1) = some (1, [3])) ∧
    (let s : State := { hostsUp noon { arp := some 77 } with age := { telWait := [(1, [1, 2])] } }
     ready s = true ∧ s.on OUT.CTRL_EN = false ∧ s.age.telWait.find? (fun e => e.1 = 1) = some (1, [1, 2]) ∧ (s.at_ late).portBar 1 = 0) ∧
    ((noon.at_ 0).mono < (({ noon with hosts := [{ busyUntil := 1 }, {}] } : State).host 0).busyUntil) ∧
    (1 < noon.hosts.length ∧ 3 - 1 < (noon.host 1).seq.length) := by decide +kernel
def expect1 (w : Bool) : Expect := { wedge := w, slot := 7, id := 3, tClose := 0, ends := 5 }
theorem witness_ExpectationsMissed :
    (let s : State := { noon with out := { expects := [expect1 false] } }
     s.Running 5 ∧ s.out.expects = [expect1 false] ∧ (expect1 false).wedge = false ∧ (expect1 false).ends ≤ (s.at_ 5).mono) ∧
    (expect1 true).wedge = true ∧
    (let s : State := { noon with out := { expects := [expect1 true] } }
     ∀ e ∈ s.out.expects, (s.at_ 4).mono < e.ends) := by decide +kernel
theorem witness_RegisterWrites :
    (noon.dev ≠ dsHold ∧ regRow 0x000FFC = none ∧ regRow 0x000001 = none) ∧
    (regRow (TILE.ROLE_ROLE 1).addr).isSome = true ∧ base.pageOff 0x101 = true ∧ noon.pageOff 0x101 = false ∧
    ((regRow SYS.ID.addr).map (fun d => decide (d.rw = 0 ∧ d.iw = 0 ∧ d.w1c = 0 ∧ d.w1s = 0 ∧ d.sh = 0))) = some true ∧ noon.pageOff 0 = false ∧
    ((regRow (AT.COVER_LO 0).addr).map (fun d => decide (0 < BitVec.ofNat 32 d.sh))) = some true ∧ aliasOf (AT.COVER_LO 0).addr = (AT.COVER_LO 0).addr ∧
    ((inState dsHold).dev = dsHold ∧ holdWritable (AT.COVER_LO 0).addr = false ∧ (inState dsHold).pageOff 2 = false) ∧
    (let s : State := { set noon [(HP.EVT_LINK_DOWN 3, 1)] with
       cyc := { sets := [((HP.EVT 3).addr, 0xFFFFFFFF#32)], loads := [((TS.ING_LAT_LAT 0x013).addr, 7#32)] } }
     s.pageOff (0x010 + 3) = false ∧ s.on (HP.EVT_LINK_DOWN 3) = true ∧ (HP.EVT_LINK_DOWN 3).addr = (HP.EVT 3).addr ∧
       find (HP.EVT_LINK_DOWN 3).addr s.cyc.sets = some 0xFFFFFFFF#32 ∧ bitOf (0xFFFFFFFF#32).toNat (HP.EVT_LINK_DOWN 3).lo = true ∧
       find (TS.ING_LAT_LAT (0x010 + 3)).addr s.cyc.loads = some 7#32) := by decide +kernel
def hasBit (a bit : Nat) : Bool := aliasOf a = a && (match regRow a with
  | some d => d.rw &&& bit = 0 && d.iw = 0 && d.w1c = 0 && d.w1s = bit && d.sh = 0
  | none => false)
theorem witness_OwnersWritesAct :
    (let s := owned 0 (inState dsReady)
     s.Owned late .host0 ∧ (s.asOwner late .host0).dev ≠ dsHold ∧
       (s.asOwner late .host0).cyc.loads = [] ∧
       ∀ p ∈ [0, 1, 0x011, 0x003, 0x02A, 0x019, 0x01A, 0x039, 0x03F, 0x040], (s.asOwner late .host0).pageOff p = false) ∧
    (owned 2 noon).Owned late .monitor ∧
    (let x := (owned 1 (inState dsReady [(SYS.IMG_STAT_HELD, 1), (SYS.STATE_LIFECYCLE, 0), (SEC.LC_ADV_TARGET, 1), (SEC.LC_ADV_CONFIRM, 0x4C43),
       (SEC.ARB_TARGET, 3), (SEC.BOOT_STAT_FW_SVN, 5), (SYS.IMG_STAT_SVN, 3)])).asOwner late .host1
     x.verify.isSome = true ∧ x.goNoon.isSome = true ∧ (x.otpCmd 1).isSome = true ∧ (x.otpCmd 2).isSome = true ∧ (x.otpCmd 3).isSome = true ∧
       (x.otpCmd 4).isSome = true ∧ x.attGo.isSome = true) ∧
    (noon.goDusk.isSome = true ∧ (({ inState dsDawn with sec := { waits := some boot } } : State).recover true).isSome = true) ∧
    (({ noon with sec := { recovered := true } } : State).flashWr.isSome = true) ∧
    (let x := (owned 0 (inState dsReady [(SI.INJ_EN, 1), (PG.FAULT_INJ_CODE 0x101, 0x10)])).asOwner late .host0
     hasBit (0x101 * 4096 + 0x020) 0x100 = true ∧ clampWord (0x101 * 4096 + 0x020) (x.reg (0x101 * 4096 + 0x020)) = x.reg (0x101 * 4096 + 0x020) ∧
       ((x.setReg (0x101 * 4096 + 0x020) (x.reg (0x101 * 4096 + 0x020))).fireInj 0x101).isSome = true) ∧
    (hasBit (0x101 * 4096 + 0x024) 1 = true ∧ (noon.pgCommit 0x101).isSome = true) ∧
    (hasBit (cntClrAddr 0x010) 1 = true ∧ (cntClr (blockCode 0x010)).isSome = true) ∧
    (noon.on (HS.MACSEC_LOCK 1) = false ∧ (inState dsReady).blockRuns 0x020 = false ∧ noon.on (ING.IMU_CFG_EN 0) = false) := by decide +kernel
theorem witness_OnlyTheOwnerWrites :
    let s := owned 0 noon
    s.Running late ∧ (s.at_ late).owns Master.host1.num = false ∧ (∀ k ∈ s.hosts, k.enAfter = false) ∧
      Instr.attGo late .host1 ∈ [Instr.outputEnable late .host1, .attGo late .host1] := by decide +kernel

/-- An ERAP request (R313). -/
def request (type token client count : Nat) (body : Bytes) (ver : Nat := 1) : Bytes :=
  leBytes 2 0x4552 ++ leBytes 1 ver ++ leBytes 1 type ++ leBytes 4 5 ++ leBytes 4 token ++ leBytes 1 client ++ leBytes 1 count ++ [0, 0] ++ body
def asFrame (b : Bytes) (own : Bool) : ErapFrame :=
  { port := 0, srcMac := 77, srcIp := 9, srcUdp := 7000, payload := b, arrived := 5, chan := none, own := own }
def loadBody (target : Nat) : Bytes := leBytes 1 target ++ [0] ++ leBytes 2 8 ++ zeroBytes 20

theorem witness_ErapFrameTaken :
    (let s := hostsUp (owned 0 noon) {}
     let d := datagram (s.get (HS.ERAP_UDP_PORT 0)) (request 3 77 0 0 [])
     let x := (s.at_ late).bump (HS.RX_CNT 0)
     let f : ErapFrame := { port := 0, srcMac := 77, srcIp := 9, srcUdp := 7000, payload := d.payload, arrived := x.mono, chan := none, own := false }
     let mine := decide (16 ≤ d.payload.length) && x.owns f.client && f.token = x.own.token
     let y := if mine then x.renewLease else x
     let noted := (y.put (SYS.CLIENT_ADDR f.client) f.srcIp).ow (fun o => { o with acc := o.acc.set f.client (some f) })
     s.Running late ∧ s.on (HS.STAT_LINK 0) = true ∧ s.secOn 0 = false ∧ noSec.protected_ = false ∧ d.dstUdp = s.get (HS.ERAP_UDP_PORT 0) ∧
       frameTaken d false = true ∧ frameTaken { d with tags := 2 } false = false ∧ s.erapQ = [] ∧ f.bad = 0 ∧ noted.replayOf f = none) ∧
    (asFrame (request 3 77 0 0 [] 2) false).bad = frBadVersion ∧ (asFrame [1] false).bad = frBadFormat ∧
    16 ≤ ((({ noon with erapQ := List.replicate 16 (asFrame [] false) } : State).erapQ).filter (fun f => f.port = 0)).length := by decide +kernel
theorem witness_FramesExecute :
    (let s : State := { owned 0 noon with erapQ := [asFrame (request 3 77 0 0 []) true] }
     s.Running late ∧ (s.at_ late).replayOf (asFrame (request 3 77 0 0 []) true) = none ∧
       ((s.at_ late).taken (asFrame (request 3 77 0 0 []) true)).frameOwns (asFrame (request 3 77 0 0 []) true) = true ∧
       ((s.at_ late).taken (asFrame (request 3 78 0 0 []) false)).frameOwns (asFrame (request 3 78 0 0 []) false) = false) ∧
    (let f := asFrame (request 6 77 0 0 (loadBody 1)) true
     let s : State := { owned 0 noon with erapQ := [f], map := { banks := [{ rev := 0, phase := 1 }] } }
     s.Running late ∧ (s.at_ late).replayOf f = none ∧ f.type = 6 ∧ f.target = 1 ∧ ((s.at_ late).taken f).frameOwns f = true ∧
       (s.at_ late).applying = true ∧ (noon.at_ late).applying = false) ∧
    (∀ b ∈ [request 1 77 0 1 (zeroBytes 16), request 3 77 0 0 [], request 4 77 0 0 [], request 5 77 0 0 (zeroBytes 4), request 6 77 0 0 (loadBody 0),
       request 6 77 0 0 (loadBody 1), request 6 77 0 0 (loadBody 2), request 2 0 0 0 (zeroBytes 8)], (asFrame b true).bad = 0) ∧
    (let f := asFrame (request 2 0 1 0 (zeroBytes 8)) false
     let s : State := { noon with erapQ := [f] }
     s.own.owner = none ∧ f.type = 2 ∧
       (match (((s.at_ late).taken f).claim { m := f.client, prio := 0, nonce := 0, req := some f } f.arrived).1 with | .held => true | _ => false) = true) ∧
    (let f := asFrame (request 2 0 0 0 (zeroBytes 8)) false
     let s : State := { owned 0 noon with erapQ := [f] }
     s.own.owner = some f.client ∧
       (match (((s.at_ late).taken f).claim { m := f.client, prio := 0, nonce := 0, req := some f } f.arrived).1 with | .answer _ _ => true | _ => false) = true) := by
  decide +kernel

/-! ### Witnesses: ownership, device states, self-test, partner link, security, monitor -/

def claim1 (m prio : Nat) : Claim := { m := m, prio := prio, nonce := 4, req := none }
theorem witness_OwnershipAndNotification :
    ((claim1 1 3).m < 2 ∧ noon.own.offer = none ∧ noon.own.owner = none ∧ noon.Running 5) ∧
    (let s := owned 1 noon
     s.own.owner = some 1 ∧ s.mono < s.own.leaseEnd ∧ 1 ≠ (claim1 0 3).m) ∧
    winner [claim1 0 3, claim1 1 3, claim1 2 1] = some (claim1 2 1) ∧
    (let s : State := { noon with own := { window := some 5, claims := [claim1 0 3] } }
     s.own.window = some 5 ∧ s.own.claims = [claim1 0 3] ∧ 5 ≤ max s.mono 5 ∧ (s.at_ 5).rngOk = true) ∧
    (let s := owned 0 noon
     s.own.owner.isSome = true ∧ s.own.leaseEnd ≤ max s.mono (late + 10) ∧ max s.mono (late + 9) < s.own.leaseEnd) ∧
    (let s : State := { noon with own := { owner := some 2, offer := some (1, 10) } }
     s.own.offer = some (1, 10) ∧ 10 ≤ max s.mono 10 ∧ s.own.owner ≠ some 1) ∧
    (let s : State := { noon with own := { notifyDue := [true, false], notifyAt := [some 1, none] } }
     s.own.notifyDue.getD 0 false = true ∧ (s.at_ late).holdoffOver 0 = true ∧ (s.own.notifyAt.getD 0 none).isSome = true ∧
       s.own.notifyDue.getD 1 false = false) := by decide +kernel
theorem witness_DeviceStateChanges :
    (let s : State := { inState dsReady with safety := { released := true, noonEntry := true } }
     s.Running (5 * tickMs) ∧ s.dev = dsReady ∧ s.safety.noonEntry = true ∧ s.on SYS.IMG_STAT_BUSY = false) ∧
    (let s : State := { inState dsReady [(SYS.IMG_STAT_BUSY, 1)] with safety := { released := true, noonEntry := true } }
     s.Running (5 * tickMs) ∧ s.dev = dsReady ∧ s.safety.noonEntry = true ∧ s.on SYS.IMG_STAT_BUSY = true) ∧
    ((inState dsMidnight).dev = dsMidnight ∧ (inState dsMidnight).safety.refilled = false) ∧
    (let s : State := { inState dsMidnight with safety := { released := true, refilled := true } }
     s.dev = dsMidnight ∧ s.safety.refilled = true) ∧
    ((inState dsDusk).drained = true) ∧
    (let s : State := { inState dsDusk [(PM.DUSK_MS, 5)] with pipe := { flight := [wedge1] } }
     s.drained = false ∧ s.safety.duskAt + s.get PM.DUSK_MS * tickMs ≤ (s.at_ (5 * tickMs)).mono) ∧
    (let s : State := { inState dsDawn with sec := { fwHead := [1] } }
     s.dev = dsDawn ∧ s.sec.waits = none ∧ s.sec.fwHead ≠ [] ∧ s.on PLK.CTRL_EN = false) ∧
    (let s := inState dsReady [(SYS.IMG_STAT_BUSY, 1)]
     s.on SYS.IMG_STAT_BUSY = true ∧ s.headCheck = false ∧ ({ s with heads := [{ checking := true }] } : State).headCheck = true ∧ s.dev = dsReady ∧ (s.at_ 0).imageCode (s.at_ 0).bufImage true ≠ 0) := by decide +kernel
theorem witness_PowerMonitors :
    (noon.Running late ∧ [0, 1, 16 * 85, 16 * 85, 2, 3].length = 6 ∧
      ∀ v ∈ ([0, 1, 16 * 85, 16 * 85, 2, 3] : List Int), v ≤ 130 * 16 ∧ v ≤ (noon.get PM.THERM_HI_C : Int) * 16 ∧ 0 ≤ v) ∧
    (set noon [(PM.VCMP_EN 0, 1)]).on (PM.VCMP_EN 0) = true ∧ 4 ≤ (11 : Fin 12).val ∧
    bitOf (noon.get CM.STAT_SPARE_USE) (pllBase 5) = false ∧ bitOf ((set noon [(CM.STAT_SPARE_USE, 2)]).get CM.STAT_SPARE_USE) (pllBase 5) = true ∧
    17 ≤ (24 : Fin 27).val ∧ 24 < (26 : Fin 27).val ∧ (16 : Fin 27).val < 17 := by decide +kernel
theorem witness_SlicesRun :
    (let s := inState dsReady [(BIST.SLICE_EN_EN, 0x1FFF)]
     let x := s.at_ late
     s.Running late ∧ x.sliceTurn = some (0, 0) ∧ s.age.slice = none ∧ s.dev = dsReady ∧ (x.msRequest sliceAct 0).msCanStart sliceAct 0 = true ∧
       (x.msRequest sliceAct 0).sliceRoom 0 = true) ∧
    (let s : State := { inState dsReady [(BIST.SLICE_EN_EN, 0x1FFF)] with
       ms := { run := [{ code := 5, inst := 0, at_ := 0 }, { code := 9, inst := 0, at_ := 0 }] } }
     ((s.at_ late).msRequest sliceAct 0).msCanStart sliceAct 0 = false) ∧
    (let s : State := { noon with age := { slice := some (1, 0, late) } }
     s.age.slice = some (1, 0, late) ∧ (s.at_ late).mono < late + sliceLimit 1 ∧ late + sliceLimit 1 ≤ (s.at_ (late + sliceLimit 1)).mono) := by
  decide +kernel
theorem witness_MaintenanceTimers :
    (let x := noon.at_ late
     noon.Running late ∧ noon.age.zqAt.getD 1 0 + 128 * tickMs ≤ x.mono ∧
       ((x.msRequest 7 1).ag (fun a => { a with zqAt := a.zqAt.set 1 x.mono })).msCanStart 7 1 = true ∧
       noon.age.trainAt.getD 1 0 + 1024 * tickMs ≤ x.mono ∧
       ((x.msRequest 7 3).ag (fun a => { a with trainAt := a.trainAt.set 1 x.mono })).msCanStart 7 3 = true ∧
       noon.age.phyAt.getD 12 0 + tickS ≤ x.mono ∧
       ((x.msRequest 8 12).ag (fun a => { a with phyAt := a.phyAt.set 12 x.mono })).msCanStart 8 12 = true) ∧
    (let a : Act := { code := 7, inst := 1, at_ := 0 }
     let s : State := { noon with ms := { pend := [a] } }
     s.ms.pend.find? (fun a => a.code = 7 && a.inst = 1) = some a ∧ (s.at_ late).msAllowed 7 = true ∧ (s.at_ late).msLate a = true ∧ (7 : Fin 12).val ≠ 1) ∧
    (noon.age.roundAt + noon.get BIST.ROUND_S * tickS ≤ (noon.at_ (noon.get BIST.ROUND_S * tickS)).mono ∧ noon.age.roundMiss = false ∧
      (noon.at_ 0).msAllowed 6 = true) ∧
    ((noon.at_ 5).mono < noon.age.zqAt.getD 0 0 + 128 * tickMs ∧ noon.ms.pend = []) := by decide +kernel
theorem witness_AgeingAndTelemetry :
    (let x := noon.at_ late
     noon.Running late ∧ noon.age.scrubAt.getD 1 0 + noon.get (DRAM.SCRUB_INT_NS 1) * tickNs ≤ x.mono ∧ x.msAllowed 11 = true ∧ noon.ms.run = [] ∧
       noon.age.dramInj.getD 1 0 = 0 ∧ noon.age.scrubNext.getD 1 0 + 1 < 2 ^ 25) ∧
    (noon.age.runAt = none ∧ (noon.at_ 0).msCanStart 9 0 = false) ∧
    (({ noon with ms := { pend := [{ code := 9, inst := 0, at_ := 0 }] } } : State).msCanStart 9 0 = true) ∧
    (let s := set noon [(AGE.SLACK_CANARY_PS, 20), (AGE.AVS_FUSE_MAX 0, 20)]
     19 < s.get AGE.SLACK_CANARY_PS ∧ s.getI (AGE.AVS_OFS 0) < s.getI (AGE.AVS_FUSE_MAX 0) ∧ s.getI (AGE.AVS_FUSE_MAX 3) ≤ s.getI (AGE.AVS_OFS 3) ∧
       s.dev = dsNoon) ∧
    (let s : State := { noon with age := { hours0 := 50000 } }
     50000 ≤ (s.at_ 0).hours ∧ s.age.limit = false) ∧
    (let s := set noon [(AGE.TELEM_SEND, 0)]
     s.age.telAt + s.get AGE.TELEM_PERIOD_MS * tickMs ≤ (s.at_ late).mono ∧ (s.at_ late).msAllowed 10 = true ∧ s.age.telWait = [] ∧
       s.on AGE.TELEM_SEND = false ∧ s.dev ≠ dsHold) := by decide +kernel
theorem witness_RestartLimit :
    let s (n : Nat) : State := { noon with mono := late, safety := { released := true, act := 2, restarts := List.replicate n (late - 1) } }
    (s 2).safety.act = 2 ∧ (s 2).dev = dsNoon ∧ 2 ≤ (s 2).recentRestarts.length ∧ (s 1).recentRestarts.length < 2 ∧
      (s 1).safety.restarts.head? ≠ some (s 1).mono ∧ (inState dsMidnight).dev = dsMidnight := by decide +kernel

/-- The partner link in state `n` of PLK.STAT.STATE. -/
def link (n : Nat) (k : PlkSt := {}) : State :=
  { set noon [(PLK.CTRL_EN, 1), (PLK.STAT_STATE, n), (PLK.STAT_IMG_MATCH, 1), (PLK.CTRL_XC_EN, 1), (PLK.PTN_STATE_STATE, dsNoon)] with plk := k }
def sent1 : LinkFrame := ⟨1, 0, { type := 3, payload := [7] }⟩
def hello1 (r : Bool) : HelloInfo := ⟨r, 0x48, 7, 0xF0, 1, []⟩
def xc1 : XcRec := { wedge := 1, flags := 0, nObj := 1, admNo := 0, tClose := 5, digest := 9 }

theorem witness_PartnerSession :
    ((link 0).Running (4 * tickUs) ∧ (link 0).linkRuns = true ∧ (link 0).laneServes 1 = true ∧ (link 0).linkAlive = false) ∧
    ((link 2).linkAlive = true ∧ (link 2).linkUp = false ∧ (link 3).linkAlive = true ∧ (link 3).linkUp = true ∧ hdr1.crcOk = true) ∧
    (b2n (hello1 false).role = (link 2).get SYS.STATE_PAIR_ROLE ∧ b2n (hello1 true).role ≠ (link 2).get SYS.STATE_PAIR_ROLE) ∧
    (link 2).plk.lastTx + tickUs ≤ ((link 2).at_ tickUs).mono ∧
    (let s := link 3 { replay := [sent1] }
     s.plk.replay = sent1 :: [] ∧ sent1.at_ + 4 * tickUs ≤ (s.at_ (4 * tickUs)).mono) := by decide +kernel
theorem witness_PartnerFramesTaken :
    (let s := link 3
     let w := ((s.at_ late).pl (fun k => { k with lastRx := late })).linkAck hdr1.ack
     s.Running late ∧ s.linkUp = true ∧ hdr1.crcOk = true ∧ hdr1.lseq = (w.plk.rxSeq + 1) % 2 ^ 32 ∧ 5 ≠ (w.plk.rxSeq + 1) % 2 ^ 32) ∧
    ((link 3).mapOwner = true ∧ (set (link 3) [(MAP.PAIR_OWNER_SEL 0, 1)]).mapOwner = false ∧ (link 3).activeSlot 15 = 0) ∧
    ((link 3).xcOn = true ∧ (link 3).plk.xcOwn.find? (fun o => (link 3).xcMatch o.xr xc1) = none ∧
      (link 3 { xcOwn := [⟨xc1, 0⟩] }).plk.xcOwn.find? (fun o => (link 3).xcMatch o.xr xc1) = some ⟨xc1, 0⟩) ∧
    (79 < fieldB (leBytes 2 80) 0 2 ∧ fieldB (leBytes 2 79) 0 2 ≤ 79 ∧ ((link 3).tile 79).win = []) ∧ xc1.digest = xc1.digest := by decide +kernel
theorem witness_PartnerTraffic :
    (let s := link 3 { timeAt := some 0 }
     s.Running late ∧ s.linkUp = true ∧ s.plk.timeAt = some 0 ∧ 0 + tickMs ≤ (s.at_ tickMs).mono) ∧
    (bitOf (([] : List Nat).getD 7 0) 5 = false ∧ (link 3).plk.remote = 0 ∧ (link 3).get PLK.STAT_FWD_SLOTS = 0) ∧
    (∀ n ∈ [2, 3], let s := set (link n) [(RING.CFG_EN 1 2, 1), (RING.SIZE_LINES 1 2, 8), (RING.TAIL_PTR_PTR 1 2, 2)]
     let so := soft s
     s.Running late ∧ so.on (RING.CFG_EN 1 2) = true ∧ 0 < so.ringOcc 1 2 ∧
       (match so.ringPop 1 2 with
        | (some b, y) => decide (y.linkUp = decide (n = 3)) && decide (fieldB b 0 2 ≤ 79) && decide (fieldB b 3 1 = 0)
        | _ => false) = true ∧
       (((s.at_ late).softOn 1 { Soft.none with spd := .uncorrectable }).ringPop 1 2).1 = none) ∧
    (match (soft ((set (link 3) [(RING.SIZE_LINES 1 2, 8), (RING.TAIL_PTR_PTR 1 2, 2)]).spdStore 1 0 [80])).ringPop 1 2 with
     | (some b, y) => y.linkUp && decide (79 < fieldB b 0 2)
     | _ => false) = true ∧
    (let r : XcWait := { xr := xc1, at_ := 0 }
     ({ xcOwn := [r] } : PlkSt).xcOwn.filter (fun w => decide (w.at_ + noon.get PLK.XC_WAIT_MS * tickMs ≤ (noon.at_ late).mono)) = [r]) := by
  decide +kernel
theorem witness_PartnerLost :
    (let s := link 3
     s.Running late ∧ s.linkRuns = true ∧ s.plk.hbLost = false ∧ s.plk.hbAt + s.get PLK.TIMEOUT_HB_US * tickUs ≤ (s.at_ late).mono ∧ s.linkUp = true ∧
       s.plk.lastRx + s.get PLK.TIMEOUT_LINK_US * tickUs ≤ (s.at_ late).mono) ∧
    (let s := set (link 4 { hbLost := true }) [(PLK.CTRL_AUTO_RST, 1), (PLK.RST_MAX, 1)]
     s.on PLK.CTRL_AUTO_RST = true ∧ s.plk.hbLost = true ∧ s.dev ≠ dsHold ∧ s.plk.pulseAt = none ∧ s.plk.lastPulse = none ∧
       s.plk.hbLostAt + s.get PLK.RST_DELAY_MS * tickMs ≤ (s.at_ late).mono ∧ 0 < s.get PLK.RST_MAX ∧
       s.get PLK.RST_MAX ≤ ([late - 1].filter (fun a => decide (late < a + 3600 * tickS))).length) ∧
    (let s := link 3 { pulseAt := some 0 }
     s.plk.pulseAt = some 0 ∧ 0 + 10 * tickMs ≤ (s.at_ (10 * tickMs)).mono ∧ (s.at_ 5).mono < 0 + 10 * tickMs) := by decide +kernel
def withSec (s : State) (k : SecSt) : State := { s with sec := k }
theorem witness_SecurityEngines :
    (withSec noon { flashAt := some 1 }).sec.flashAt = some 1 ∧ (withSec noon { otpOp := some 4 }).sec.otpOp = some 4 ∧
    (withSec noon { otpOp := some 1 }).sec.otpOp = some 1 ∧ (withSec noon { otpSlot := 3 }).sec.otpSlot = (3 : Fin 4).val ∧
    (set noon [(SEC.ATT_CTRL_BUSY, 1)]).on SEC.ATT_CTRL_BUSY = true ∧ noon.headCheck = false ∧ noon.on SYS.IMG_STAT_BUSY = false ∧ noon.sec.monWait = [] ∧ (noon.at_ 0).rngOk = true ∧ noon.sec.rngBad = false ∧ noon.Running 0 := by
  decide +kernel

/-- Firmware runs; the life-cycle state is `lc`. -/
def monitored (lc : Nat) (l : List (Fld × Nat) := []) (k : SecSt := { fwHead := [1] }) : State :=
  withSec (inState dsReady ([(SYS.STATE_LIFECYCLE, lc)] ++ l)) k
/-- An unlock token for scopes MON and JTAG and 50 s, its nonce all zero (R426). -/
def token1 : Bytes := leBytes 4 0x55474244 ++ [1, 3, 0, 0] ++ zeroBytes 64 ++ leBytes 4 50 ++ zeroBytes 7880

theorem witness_MonitorCommands :
    (let s := monitored lcProduction
     s.Running late ∧ s.monRuns = true ∧ s.monMay = false ∧ addrOk 0xFFFFFC = true ∧ (s.readAt 0xFFFFFC).1 ≠ stOk ∧ (s.readAt SYS.ID.addr).1 = stOk) ∧
    (((monitored lcProduction [(SEC.DBG_SCOPE, 1)] { fwHead := [1], unlockEnd := [late + 1, 0, 0] }).at_ late).monMay = true ∧ (monitored lcDevelopment).monMay = true ∧ 15 ≤ 15) ∧
    (let x := (monitored lcDevelopment).at_ late
     (match (x.random.2.claim { m := 2, prio := 15, nonce := 0, req := none } late).1 with | .held => true | _ => false) = true) ∧
    (let s := owned 2 (monitored lcDevelopment)
     let x := s.at_ late
     x.owns 2 = true ∧ (match (x.random.2.claim { m := 2, prio := 15, nonce := 0, req := none } late).1 with | .answer _ _ => true | _ => false) = true ∧
       (x.writeReg (SEC.MON_CFG.addr) 5#32 0xFFFFFFFF#32 none).1 = stOk ∧ addrOk SEC.MON_CFG.addr = true ∧ x.dev ≠ dsHold ∧ x.pageOff 0x039 = false ∧
       s.own.leaseEnd ≤ x.mono + 150 * tickMs) ∧
    (let s := { owned 2 (monitored lcDevelopment) with own := { owner := some 2, leaseEnd := 2 ^ 60 } }
     let z := s.at_ (s.get SEC.MON_CFG_IDLE_S * tickS)
     z.owns 2 = true ∧ s.sec.lineAt + s.get SEC.MON_CFG_IDLE_S * tickS ≤ z.mono) ∧ (monitored 0).rngOk = true ∧ 230400 ∈ baudRates ∧
    (zeroBytes 124).length ≤ 124 := by decide +kernel
theorem witness_MonitorCommands_unlock :
    let s := monitored lcProduction [(SEC.KEYSLOT_ATTR 0, 3)] { fwHead := [1], tok := token1, nonce := some (zeroBytes 32, 0) }
    s.sec.failAt = none ∧ ((s.at_ 5).sc (fun k => { k with tok := [] })).tokenOk s.sec.tok = true := by decide +kernel
theorem witness_MonoRuns :
    (State.reset.Inv ∧ State.reset.released = false) ∧ base.released = true ∧ (∃ u, exec (.hbLost late) base = .next u) ∧ 10000 ≤ 10000 :=
  ⟨⟨⟨rfl, fun _ => rfl⟩, rfl⟩, rfl, ⟨_, rfl⟩, Nat.le_refl _⟩
theorem witness_MonitorMayOwn :
    (let s := monitored lcProduction
     s.Running late ∧ s.lifecycle = lcProduction ∧ (s.at_ late).scope 0 = false ∧ s.monRuns = true ∧ s.own.owner ≠ some 2) ∧
    (let f := asFrame (request 5 77 0 0 [2, 0, 0, 0]) true
     let s : State := { owned 0 (monitored lcProduction) with erapQ := [f] }
     s.erapQ = f :: [] ∧ f.bad = 0 ∧ (s.at_ late).replayOf f = none ∧ f.type = 5 ∧ fieldB f.body 0 1 = 2 ∧ ((s.at_ late).taken f).frameOwns f = true ∧
       f.client < 2) ∧
    (let s := monitored lcProduction [(SEC.DBG_SCOPE, 1)] { fwHead := [1], unlockEnd := [late + 1, 0, 0] }
     (s.at_ late).scope 0 = true ∧ s.own.owner = none ∧ s.own.offer = none ∧ s.monRuns = true) := by decide +kernel
theorem witness_RandomConsumersWait :
    (noon.Running late ∧ noon.sec.rngBad = false ∧ noon.on SI.FSQ_ACTED = false ∧ noon.safety.now.at_ ≠ some (noon.at_ late).mono ∧
      noon.safety.flog.length < 16) ∧
    (let s := monitored lcDevelopment [] { fwHead := [1], rngBad := true, monWait := [none] }
     s.Running late ∧ s.sec.rngBad = true ∧ s.monRuns = true ∧ s.sec.monWait = [none]) ∧
    (let s : State := { withSec noon { rngBad := true } with own := { owner := some 0, leaseEnd := late, offer := some (1, 10) } }
     s.sec.rngBad = true ∧ (claim1 1 3).m < 2 ∧ s.own.owner ≠ some 1 ∧ s.own.owner.isSome = true ∧ s.mono < s.own.leaseEnd ∧
       s.own.offer = some ((claim1 1 3).m, 10) ∧ s.mono < 10) := by decide +kernel

/-! ### Single commands and definitions against the manual's examples -/

def outcome (c : Instr) (s : State) (f : State → α) : Option α :=
  match exec c s with
  | .next u => some (f u)
  | _ => none

/-- Key (1, 2, 3) of grid 0: the example of chapter 4. -/
theorem test_voxel_hash : voxHash [1, 2, 3] = 0xDDF8E7E8 ∧ voxOwner [1, 2, 3] = 0 ∧ voxBucket [1, 2, 3] = 0xE7E8 := by decide
/-- 3.99, -1.25, 0.05 and 0.015625 in BS8: the example of chapter 6. -/
theorem test_block_scaled :
    toBlock 0xC ([0x407F5C29, 0xBFA00000, 0x3D4CCCCD, 0x3C800000].map fFP32.dec ++ List.replicate 28 Machine.Num.zero) =
      ([127, -40, 2, 0] ++ List.replicate 28 0, 0x80) := by decide +kernel
/-- The peer-delay exchange of chapter 2's example ends in TS_PDELAY = 472. -/
theorem test_peer_delay :
    let s : State := { set linked [(TS.ING_LAT_LAT 0x015, 152), (TS.EGR_LAT_LAT 0x015, 100)] with
      gptp := List.replicate 10 { pdT1 := some (3, 16000000) } }
    after (.pdelayRespRx 16009096 (.head 5) 3 8000) s (TS.PDELAY_DELAY 0x015) = some 472 := by decide +kernel
/-- TS_ASYM of 2.00 ns adds 0x2_0000 to the correctionField: the same example. -/
theorem test_asymmetry :
    let s := set linked [(TS.ASYM_ASYM 0x015, 32)]
    outcome (.syncTx late 5) s (fun u => u.outbox.getLast?.map (fun e => match e with | .gptp _ k _ b => (k, beNat (b.take 8)) | _ => (0, 0))) =
      some (some (8, 0x20000)) := by decide +kernel
/-- The descriptor and the packet of chapter 3's example: return 5 of block 3. -/
theorem test_field_map :
    let d (kind scope ofs w shift conv : Nat) : FDesc :=
      { ofs := ofs, scope := scope, w := w, shift := shift, be := false, signed := false, kind := kind, conv := conv }
    let m : HeadMap :=
      { map := [d 1 0 0 16 0 0x4C5A, d 2 0 8 32 0 1, d 3 0 12 32 0 1, d 5 1 0 16 0 (6871948 + 14 * 2 ^ 24), d 4 1 4 32 0 1, d 6 2 0 20 0 128,
          d 7 2 2 8 4 1, d 9 2 3 2 4 1],
        tsSrc := false, chImpl := true, chCnt := 32, blkBase := 24, blkStride := 136, blkCnt := 10, retCnt := 32, retOfs := 8, retStride := 4 }
    let p : Bytes := [0x5A, 0x4C] ++ zeroBytes 6 ++ [0xE8, 3, 0, 0, 0x68, 0x49, 0xD7, 0x17] ++ zeroBytes 416 ++ [0x10, 0x27, 0, 0, 0x98, 0x3A, 0, 0] ++
      zeroBytes 20 ++ [0x20, 0x4E, 0xA0, 0x15] ++ zeroBytes 900
    m.resolve p 0 3 5 = .read { t := 1000400000000, az := 4194304, rng := 2560000, inten := 0x5A, ch := 5, rn := 1, blk := 3, j := 5 } := by
  decide +kernel
/-- The SELECT of chapter 9's example. -/
def exampleKeys : Bytes := [0x4100, 0x7E00, 0x4700, 0x4100, 0x4700, 0xBC00, 0x4100, 0x4200, 0x3800, 0x4100].flatMap (leBytes 2)
def selected : Option (Bytes × Bytes) :=
  let b := desc 4 0 (opref 1 ++ noRef ++ opref 2 ++ opref 3 ++ opref 4 ++ leBytes 4 10 ++ [4, 8, 0, 0] ++ leBytes 4 0)
  let s := ((tileWith b).spdStore 1 0x4000 exampleKeys).spdStore 1 0x10000 [0x80, 0]
  match s.select 1 (ent1 b) with
  | .ok u => some (u.spdBytes 1 0x8000 32, u.spdBytes 1 0xC000 32)
  | _ => none
theorem test_select :
    selected = some ([0x40E00000, 2, 0x40E00000, 4, 0x40200000, 0, 0x40200000, 3].flatMap (leBytes 4),
      [4, 0x41980000, 0x40900000, 2, 1, 0x40E00000, 0, 8].flatMap (leBytes 4)) := by decide +kernel
/-- The corners, weights and rows of chapter 10's example. -/
theorem test_map_corners :
    let s := set noon [(MAP.LVL_CFG_RLOG 0 0, 20), (MAP.LVL_CFG_MLOG 0 0, 9), (MAP.LVL_CFG_FMT 0 0, 1), (MAP.LVL_CFG_F8 0 0, 2), (VHU.GRID_CFG_VLOG 0 0, 7)]
    let j : WJob := { w := 0, seq := 0, regs := s.regs, centre := [[0, 0, 0], [0, 0, 0], [0, 0, 0]] }
    let c := j.corners (3 + 2 ^ 21) 0 0
    c.map Prod.fst = [[0, 0, 0], [1, 0, 0], [0, 1, 0], [1, 1, 0], [0, 0, 1], [1, 0, 1], [0, 1, 1], [1, 1, 1]] ∧
      c.map (fun e => fFP32.enc false e.2) = [70, 490, 42, 294, 10, 70, 6, 42].map (fun n => fFP32.enc false (.fin false n (-10))) ∧
      [[0, 0, 0], [1, 0, 0], [0, 0, 1]].map (fun x => (j.cornerRows 0 x false).map (fun k => k.row)) = [[1], [648055], [797483]] ∧
      s.rowByte { level := 0, slot := 0, table := 0, row := 648055 } = 0x009E3770 := by decide +kernel
/-- The column record of chapter 11's example. -/
theorem test_column_record :
    let r : ColRec :=
      { svc := { n := 0, slot := 2, col := 1000, flags := 0, az := 0x7E8800, first := 1000400000000, last := 1000400012200 },
        band := [0xFFFF, 1845, 0xFFFF, 0xFFFF], ground := 0xFF4A, free := 1845, conf := 230, prog := 0, todo := [0], at_ := 0 }
    r.bytes (180000 / 8) false = leBytes 2 0x43E8 ++ leBytes 2 0 ++ leBytes 4 0xE67E8800 ++ leBytes 8 0xE8EC7C9400 ++ leBytes 2 0x05F5 ++
      leBytes 2 0x57E4 ++ leBytes 2 0xFFFF ++ leBytes 2 0x0735 ++ leBytes 2 0xFFFF ++ leBytes 2 0xFFFF ++ leBytes 2 0xFF4A ++ leBytes 2 0x0735 := by
  decide +kernel
/-- The frame of chapter 12's example: a WRITE of 1 to TMU.STEP_ACCEPT answers OK, and reads 1 while a wedge is in progress. -/
theorem test_step_accept :
    let s : State := { set noon [(TMU.STAT_VEH_STATE, vehRefused)] with
      time := { vehInit := true, refused := some 5 }, safety := { released := true, wedgeSeen := true } }
    (s.entry true ([2, 0, 0, 0] ++ [0x64, 0x10, 0, 0] ++ [1, 0, 0, 0] ++ zeroBytes 4)).1 =
      [2, 0, 0, 0] ++ [0x64, 0x10, 0, 0] ++ [1, 0, 0, 0] ++ zeroBytes 4 := by decide +kernel
/-- The election of chapter 12's example closes at 10 ms for client 1, with a lease of 200 ms. -/
theorem test_election :
    let s : State := { noon with own := { window := some (10 * tickMs), claims := [
      { m := 0, prio := 4, nonce := 0x1234, req := none }, { m := 1, prio := 2, nonce := 0x9F00, req := none }] } }
    outcome (.electionClose (10 * tickMs)) s (fun u => (u.own.owner, u.own.leaseEnd)) = some (some 1, 210 * tickMs) := by decide +kernel
/-- The faults of chapter 13's example: their entries, the restart, the fresh attempt, Hold at the third within a second. -/
theorem test_scratchpad_ue :
    let s := tiles (set noon [(TILE.ROLE_ROLE 45, 1), (TILE.STAT_PART 45, 1)]) { ceq := [0x2000] }
    outcome (.scrubWriteBack 0 45 .uncorrectable) s (fun u => (u.safety.flog.map (fun e => (e.w0, bitsOf e.w1 0 8)), u.dev, u.get SI.RST_CNT)) =
      some ([(0x012D2002, 0x0A)], dsMidnight, 1) := by decide +kernel
theorem test_fresh_attempt :
    let s : State := { set (inState dsMidnight) [(TILE.ROLE_ROLE 72, 1), (TILE.STAT_PART 72, 1), (SI.RST_CNT, 1)] with
      safety := { released := true, refilled := true, handling := true, restarts := [0] } }
    outcome (.refillCheckDone (4 * tickMs) true (some (72, 0))) s (fun u => (u.safety.flog.map (fun e => e.w0), u.dev, u.get SI.RST_CNT)) =
      some ([0x01482006], dsMidnight, 2) := by decide +kernel
theorem test_third_restart :
    let s : State := { tiles (set noon [(TILE.STAT_STATE 23, 3), (TILE.ROLE_ROLE 23, 1), (TILE.STAT_PART 23, 1), (SI.RST_CNT, 2)]) { wait := some (wait1 0 [3]) } with
      safety := { released := true, restarts := [4 * tickMs, 0] } }
    outcome (.tagTo (640 * tickMs) 23) s (fun u => (u.safety.flog.map (fun e => (e.w0, bitsOf e.w1 0 8)), u.dev, u.get SI.HOLD_CAUSE_CAUSE)) =
      some ([(0x01172002, 0x0C)], dsHold, 2) := by decide +kernel

/-! ### Further single commands -/

theorem test_identity : (base.readAt SYS.ID.addr).2 = 0x00230048 ∧
    outcome (.idcode 0) State.reset (fun u => u.outbox) = some [.tdo 0x1004856F] := by decide +kernel
theorem test_reset : outcome (.porstNLow late 10000) noon (fun u => (u.dev, u.mono, u.pins.faultN)) = some (dsDawn, 0, false) := by decide +kernel
theorem test_mono_keeps_time : outcome (.hbLost 5) { base with mono := 9 } (fun u => u.mono) = some 9 ∧
    outcome (.hbLost 9) { base with mono := 5 } (fun u => u.mono) = some 9 := by decide +kernel
theorem test_queue_order :
    (match step { base with pending := [.rngFail 5, .rngPass 6] } with
     | .next u => (u.pending, u.sec.rngBad)
     | _ => ([], false)) = ([.rngPass 6], true) := by decide +kernel
theorem test_not_owner : after (.goHold late .host1) (owned 0 noon) SYS.STATE_STATE = some dsNoon ∧
    after (.goHold late .host0) (owned 0 noon) SYS.STATE_STATE = some dsHold := by decide +kernel
theorem test_rail : after (.railCheck late 4 .under) noon SYS.STATE_STATE = some dsHold ∧ after (.railCheck late 4 .ok) noon SYS.STATE_STATE = some dsNoon := by
  decide +kernel
theorem test_monitor_answer : outcome (.monState late) (monitored lcProduction) (fun u => u.outbox.length) = some 1 ∧
    outcome (.monClaim late 3) (monitored lcProduction) (fun u => u.outbox) = some [.uart (monErr "DENIED")] := by
  decide +kernel
theorem test_gather :
    let s := ((tileWith gatherDesc).spdStore 1 0x4040 (List.replicate 64 9)).spdStore 1 0x8000 ([1, 0xFFFF, 1].flatMap (leBytes 2))
    (match s.gatherRows 1 (ent1 gatherDesc) with
     | .ok u => u.spdBytes 1 0xC000 192
     | _ => []) = List.replicate 64 9 ++ zeroBytes 64 ++ List.replicate 64 9 := by decide +kernel
/-- Rows (1, 2, 3, -1) and (4, 0, 0, 100) by columns (2, -2, 5, 7) and (1, 1, 1, 100): the third and fourth leave INT8 and
saturate, or wrap with SAT = 0 (R177, R180, R220). -/
def denseOut (sat : Bool) : Bytes :=
  let t (l : Bytes) : Tensor := { fmt := 1, data := l.toArray, scaleAt := 512 }
  let d := { chainD (chainDesc 1 2 4 2 noRef) with sat := sat }
  let z : Machine.Num := .fin false 0 0
  let v : ChainEnv := { sat := sat, sround := false, seed := 0, die := 0, n := 2, xs := [none, none, none], raws := [[], [], []], stats := fun _ => (z, z) }
  d.outBytes v 0 (d.product v (t [1, 2, 3, 0xFF, 4, 0, 0, 100]) (some (t [2, 0xFE, 5, 7, 1, 1, 1, 100])) none 2)
theorem test_dense_product : denseOut true = [6, 0xA2, 127, 127] ∧ denseOut false = [6, 0xA2, 0xC4, 0x14] := by decide +kernel

end Sys2Proof.Tests
end

section
/-! PROOFS. TB_MONO (R43): out of reset every command but PORST_N's own is the frame `run` at its own instant, and that frame leaves TB_MONO
there whatever the command's meaning does. -/

namespace Sys2Proof.Proofs

open Sys2Proof.Machine Sys2Proof.Laws

variable {s u : State}

/-! ### TB_MONO through the frame of every meaning -/

@[simp] theorem closeDue_mono (s : State) : s.closeDue.mono = s.mono := by
  unfold State.closeDue
  split <;> rfl

@[simp] theorem at_mono (s : State) (t : Nat) : (s.at_ t).mono = max s.mono t := by
  unfold State.at_
  split
  · exact clock_mono s t
  · split
    · rw [clock_mono, closeDue_mono]
    · exact clock_mono s t

/-- Out of reset the frame leaves TB_MONO at the command's instant, whatever the meaning `f` does to it. -/
theorem run_mono {t : Nat} {f : State → State} (hr : s.released = true) (h : run t f s = .next u) : u.mono = max s.mono t := by
  rw [run_released s hr] at h
  cases h
  rw [finish_mono, at_mono]

/-! ### Out of reset every command but PORST_N's own is the frame at its instant -/

/-- The answer `o` of a command from `s` is that of `run` at `t` with some meaning. -/
def FramedAt (t : Nat) (s : State) (o : Out) : Prop := ∃ f, o = run t f s

theorem framedAt_run {t : Nat} {f : State → State} : FramedAt t s (run t f s) := ⟨_, rfl⟩

theorem framedAt_softRun {t : Nat} {g : Fin 80} {x : Soft} {f : State → State} : FramedAt t s (softRun t g x f s) := ⟨_, rfl⟩

theorem framedAt_monLine {t : Nat} {f : State → Bytes × State} : FramedAt t s (monLine t f s) := ⟨_, rfl⟩

theorem framedAt_tap {t : Nat} {f : State → State} (hr : s.released = true) : FramedAt t s (tap t f s) := ⟨f, if_pos hr⟩

theorem framedAt_tapPins {t code : Nat} (hr : s.released = true) : FramedAt t s (tapPins t code s) := by
  unfold tapPins
  split
  · exact framedAt_run
  · exact framedAt_tap hr

theorem framedAt_jtagDebugAccess {t addr : Nat} {write : Option Word} (hr : s.released = true) :
    FramedAt t s (execJtagDebugAccess t addr write s) := by
  unfold execJtagDebugAccess
  split
  · exact framedAt_tap hr
  · exact framedAt_run

/-- The cases are grouped by the shared frame that the command's meaning is written in; each of those is `run` at its instant. -/
theorem framedAt_exec {c : Instr} (hr : s.released = true) (hlow : ∀ t n, c ≠ .porstNLow t n) (hrel : ∀ t b, c ≠ .porstNRelease t b) :
    FramedAt (instantOf c) s (exec c s) := by
  cases c <;> dsimp only [exec, instantOf]
  case porstNLow t n => exact absurd rfl (hlow t n)
  case porstNRelease t b => exact absurd rfl (hrel t b)
  case tapReset | bypass | idcode | samplePreload => exact framedAt_tap hr
  case extest | clamp | highz => exact framedAt_tapPins hr
  case jtagDebugAccess => exact framedAt_jtagDebugAccess hr
  case chainNone | chainDense | chainSparse | chainDenseSm | gather | moveLinear | moveStrided | moveTransposedInt8
      | moveTransposedFp16 | moveAllGather | moveReduceScatter | select | merge | maplookLookup | maplookUpdate | waitFull
      | waitEmpty | setFull | setEmpty | barrier | tagWaitSatisfied | wedgeAccept | wedgeDone | wedgeFptrWb | loop
      | ringArrival | windowWrite | columnEntryDrain | resultBlockDrain | mirrorLineSend =>
    exact framedAt_softRun
  case monHelp | monId | monState | monRd | monFlog | monRelease | monHandover | monWr | monPop | monTok | monTokEnd
      | monLock =>
    exact framedAt_monLine
  all_goals exact framedAt_run

/-! ### PORST_N -/

theorem atReset_mono (h : s.AtReset) : s.mono = 0 := congrArg State.mono h

theorem porstNLow_mono (t : Nat) {n : Nat} (hn : 10000 ≤ n) : Completes (.porstNLow t n) s (fun u => u.mono = 0) :=
  completes_next rfl (by simp [hn, State.reset])

/-- The boot ends in `finish`, so TB_MONO and the level of PORST_N are those that the release itself leaves. -/
theorem porstNRelease_of_low (t : Nat) (b : BootInput) (hr : s.released = false) :
    ∃ s0 v : State, exec (.porstNRelease t b) s = .next (s0.finish v) ∧ s0.mono = s.mono ∧ s0.released = true :=
  ⟨_, _, if_neg (by simp [hr]), rfl, rfl⟩

theorem porstNRelease_of_released (t : Nat) (b : BootInput) (hr : s.released = true) : exec (.porstNRelease t b) s = .next s := if_pos hr

theorem porstNRelease_mono (t : Nat) (b : BootInput) (hi : s.Inv) (hr : s.released = false) :
    Completes (.porstNRelease t b) s (fun u => u.mono = 0 ∧ u.released = true) := by
  obtain ⟨s0, v, he, hmono, hrel⟩ := porstNRelease_of_low t b hr
  have hzero : s0.mono = 0 := hmono.trans (atReset_mono (hi.2 hr))
  exact completes_next he ⟨hzero, hrel⟩

/-- Settles O56: out of reset a command is `run` at its instant, and `run` ends in `finish`, which restores the TB_MONO that `at_` gave;
the release finds 0 there because PORST_N low left it so. That TB_MONO keeps its value for a command whose operand is earlier is
assumption 1, and that PORST_N_RELEASE out of reset does nothing is assumption 92: the model's choices. -/
theorem monoRuns : Obligations.MonoRuns := by
  refine ⟨fun s t b => porstNRelease_mono t b, ?_, fun s t n b => ⟨porstNLow_mono t, porstNRelease_of_released t b⟩⟩
  intro c s u hr hlow hrel he
  obtain ⟨f, hf⟩ := framedAt_exec hr hlow hrel
  exact run_mono hr (hf.symm.trans he)

end Sys2Proof.Proofs
end

section
/-! PROOFS. HANG (R162): a tile whose count of cycles reaches 4·(B + S) raises TILE.EVT.HANG and C2. An event bit that its own report does
not write reads 1 after `raise`. -/

namespace Sys2Proof.Proofs

open Sys2Proof.Machine Sys2Proof.Laws

variable {s : State}

/-- An event bit reads 1 once raised, unless the report itself writes its register. -/
theorem raise_on_self (cls parts : Nat) (inj : Bool) {f : Fld} (hlo : f.lo + f.w ≤ 32) (hw : f.w = 1)
    (hf : f.addr ∉ reportRegs (f.addr / 4096)) : (s.raise f cls parts inj).on f = true := by
  have hset : (s.set1 f).on f = true := on_set1_self s f hlo hw
  rwa [State.on, State.get, State.raise, report_regsBut _ _ _ _ _ _ _ _ hf]

/-- A C2 leaves a restart due where nothing was due before it and the Fault Sequencer has not acted (R343, R355). -/
theorem raise_act_c2 (parts : Nat) (inj : Bool) {f : Fld} (hf : f.addr ≠ SI.FSQ_ACTED.addr) (hq : s.safety.act = 0)
    (hfsq : s.on SI.FSQ_ACTED = false) : (s.raise f 2 parts inj).safety.act = 2 := by
  simp [raise_act _ _ _ _ f hf, hfsq, hq]

/-- TILE.EVT is none of the registers that a report of the tile's page writes. -/
theorem evtHang_not_reportReg (g : Nat) : (TILE.EVT_HANG g).addr ∉ reportRegs ((TILE.EVT_HANG g).addr / 4096) := by
  simp only [reportRegs, TILE.EVT_HANG, SI.STAT, SI.EVT, PG.FAULT, List.mem_cons, List.not_mem_nil, or_false]
  omega

theorem evtHang_ne_fsq (g : Nat) : (TILE.EVT_HANG g).addr ≠ SI.FSQ_ACTED.addr := by
  simp only [TILE.EVT_HANG, SI.FSQ_ACTED]
  omega

/-- HANG's guard asks for the length of the count only, not for what the tile waits for. -/
theorem exec_hang_of_reached {t : Nat} {g : Fin 80} (hr : s.released = true) (hrun : (s.at_ t).tileRuns g = true)
    (hbusy : ((s.at_ t).tile g).busy = true) (hnew : ((s.at_ t).tile g).hangM = false)
    (hcount : 4 * (((s.at_ t).budget g).1 + ((s.at_ t).budget g).2) ≤ (s.at_ t).tileCount g) :
    exec (.hang t g) s = .next ((s.at_ t).finish
      (((s.at_ t).setTile g (fun x => { x with hangM := true })).raise (TILE.EVT_HANG g) 2 (2 ^ (s.at_ t).tilePart g))) := by
  have hdue : ((s.at_ t).tileRuns g && ((s.at_ t).tile g).busy && !((s.at_ t).tile g).hangM &&
      decide (4 * (((s.at_ t).budget g).1 + ((s.at_ t).budget g).2) ≤ (s.at_ t).tileCount g)) = true := by
    simp only [hrun, hbusy, hnew, hcount, decide_true, Bool.not_false, Bool.and_true]
  exact (run_released s hr).trans (congrArg (Host.Outcome.next ∘ (s.at_ t).finish) (if_pos hdue))

/-- Settles O57: HANG raises its event as C2 on the tile with the wedge marked; the mark `hangM`, which the guard wants unset, is what
keeps the report to one for the wedge. -/
theorem hangReported : Obligations.HangReported := by
  intro s t g ⟨hr, hq, hat⟩ z hrun hbusy hnew hcount r
  refine ⟨exec_hang_of_reached hr hrun hbusy hnew hcount, ?_, fun hfsq => ?_⟩
  · exact raise_on_self _ _ _ (by simp [TILE.EVT_HANG]) rfl (evtHang_not_reportReg g)
  · have hclock : z = s.clock t := hat
    exact raise_act_c2 _ _ (evtHang_ne_fsq g) (by simp [hclock, hq]) (by simp [hclock, hfsq])

end Sys2Proof.Proofs
end

section
/-! PROOFS. What the monitor may own in PRODUCTION (R321): its claim and a HANDOVER that names it turn on scope MON, which no part of taking a
line or a frame changes. -/

namespace Sys2Proof.Proofs

open Sys2Proof.Machine Sys2Proof.Laws

variable {s : State}

/-- In PRODUCTION scope MON alone decides. -/
theorem monMay_of_production (h : s.lifecycle = lcProduction) : s.monMay = s.scope 0 := by
  simp [State.monMay, State.openLife, h]

/-! ### Handover and claim -/

/-- The guard that `claim` and `handover` share lets master `m` through. -/
theorem notDenied {m : Nat} (hmay : m = 2 → s.monMay = true) : (decide (m = 2) && !s.monMay) = false := by
  by_cases hm : m = 2
  · simp [hmay hm]
  · simp [hm]

theorem handover_denied (howner : s.own.owner ≠ some 2) (hmay : s.monMay = false) : s.handover 2 = (frDenied, s) := by
  simp [State.handover, howner, hmay]

theorem handover_offered {m : Nat} (howner : s.own.owner ≠ some m) (hmay : m = 2 → s.monMay = true) :
    s.handover m = (frOk, s.ow (fun o => { o with offer := some (m, s.mono + 50 * tickMs) })) := by
  simp [State.handover, howner, notDenied hmay]

theorem leaseEnds_of_free (h : s.own.owner = none) : s.leaseEnds = s := by simp [State.leaseEnds, h]

theorem offerLapses_of_none (h : s.own.offer = none) : s.offerLapses = s := by simp [State.offerLapses, h]

/-- Where the device has no owner a claim is held for the election, whose window the first of them opens (R322 steps 1 and 2). -/
theorem claim_held {c : Claim} (at_ : Nat) (howner : s.own.owner = none) (hoffer : s.own.offer = none)
    (hmay : c.m = 2 → s.monMay = true) :
    s.claim c at_ = (.held, s.ow (fun o => { o with
      window := o.window.orElse (fun _ => some (s.mono + 10 * tickMs))
      claims := o.claims.filter (fun k => k.m ≠ c.m) ++ [c] })) := by
  simp [State.claim, leaseEnds_of_free howner, offerLapses_of_none hoffer, notDenied hmay, howner]

/-! ### The monitor's claim line -/

/-- The state in which a line of the monitor is read. -/
def lineRead (z : State) : State := z.sc (fun k => { k with lineAt := z.mono })

@[simp] theorem lineRead_monMay (z : State) : (lineRead z).monMay = z.monMay := rfl

theorem exec_monClaim (s : State) (t prio : Nat) : exec (.monClaim t prio) s =
    run t (fun s => s.when s.monRuns (fun s =>
      if !(lineRead s).monMay then (lineRead s).emit (.uart (monErr "DENIED"))
      else if 15 < prio then (lineRead s).emit (.uart (monErr "SYNTAX"))
      else (lineRead s).monClaim prio)) s := rfl

theorem exec_monClaim_denied {t : Nat} (prio : Nat) (hr : s.released = true) (hruns : (s.at_ t).monRuns = true)
    (hmay : (s.at_ t).monMay = false) :
    exec (.monClaim t prio) s = .next ((s.at_ t).finish ((lineRead (s.at_ t)).emit (.uart (monErr "DENIED")))) := by
  rw [exec_monClaim, run_released s hr]
  simp [State.when, hruns, hmay]

theorem exec_monClaim_taken {t prio : Nat} (hr : s.released = true) (hruns : (s.at_ t).monRuns = true)
    (hmay : (s.at_ t).monMay = true) (hprio : prio ≤ 15) :
    exec (.monClaim t prio) s = .next ((s.at_ t).finish ((lineRead (s.at_ t)).monClaim prio)) := by
  rw [exec_monClaim, run_released s hr]
  simp [State.when, hruns, hmay, Nat.not_lt.mpr hprio]

theorem monClaim_held (prio : Nat) (howner : s.own.owner = none) (hoffer : s.own.offer = none) (hmay : s.monMay = true) :
    s.monClaim prio = s.random.2.ow (fun o => { o with
      window := o.window.orElse (fun _ => some (s.random.2.mono + 10 * tickMs))
      claims := o.claims.filter (fun k => k.m ≠ 2) ++ [{ m := 2, prio := prio, nonce := s.random.1, req := none }] }) := by
  have hclaim := claim_held (s := s.random.2) (c := { m := 2, prio := prio, nonce := s.random.1, req := none }) s.random.2.mono
    howner hoffer (fun _ => hmay)
  simp only [State.monClaim, hclaim]

/-! ### A HANDOVER frame at the front of the queue -/

theorem erapNext_of_clean {f : ErapFrame} {q : List ErapFrame} (hq : s.erapQ = f :: q) (hbad : f.bad = 0)
    (hnew : s.replayOf f = none) : s.erapNext = s := by
  rw [State.erapNext, hq, State.flushBad, if_neg (by simp [hbad]), hnew, ← hq]

theorem onFront_of_clean {f : ErapFrame} {q : List ErapFrame} {kind : ErapFrame → Bool} (g : ErapFrame → State → State)
    (hq : s.erapQ = f :: q) (hbad : f.bad = 0) (hnew : s.replayOf f = none) (hkind : kind f = true) :
    s.onFront kind g = g f s := by
  simp [State.onFront, erapNext_of_clean hq hbad hnew, hq, hkind]

theorem owned_of_frameOwns {f : ErapFrame} (g : State → Nat × State) (h : (s.taken f).frameOwns f = true) :
    s.owned f g = (g (s.taken f)).2.answer f (g (s.taken f)).1 0 f.body := by
  simp [State.owned, h]

theorem owner_of_frameOwns {f : ErapFrame} (h : s.frameOwns f = true) : s.own.owner = some f.client := by
  simp only [State.frameOwns, Bool.and_eq_true, decide_eq_true_eq] at h
  obtain ⟨⟨_, howner⟩, _⟩ := h
  exact howner

/-- The frame `f` counted and remembered as its client's last, before its token is judged. -/
def countFrame (s : State) (f : ErapFrame) : State :=
  (({ s with erapQ := s.erapQ.drop 1 } : State).bump SYS.ERAP_RX_CNT).ow
    (fun o => { o with last := o.last.set f.client (some { seq := f.seq, at_ := f.arrived, resp := none }) })

/-- The token of a frame taken decides one count only. -/
theorem taken_cases (s : State) (f : ErapFrame) : s.taken f = countFrame s f ∨ s.taken f = (countFrame s f).bump SYS.TOKEN_CNT :=
  ite_eq_or_eq _ _ _

@[simp] theorem countFrame_mono (s : State) (f : ErapFrame) : (countFrame s f).mono = s.mono := by
  rw [countFrame, ow_mono, bump_mono]

@[simp] theorem countFrame_sec (s : State) (f : ErapFrame) : (countFrame s f).sec = s.sec := by
  rw [countFrame, ow_sec, bump_sec]

theorem bump_get_of_ne {f g : Fld} (h : g.addr ≠ f.addr) : (s.bump f).get g = s.get g := get_put_of_ne s h _

theorem countFrame_get {f : ErapFrame} {g : Fld} (h : g.addr ≠ SYS.ERAP_RX_CNT.addr) : (countFrame s f).get g = s.get g := by
  rw [countFrame, ow_get, bump_get_of_ne h]
  rfl

@[simp] theorem taken_mono (f : ErapFrame) : (s.taken f).mono = s.mono := by
  obtain h | h := taken_cases s f <;> simp [h]

@[simp] theorem taken_sec (f : ErapFrame) : (s.taken f).sec = s.sec := by
  obtain h | h := taken_cases s f <;> simp [h]

/-- A frame taken writes its two counters only. -/
theorem taken_get {f : ErapFrame} {g : Fld} (hrx : g.addr ≠ SYS.ERAP_RX_CNT.addr) (htok : g.addr ≠ SYS.TOKEN_CNT.addr) :
    (s.taken f).get g = s.get g := by
  obtain h | h := taken_cases s f
  · rw [h, countFrame_get hrx]
  · rw [h, bump_get_of_ne htok, countFrame_get hrx]

theorem taken_monMay (f : ErapFrame) : (s.taken f).monMay = s.monMay := by
  have hlife : (s.taken f).lifecycle = s.lifecycle := taken_get (by decide) (by decide)
  have hscope : (s.taken f).get SEC.DBG_SCOPE = s.get SEC.DBG_SCOPE := taken_get (by decide) (by decide)
  simp [State.monMay, State.openLife, State.scope, hlife, hscope]

theorem exec_handover (s : State) (t : Nat) : exec (.handover t) s =
    run t (fun s => s.onFront (fun x => x.type = 5) (fun x s => s.owned x (fun s => s.handover (fieldB x.body 0 1)))) s := rfl

theorem exec_handover_denied {t : Nat} {f : ErapFrame} {q : List ErapFrame} (hr : s.released = true) (hq : (s.at_ t).erapQ = f :: q)
    (hbad : f.bad = 0) (hnew : (s.at_ t).replayOf f = none) (htype : f.type = 5) (hnames : fieldB f.body 0 1 = 2)
    (howns : ((s.at_ t).taken f).frameOwns f = true) (hclient : f.client < 2) (hmay : (s.at_ t).monMay = false) :
    exec (.handover t) s = .next ((s.at_ t).finish (((s.at_ t).taken f).answer f frDenied 0 f.body)) := by
  have howner : ((s.at_ t).taken f).own.owner ≠ some 2 := by
    rw [owner_of_frameOwns howns]
    simp only [ne_eq, Option.some.injEq]
    omega
  have hdenied := handover_denied howner ((taken_monMay f).trans hmay)
  rw [exec_handover, run_released s hr, onFront_of_clean _ hq hbad hnew (decide_eq_true htype), owned_of_frameOwns _ howns,
    hnames, hdenied]

/-- Settles O59: in PRODUCTION `monMay` is scope MON, and the monitor's claim line, a claim and a handover each turn on `monMay`, which the
frame's own bookkeeping leaves as it was. -/
theorem monitorMayOwn : Obligations.MonitorMayOwn := by
  intro s t ⟨hr, _, hat⟩ hlife z x
  have hz : z = s.clock t := hat
  have hown : z.own = s.own := by rw [hz, clock_own]
  have hruns : z.monRuns = s.monRuns := by simp only [hz, State.monRuns, State.siRuns, clock_sec, clock_on]
  have hscope : z.monMay = z.scope 0 := monMay_of_production ((congrArg State.lifecycle hz).trans hlife)
  refine ⟨fun hclosed => ?_, fun hopen => ?_⟩
  · have hmay : z.monMay = false := hscope.trans hclosed
    refine ⟨fun hm prio => exec_monClaim_denied prio hr (hruns.trans hm) hmay, fun ho => handover_denied (hown ▸ ho) hmay, ?_⟩
    intro f q hq hbad hnew htype hnames howns hclient
    exact exec_handover_denied hr ((congrArg State.erapQ hz).trans hq) hbad hnew htype hnames howns hclient hmay
  · have hmay : z.monMay = true := hscope.trans hopen
    refine ⟨fun hm howner hoffer prio hprio => ?_, fun ho => handover_offered (hown ▸ ho) fun _ => hmay⟩
    rw [exec_monClaim_taken hr (hruns.trans hm) hmay hprio]
    have hheld := monClaim_held (s := lineRead z) prio (hown ▸ howner) (hown ▸ hoffer) hmay
    exact congrArg (Host.Outcome.next ∘ z.finish) hheld

end Sys2Proof.Proofs
end

section
/-! PROOFS. The restart limit (R348). Entering Hold and Midnight writes many registers; of what R348 speaks about they write the device
state and SI.HOLD_CAUSE at one place each, and the list of restarts nowhere: `ModeKept` says so of every other part of the two entries. -/

namespace Sys2Proof.Proofs

open Sys2Proof.Machine Sys2Proof.Laws

variable {s u v : State}

/-! ### What keeps the device state, the cause of Hold and the restarts -/

/-- The registers that hold the device state and the cause of Hold. -/
def modeRegs : List Nat := [SYS.STATE.addr, SI.HOLD_CAUSE.addr]

/-- From `s` to `u` the device state, the cause of Hold and the list of restarts stay. -/
structure ModeKept (s u : State) : Prop where
  reg : ∀ a ∈ modeRegs, u.reg a = s.reg a
  restarts : u.safety.restarts = s.safety.restarts

namespace ModeKept

theorem refl (s : State) : ModeKept s s := ⟨fun _ _ => rfl, rfl⟩

theorem trans (h : ModeKept s u) (h' : ModeKept u v) : ModeKept s v :=
  ⟨fun a ha => (h'.reg a ha).trans (h.reg a ha), h'.restarts.trans h.restarts⟩

theorem dev (h : ModeKept s u) : u.dev = s.dev :=
  congrArg (bitsOf · SYS.STATE_STATE.lo SYS.STATE_STATE.w) (h.reg SYS.STATE.addr (by decide))

theorem cause (h : ModeKept s u) : u.get SI.HOLD_CAUSE_CAUSE = s.get SI.HOLD_CAUSE_CAUSE :=
  congrArg (bitsOf · SI.HOLD_CAUSE_CAUSE.lo SI.HOLD_CAUSE_CAUSE.w) (h.reg SI.HOLD_CAUSE.addr (by decide))

/-! The updates are stated for a state `u` already reached, so that a proof reads in the order of the definition, last update first. -/

theorem setReg {a x : Nat} (h : ModeKept s u) (ha : a ∉ modeRegs) : ModeKept s (u.setReg a x) :=
  h.trans ⟨fun _ hb => reg_setReg_of_ne u (ne_of_mem_of_not_mem hb ha) x, rfl⟩

/-- A write to another register; that it is another one is decided where its address is a numeral. -/
theorem put {f : Fld} {x : Nat} (h : ModeKept s u) (hf : f.addr ∉ modeRegs := by decide) : ModeKept s (u.put f x) := h.setReg hf

theorem set1 {f : Fld} (h : ModeKept s u) (hf : f.addr ∉ modeRegs := by decide) : ModeKept s (u.set1 f) :=
  h.trans ⟨fun a ha => (set1_reg u f a).trans ((put (.refl u) hf).reg a ha), by rw [set1_safety]⟩

theorem clr {f : Fld} (h : ModeKept s u) (hf : f.addr ∉ modeRegs := by decide) : ModeKept s (u.clr f) := h.put hf

theorem foldl {α : Type} {l : List α} {f : State → α → State} (h : ModeKept s u)
    (hf : ∀ w, ∀ x ∈ l, ModeKept w (f w x)) : ModeKept s (l.foldl f u) :=
  List.foldlRecOn l f h fun w hw x hx => hw.trans (hf w x hx)

theorem ite {c : Prop} [Decidable c] (hu : c → ModeKept s u) (hv : ¬ c → ModeKept s v) : ModeKept s (if c then u else v) := by
  split
  · exact hu ‹_›
  · exact hv ‹_›

/-- An update of parts that hold neither registers nor the restarts. -/
theorem parts {ti : TimeSt} {tr : List Tracker} {he : List HeadSt} {vh : List VhuSt} {we : List WedgeSt} {pi : PipeSt}
    {tl : List TileSt} {ma : MapSt} {ou : OutSt} {ag : AgeSt} {pl : PlkSt} {pn : Pins} (h : ModeKept s u) :
    ModeKept s { u with time := ti, trackers := tr, heads := he, vhu := vh, wedges := we, pipe := pi, tiles := tl, map := ma, out := ou,
                        age := ag, plk := pl, pins := pn } :=
  h.trans ⟨fun _ _ => rfl, rfl⟩

end ModeKept

theorem not_mem_modeRegs {a : Nat} : a ∉ modeRegs ↔ a ≠ 0x000048 ∧ a ≠ 0x039068 := by simp [modeRegs, SYS.STATE, SI.HOLD_CAUSE]

/-- A register of a page array, by its offset: neither that of the device state nor that of the cause of Hold. -/
theorem pageReg_not_mode {p o : Nat} (h : o < 4096 ∧ o ≠ 0x048 ∧ o ≠ 0x068 := by decide) : p * 4096 + o ∉ modeRegs := by
  rw [not_mem_modeRegs]
  omega

/-! ### The parts that both entries share -/

theorem outStat_modeKept (s : State) : ModeKept s s.outStat := .put (.put (.refl s))

theorem vhuBuildStopped_modeKept (s : State) (i : Nat) : ModeKept s (s.put (VHU.STAT_BUILD i) 0) :=
  .put (.refl s) pageReg_not_mode

theorem stopTiles_modeKept (s : State) : ModeKept s s.stopTiles :=
  .parts (.put (.parts (.foldl (.parts (.refl s)) fun w i _ => vhuBuildStopped_modeKept w i)))

theorem tgeStat_modeKept (s : State) : ModeKept s s.tgeStat :=
  .foldl (.refl s) fun w i _ =>
    .put (.put (.refl w) pageReg_not_mode) pageReg_not_mode

/-! ### Entry to Midnight -/

theorem flushOutput_modeKept (s : State) : ModeKept s s.flushOutput :=
  .trans (.parts (.put (.refl s))) (outStat_modeKept _)

theorem faultN_modeKept (s : State) : ModeKept s s.faultN := .parts (.refl s)

theorem latMode_modeKept (s : State) : ModeKept s s.latMode :=
  .foldl (.refl s) fun w g _ => .ite (fun _ => .refl w) fun _ =>
    .put (.refl w) pageReg_not_mode

theorem vhuOcc_modeKept (s : State) (i : Nat) : ModeKept s (s.vhuOcc i) := by
  have hstat : (VHU.STAT_STASH_PRESS i).addr ∉ modeRegs := pageReg_not_mode
  have hevt : (VHU.EVT_STASH_PRESS i).addr ∉ modeRegs := by rw [not_mem_modeRegs]; simp only [VHU.EVT_STASH_PRESS]; omega
  have hocc (x y : Nat) : ModeKept s ((s.put (VHU.OCC_SLOTS i) x).put (VHU.STASH_OCC_ENTRIES i) y) :=
    .put (.put (.refl s) pageReg_not_mode) pageReg_not_mode
  exact .ite (fun _ => .set1 (.set1 (hocc _ _) hstat) hevt) fun _ => .ite (fun _ => .put (hocc _ _) hstat) fun _ => hocc _ _

theorem clearVoxels_modeKept (s : State) : ModeKept s s.clearVoxels :=
  .foldl (.refl s) fun w i _ => .trans (.parts (.refl w)) (vhuOcc_modeKept _ i)

theorem updatesLost_modeKept (s : State) (i n : Nat) : ModeKept s (s.addCnt (TGE.UPD_DISC_CNT i) n) :=
  .put (.refl s) pageReg_not_mode

theorem discardMap_modeKept (s : State) : ModeKept s s.discardMap :=
  .trans (.parts (.put (.foldl (.refl s) fun w i _ => updatesLost_modeKept w i _))) (tgeStat_modeKept _)

/-- The last update of the entry writes the safety state, of which the restarts stay. -/
theorem midnightMarked_modeKept (x : State) :
    ModeKept x { x with
      pipe := { x.pipe with restartSweep := some x.rev.sweep }
      safety := { x.safety with refilled := false, noonEntry := false } } := ⟨fun _ _ => rfl, rfl⟩

/-- Between the two parts of the entry is its one write of the device state. -/
theorem enterMidnight_parts (s : State) : ∃ x, ModeKept s x ∧ ModeKept (x.setDev dsMidnight) s.enterMidnight :=
  ⟨_, .put ((flushOutput_modeKept s).trans (stopTiles_modeKept _)),
    ((((faultN_modeKept _).trans (latMode_modeKept _)).trans (clearVoxels_modeKept _)).trans (discardMap_modeKept _)).trans
      (midnightMarked_modeKept _)⟩

/-! ### Entry to Hold -/

theorem find_filter_of_pos {α : Type} {k : Nat} {p : Nat × α → Bool} (hp : ∀ x, p (k, x) = true) (m : List (Nat × α)) :
    find k (m.filter p) = find k m := by
  induction m with
  | nil => rfl
  | cons e m ih =>
    obtain ⟨j, x⟩ := e
    by_cases hj : j = k
    · subst hj
      simp [hp, find]
    · by_cases hx : p (j, x) = true <;> simp [hx, find, hj, ih]

/-- The registers of the tiles' pages are lost; the device state and the cause of Hold stand below them. -/
theorem tilePagesLost_modeKept (x : State) (tl : List TileSt) :
    ModeKept x { x with
      regs := x.regs.filter (fun e => e.1 < 0x100000), shadow := x.shadow.filter (fun e => e.1 < 0x100000)
      spd := [], tags := [], tiles := tl } := by
  refine ⟨fun a ha => ?_, rfl⟩
  have hlow : a < 0x100000 := by
    simp only [modeRegs, SYS.STATE, SI.HOLD_CAUSE, List.mem_cons, List.not_mem_nil, or_false] at ha
    omega
  have hfind := find_filter_of_pos (k := a) (p := fun e => decide (e.1 < 0x100000)) (fun _ => decide_eq_true hlow) x.regs
  exact congrArg (fun w => (w.getD (x.dflt a)).toNat) hfind

theorem tilesOff_modeKept (s : State) : ModeKept s s.tilesOff := .trans (.put (stopTiles_modeKept s)) (tilePagesLost_modeKept _ _)

theorem clearMasks_modeKept (s : State) : ModeKept s s.clearMasks := .parts (.refl s)

theorem closeExpects_modeKept (s : State) : ModeKept s s.closeExpects := .parts (.refl s)

theorem headsStopped_modeKept (s : State) : ModeKept s s.headsStopped := by
  refine .foldl (.refl s) fun w h hh => ?_
  have h8 : h < 8 := List.mem_range.1 hh
  have hat : (AT.STAT_STATE h).addr ∉ modeRegs := by rw [not_mem_modeRegs]; simp only [AT.STAT_STATE]; omega
  have hstat : (HP.STAT_LINK h).addr ∉ modeRegs := pageReg_not_mode
  have hevt : (HP.EVT_LINK_DOWN h).addr ∉ modeRegs := by rw [not_mem_modeRegs]; simp only [HP.EVT_LINK_DOWN]; omega
  have hlink : ModeKept w (if w.on (HP.STAT_LINK h) then (w.put (HP.STAT_LINK h) 0).set1 (HP.EVT_LINK_DOWN h) else w) :=
    .ite (fun _ => .set1 (.put (.refl w) hstat) hevt) fun _ => .refl w
  exact .parts (.parts (.put (.put (.put (.put hlink hstat) pageReg_not_mode) hstat) hat))

theorem linkStopped_modeKept (s : State) : ModeKept s s.linkStopped :=
  .parts (.put (.parts (.put (.put (.put (.refl s))))))

theorem badRowsLost_modeKept (s : State) (i : Nat) :
    ModeKept s ((List.range 16).foldl (fun s j => s.setReg (TGE.BADROW_KEY i j).addr 0) s) :=
  .foldl (.refl s) fun w j hj => .setReg (.refl w) (by
    have h16 : j < 16 := List.mem_range.1 hj
    rw [not_mem_modeRegs]; simp only [TGE.BADROW_KEY]; omega)

theorem loseMap_modeKept (s : State) : ModeKept s s.loseMap := by
  refine .trans (.parts (.foldl (.put (.put (.put (.put (.put (.refl s)))))) fun w i _ => ?_)) (tgeStat_modeKept _)
  have hcache : (TGE.CACHE_OCC_ENTRIES i).addr ∉ modeRegs := by rw [not_mem_modeRegs]; simp only [TGE.CACHE_OCC_ENTRIES]; omega
  have hstat : (TGE.STAT_OUTST i).addr ∉ modeRegs := pageReg_not_mode
  exact .put (.put (.put (.put (.put (badRowsLost_modeKept w i) hcache) pageReg_not_mode) hstat) hstat) hstat

theorem stepVeh_modeKept (s : State) (d : Int) : ModeKept s (s.stepVeh d) := .set1 (.clr (.put (.parts (.refl s))))

theorem commitSteps_modeKept (s : State) : ModeKept s s.commitSteps := by
  unfold State.commitSteps
  split
  · exact stepVeh_modeKept s _
  · refine .ite (fun _ => .refl s) fun _ => .ite (fun _ => ?_) fun _ => .set1 (.clr (.refl s))
    split
    · exact .clr (.refl s)
    · exact stepVeh_modeKept s _

/-- The last update of the entry, of which again the restarts stay. -/
theorem holdMarked_modeKept (x : State) :
    ModeKept x { x with
      shadow := [], pipe := {}, ms := { x.ms with run := [] }, wedges := List.replicate 64 {}, sec := { x.sec with waits := none }
      pins := { x.pins with faultN := false, hbOut := false, cmpPwrEn := false, rstOut := false }
      safety := { x.safety with holdAt := some x.mono, noonEntry := false, survive := false } } := ⟨fun _ _ => rfl, rfl⟩

theorem holdStopped_modeKept (s : State) : ModeKept s s.headsStopped.linkStopped.loseMap.commitSteps :=
  (((headsStopped_modeKept s).trans (linkStopped_modeKept _)).trans (loseMap_modeKept _)).trans (commitSteps_modeKept _)

theorem vcmpOff_modeKept (s : State) (d : Nat) : ModeKept s (s.put (PM.VCMP_EN d) 0) :=
  .put (.refl s) (by rw [not_mem_modeRegs]; simp only [PM.VCMP_EN]; omega)

/-- A device not in Hold: the cause is written first, the device state once after it. -/
theorem enterHold_parts {c : Nat} (h : s.dev ≠ dsHold) :
    ∃ x, ModeKept (s.put SI.HOLD_CAUSE_CAUSE c) x ∧ ModeKept (x.setDev dsHold) (s.enterHold c) := by
  rw [State.enterHold, if_neg h]
  exact ⟨_, (((ModeKept.trans (.parts (.set1 (.refl _))) (outStat_modeKept _)).trans (closeExpects_modeKept _)).trans
    (tilesOff_modeKept _)).trans (clearMasks_modeKept _),
    .trans (.foldl (.put (.put (holdStopped_modeKept _))) fun w d _ => vcmpOff_modeKept w d) (holdMarked_modeKept _)⟩

/-! ### Setting the device state -/

theorem setDev_safety (s : State) (d : Nat) : (s.setDev d).safety = s.safety := by
  unfold State.setDev
  split
  · rfl
  · simp only [set1_safety, put_safety]

/-- A device state is a number of three bits. -/
theorem setDev_dev (s : State) {d : Nat} (hd : d < 8) : (s.setDev d).dev = d := by
  unfold State.setDev
  split
  case isTrue h => exact h
  case isFalse =>
    rw [State.dev, State.get, set1_reg, reg_put_of_ne _ (by decide)]
    exact (get_put_self _ _ _ (by decide)).trans (Nat.mod_eq_of_lt hd)

theorem setDev_cause (s : State) (d : Nat) : (s.setDev d).get SI.HOLD_CAUSE_CAUSE = s.get SI.HOLD_CAUSE_CAUSE := by
  unfold State.setDev
  split
  · rfl
  · rw [State.get, set1_reg, reg_put_of_ne _ (by decide), reg_put_of_ne _ (by decide), reg_put_of_ne _ (by decide)]
    rfl

/-- A change of the device state with nothing else of the mode before it and after it. -/
theorem mode_of_setDev {d : Nat} (hd : d < 8) (hu : ModeKept s u) (hv : ModeKept (u.setDev d) v) :
    v.dev = d ∧ v.get SI.HOLD_CAUSE_CAUSE = s.get SI.HOLD_CAUSE_CAUSE ∧ v.safety.restarts = s.safety.restarts := by
  refine ⟨hv.dev.trans (setDev_dev u hd), hv.cause.trans ((setDev_cause u d).trans hu.cause), hv.restarts.trans ?_⟩
  rw [setDev_safety, hu.restarts]

theorem enterMidnight_mode (s : State) : s.enterMidnight.dev = dsMidnight ∧ s.enterMidnight.safety.restarts = s.safety.restarts := by
  obtain ⟨x, hbefore, hafter⟩ := enterMidnight_parts s
  obtain ⟨hdev, -, hrestarts⟩ := mode_of_setDev (by decide) hbefore hafter
  exact ⟨hdev, hrestarts⟩

theorem enterHold_mode {c : Nat} (h : s.dev ≠ dsHold) (hc : c < 4) :
    (s.enterHold c).dev = dsHold ∧ (s.enterHold c).get SI.HOLD_CAUSE_CAUSE = c ∧
      (s.enterHold c).safety.restarts = s.safety.restarts := by
  obtain ⟨x, hbefore, hafter⟩ := enterHold_parts (c := c) h
  obtain ⟨hdev, hcause, hrestarts⟩ := mode_of_setDev (by decide) hbefore hafter
  have hput : (s.put SI.HOLD_CAUSE_CAUSE c).get SI.HOLD_CAUSE_CAUSE = c :=
    (get_put_self s _ c (by decide)).trans (Nat.mod_eq_of_lt hc)
  exact ⟨hdev, hcause.trans hput, hrestarts⟩

/-! ### The restart limit -/

theorem mem_recentRestarts (s : State) (r : Nat) :
    r ∈ s.recentRestarts ↔ r ∈ s.safety.restarts ∧ s.mono < r + 1000 * tickMs := by simp [State.recentRestarts]

theorem readReg_siStat (s : State) : s.readReg SI.STAT.addr = s.siStat := rfl

/-- RST_WIN is the count, and HANDLING, written over it, stands apart from it. -/
theorem siStat_rstWin (s : State) : bitsOf s.siStat 16 2 = min 3 s.recentRestarts.length := by
  rw [State.siStat, bitsOf_withBits_of_disjoint (by decide), bitsOf_withBits_self]
  omega

theorem restart_at_limit (hdev : s.dev ≠ dsHold) (h : 2 ≤ s.recentRestarts.length) :
    s.restart.dev = dsHold ∧ s.restart.get SI.HOLD_CAUSE_CAUSE = 2 ∧ s.restart.safety.restarts = s.safety.restarts := by
  rw [State.restart, if_pos h]
  exact enterHold_mode hdev (by decide)

theorem restart_below_limit (h : s.recentRestarts.length < 2) :
    s.restart.dev = dsMidnight ∧ s.restart.safety.restarts = s.mono :: s.recentRestarts := by
  rw [State.restart, if_neg (Nat.not_le.2 h)]
  obtain ⟨hdev, hrestarts⟩ := enterMidnight_mode ((State.set1 { s with safety :=
    { s.safety with restarts := s.mono :: s.recentRestarts, handling := true } } SI.EVT_RESTART).bump SI.RST_CNT)
  exact ⟨hdev, hrestarts.trans (by rw [bump_safety, set1_safety])⟩

/-- The due action taken off, as `settle` begins. -/
def actTaken (s : State) : State := { s with safety := { s.safety with act := 0, holdCause := 1 } }

theorem dev_ne_hold (hdev : s.dev = dsNoon ∨ s.dev = dsMidnight) : s.dev ≠ dsHold := by
  rcases hdev with h | h <;> rw [h] <;> decide

/-- A C2 due in Noon or Midnight restarts, unless a restart has started at this instant. -/
theorem settle_of_c2 (hact : s.safety.act = 2) (hdev : s.dev = dsNoon ∨ s.dev = dsMidnight)
    (hnew : s.safety.restarts.head? ≠ some s.mono) : s.settle = (actTaken s).restart := by
  have hdue : ¬ s.safety.act = 0 := by omega
  have hfresh : ¬ (decide (s.safety.act = 2) && decide (s.safety.restarts.head? = some s.mono)) = true := by simp [hnew]
  have hc3 : ¬ s.safety.act = 3 := by omega
  have hserves : (decide (s.dev = dsNoon) || decide (s.dev = dsMidnight)) = true := by simpa using hdev
  exact (if_neg hdue).trans <| (if_neg (dev_ne_hold hdev)).trans <| (if_neg hfresh).trans <| (if_neg hc3).trans (if_pos hserves)

/-- Settles O58: a C2 in Noon or Midnight is `restart`, whose two branches are the entry to Hold, with cause 2, and the entry to
Midnight; each entry leaves the list of restarts as `restart` left it. That a C2 of the instant of a restart belongs to that restart, which the
hypothesis on the newest restart leaves out, is assumption 116: the model's reading of R344 and R348. -/
theorem restartLimit : Obligations.RestartLimit := by
  intro s
  refine ⟨mem_recentRestarts s, (congrArg (bitsOf · 16 2) (readReg_siStat s)).trans (siStat_rstWin s), fun hact hdev hnew => ?_⟩
  have hhold : (actTaken s).dev ≠ dsHold := dev_ne_hold hdev
  rw [settle_of_c2 hact hdev hnew]
  exact ⟨fun h => restart_at_limit hhold h, fun h => restart_below_limit h⟩

end Sys2Proof.Proofs
end

section
/-! PROOFS. The first fault of a cycle (R344, R345): where the log has room its entry stands last, with its class in the lowest two bits. -/

namespace Sys2Proof.Proofs

open Sys2Proof.Machine Sys2Proof.Laws

variable {s : State}

@[simp] theorem putMax_safety (s : State) (f : Fld) (v : Nat) : (s.putMax f v).safety = s.safety := by
  unfold State.putMax
  split <;> rfl

@[simp] theorem pgFault_safety (s : State) (page cls : Nat) : (s.pgFault page cls).safety = s.safety := by
  rw [State.pgFault, addCnt_safety, set1_safety, putMax_safety]

@[simp] theorem due_flog (s : State) (cls cause : Nat) : (s.due cls cause).safety.flog = s.safety.flog := by
  unfold State.due
  split <;> rfl

theorem report_flog_first {cls : Nat} (page event parts admNo : Nat) (inj : Bool) (hcls : cls < 4) (hfsq : s.on SI.FSQ_ACTED = false)
    (hnow : s.safety.now.at_ ≠ some s.mono) (hroom : s.safety.flog.length < 16) :
    ∃ e, (s.report cls page event parts admNo inj).safety.flog = s.safety.flog ++ [e] ∧ bitsOf e.w0 0 2 = cls := by
  have hlow (a b c d : Nat) : bitsOf (cls + a * 4 + b * 8 + c * 256 + d * 65536) 0 2 = cls := by
    simp only [bitsOf, Nat.shiftRight_zero]
    omega
  simp only [State.report, hfsq, cycleFaults_fresh s hnow, insFault, flog_one _ _ _ _ hroom, Bool.false_eq_true, if_false, due_flog,
    pgFault_safety, set1If_safety, putMax_safety, put_safety]
  exact ⟨_, rfl, hlow _ _ _ _⟩

theorem raise_flog_first {cls : Nat} (parts : Nat) (inj : Bool) {f : Fld} (hf : f.addr ≠ SI.FSQ_ACTED.addr) (hcls : cls < 4)
    (hfsq : s.on SI.FSQ_ACTED = false) (hnow : s.safety.now.at_ ≠ some s.mono) (hroom : s.safety.flog.length < 16) :
    ∃ e, (s.raise f cls parts inj).safety.flog = s.safety.flog ++ [e] ∧ bitsOf e.w0 0 2 = cls := by
  have hacted : (s.set1 f).on SI.FSQ_ACTED = false := by
    rwa [State.on, State.get, set1_reg, reg_put_of_ne s hf.symm]
  have hlog := report_flog_first (f.addr / 4096) f.irqBit parts (s.admitOf (f.addr / 4096)) inj hcls hacted
    (by simpa only [set1_safety, set1_mono] using hnow) (by simpa only [set1_safety] using hroom)
  rwa [set1_safety] at hlog

end Sys2Proof.Proofs
end

section
/-! PROOFS. The random source (R414): while it is stopped each of its consumers leaves the state as it is, or joins the waiting commands of
the monitor; as it passes again these are served, and none of them waits once more. -/

namespace Sys2Proof.Proofs

open Sys2Proof.Machine Sys2Proof.Laws

variable {s : State}

/-! ### Consumers that find the source stopped -/

theorem sendChallenge_of_stopped (h : Fin 8) (retry : Bool) (hbad : s.rngOk = false) : s.sendChallenge h retry = s := by
  unfold State.sendChallenge
  split
  · rfl
  · exact if_pos (by simp [hbad])

theorem electionCloses_of_stopped (ok lost : Bytes) (hbad : s.rngOk = false) : s.electionCloses ok lost = s := by
  unfold State.electionCloses
  split
  · rfl
  · exact if_pos (by simp [hbad])

/-- A command whose meaning leaves the state at its instant as it is only takes the instant. -/
theorem exec_of_same {c : Instr} {t : Nat} {f : State → State} (he : exec c s = run t f s) (hr : s.released = true)
    (h : f (s.at_ t) = s.at_ t) : exec c s = .next ((s.at_ t).finish (s.at_ t)) := by
  rw [he, run_released s hr, h]

theorem exec_electionClose_stopped {t : Nat} (hr : s.released = true) (hbad : (s.at_ t).rngOk = false) :
    exec (.electionClose t) s = .next ((s.at_ t).finish (s.at_ t)) :=
  exec_of_same (f := fun z => z.electionCloses _ _) rfl hr (electionCloses_of_stopped _ _ hbad)

theorem exec_challengeSend_stopped {t : Nat} (h : Fin 8) (hr : s.released = true) (hbad : (s.at_ t).rngOk = false) :
    exec (.challengeSend t h) s = .next ((s.at_ t).finish (s.at_ t)) :=
  exec_of_same rfl hr (by simp only [sendChallenge_of_stopped h _ hbad, ite_self])

theorem exec_rechallengePeriod_stopped {t : Nat} (h : Fin 8) (hr : s.released = true) (hbad : (s.at_ t).rngOk = false) :
    exec (.rechallengePeriod t h) s = .next ((s.at_ t).finish (s.at_ t)) :=
  exec_of_same rfl hr (by simp only [sendChallenge_of_stopped h _ hbad, ite_self])

theorem exec_attDone_stopped {t : Nat} (fw img sig : Bytes) (hr : s.released = true) (hbad : (s.at_ t).rngOk = false) :
    exec (.attDone t fw img sig) s = .next ((s.at_ t).finish (s.at_ t)) :=
  exec_of_same rfl hr (if_neg (by simp [hbad]))

/-! ### A claim of the master that holds an offer of handover -/

theorem leaseEnds_of_running (h : s.mono < s.own.leaseEnd) : s.leaseEnds = s := by simp [State.leaseEnds, Nat.not_le.mpr h]

theorem offerLapses_of_open {m e : Nat} (hoffer : s.own.offer = some (m, e)) (h : s.mono < e) : s.offerLapses = s := by
  simp [State.offerLapses, hoffer, Nat.not_le.mpr h]

/-- The token that accepts a handover needs the random source (R322, R324). -/
theorem claim_waits {c : Claim} {o e : Nat} (at_ : Nat) (hbad : s.rngOk = false) (hmay : c.m = 2 → s.monMay = true)
    (howner : s.own.owner = some o) (hother : o ≠ c.m) (hlease : s.mono < s.own.leaseEnd) (hoffer : s.own.offer = some (c.m, e))
    (hopen : s.mono < e) : s.claim c at_ = (.waits, s) := by
  simp [State.claim, leaseEnds_of_running hlease, offerLapses_of_open hoffer hopen, notDenied hmay, howner, hother, hoffer, hbad]

/-! ### The monitor's `unlock` -/

theorem exec_monUnlock (s : State) (t : Nat) : exec (.monUnlock t) s =
    run t (fun s => s.when s.monRuns (fun s =>
      if (lineRead s).rngOk then (lineRead s).monNonce
      else (lineRead s).sc (fun k => { k with monWait := k.monWait ++ [none] }))) s := rfl

theorem exec_monUnlock_stopped {t : Nat} (hr : s.released = true) (hruns : (s.at_ t).monRuns = true) (hbad : (s.at_ t).rngOk = false) :
    exec (.monUnlock t) s = .next ((s.at_ t).finish
      ((s.at_ t).sc (fun k => { k with lineAt := (s.at_ t).mono, monWait := k.monWait ++ [none] }))) := by
  have hline : (lineRead (s.at_ t)).rngOk = false := hbad
  rw [exec_monUnlock, run_released s hr, State.when, if_pos hruns, if_neg (by simp [hline])]
  rfl

/-! ### The source passes again -/

/-- The random source serves, no command of the monitor waits for it, and no fault action is due. -/
def Served (s : State) : Prop := s.rngOk = true ∧ s.sec.monWait = [] ∧ s.safety.act = 0

/-- `Served` reads nothing but the security state's two parts and the due action. -/
theorem Served.of_eq {u : State} (h : Served s) (hbad : u.sec.rngBad = s.sec.rngBad) (hwait : u.sec.monWait = s.sec.monWait)
    (hact : u.safety.act = s.safety.act) : Served u := by
  obtain ⟨hok, hw, ha⟩ := h
  exact ⟨by rwa [State.rngOk, hbad], hwait.trans hw, hact.trans ha⟩

theorem Served.sameParts {u : State} (h : Served s) (hsec : u.sec = s.sec) (hsafe : u.safety = s.safety) : Served u :=
  h.of_eq (by rw [hsec]) (by rw [hsec]) (by rw [hsafe])

theorem Served.randoms (h : Served s) (n : Nat) : Served (s.randoms n).2 := by
  induction n generalizing s with
  | zero => exact h
  | succ n ih => exact ih (s := s.random.2) (h.sameParts rfl rfl)

theorem Served.monNonce (h : Served s) : Served s.monNonce := (h.randoms 8).of_eq rfl rfl rfl

theorem Served.leaseEnds (h : Served s) : Served s.leaseEnds := by
  unfold State.leaseEnds
  split
  · have hgone : Served s.ownerGone := h.sameParts rfl rfl
    exact hgone.of_eq (by rw [raise_sec]) (by rw [raise_sec]) (raise_act_low _ _ _ _ _ (by decide))
  · exact h

theorem Served.offerLapses (h : Served s) : Served s.offerLapses := by
  unfold State.offerLapses
  split
  · exact h
  · split
    · exact h.sameParts rfl rfl
    · exact h

theorem Served.set1 (h : Served s) (f : Fld) : Served (s.set1 f) := h.sameParts (set1_sec s f) (set1_safety s f)

/-- A claim made while the source serves is answered or held, never left waiting. -/
theorem Served.claim (h : Served s) (c : Claim) (at_ : Nat) : Served (s.claim c at_).2 ∧ (s.claim c at_).1 ≠ .waits := by
  have hz : Served s.leaseEnds.offerLapses := h.leaseEnds.offerLapses
  have hok : s.leaseEnds.offerLapses.rngOk = true := hz.1
  unfold State.claim
  dsimp only
  split
  · exact ⟨hz, nofun⟩
  · split
    · split
      · exact ⟨hz.sameParts rfl rfl, nofun⟩
      · split
        · rw [if_neg (by simp [hok])]
          exact ⟨.set1 (hz.sameParts rfl rfl) SYS.EVT_HANDOVER, nofun⟩
        · exact ⟨hz.set1 _, nofun⟩
    · exact ⟨hz.sameParts rfl rfl, nofun⟩

theorem Served.monClaim (h : Served s) (prio : Nat) : Served (s.monClaim prio) := by
  have hdraw : Served s.random.2 := h.sameParts rfl rfl
  obtain ⟨hserved, hanswered⟩ := hdraw.claim { m := 2, prio := prio, nonce := s.random.1, req := none } s.random.2.mono
  unfold State.monClaim
  dsimp only
  split
  · next heq => rw [heq] at hserved; exact hserved.sameParts rfl rfl
  · next heq => rw [heq] at hserved; exact hserved
  · next heq => rw [heq] at hanswered; exact absurd rfl hanswered

/-- A waiting command of the monitor served: a claim with its PRIO, else `unlock`. -/
def serveWaiting (s : State) : Option Nat → State
  | none => s.monNonce
  | some prio => s.monClaim prio

theorem Served.serveWaiting (h : Served s) (c : Option Nat) : Served (serveWaiting s c) := by
  cases c with
  | none => exact h.monNonce
  | some prio => exact h.monClaim prio

theorem served_foldl (h : Served s) (l : List (Option Nat)) : Served (l.foldl serveWaiting s) :=
  List.foldlRecOn l _ h fun _ hw c _ => hw.serveWaiting c

/-- The state in which the source has just passed: nothing waits any more. -/
def rngPassed (z : State) : State := z.sc (fun k => { k with rngBad := false, monWait := [] })

theorem rngPassed_served (hq : s.safety.act = 0) : Served (rngPassed s) := ⟨rfl, rfl, hq⟩

/-- The monitor's commands that are served as the source passes: none where the monitor does not run. -/
def waiting (z : State) : List (Option Nat) := if z.monRuns then z.sec.monWait else []

theorem exec_rngPass (s : State) (t : Nat) : exec (.rngPass t) s =
    run t (fun s => (waiting s).foldl serveWaiting (rngPassed s)) s := rfl

theorem exec_rngPass_released {t : Nat} (hr : s.released = true) : exec (.rngPass t) s =
    .next ((s.at_ t).finish ((waiting (s.at_ t)).foldl serveWaiting (rngPassed (s.at_ t)))) := by
  rw [exec_rngPass, run_released s hr]

theorem rngPass_serves {t : Nat} (hr : s.released = true) (hq : (s.at_ t).safety.act = 0) :
    Completes (.rngPass t) s (fun u => u.rngOk = true ∧ u.sec.monWait = []) := by
  obtain ⟨hok, hwait, hact⟩ := served_foldl (rngPassed_served hq) (waiting (s.at_ t))
  refine completes_next (exec_rngPass_released hr) ⟨?_, ?_⟩
  · rwa [State.rngOk, finish_sec hact]
  · rwa [finish_sec hact]

theorem waiting_of_nil (h : s.sec.monWait = []) : waiting s = [] := by rw [waiting, h, ite_self]

theorem rngPass_keeps {t : Nat} (hr : s.released = true) (hat : s.at_ t = s.clock t) (hq : s.safety.act = 0) (hwait : s.sec.monWait = []) :
    Completes (.rngPass t) s (fun u => u.regs = s.regs ∧ MemKept s u) := by
  have hnone : waiting (s.at_ t) = [] := waiting_of_nil (by rw [hat, clock_sec, hwait])
  have hact : (rngPassed (s.clock t)).safety.act = 0 := hq
  refine completes_next (exec_rngPass_released hr) ?_
  rw [hnone, List.foldl_nil, hat]
  exact ⟨finish_regs hact, memKept_finish hact (memKept_of rfl rfl rfl rfl rfl rfl rfl rfl)⟩

/-! ### The health test fails -/

theorem exec_rngFail (s : State) (t : Nat) : exec (.rngFail t) s =
    run t (fun s => s.when s.rngOk (fun s => (s.sc (fun k => { k with rngBad := true })).raise SEC.EVT_RNG_FAIL 1)) s := rfl

theorem exec_rngFail_passing {t : Nat} (hr : s.released = true) (hok : (s.at_ t).rngOk = true) :
    exec (.rngFail t) s = .next ((s.at_ t).finish (((s.at_ t).sc (fun k => { k with rngBad := true })).raise SEC.EVT_RNG_FAIL 1)) := by
  rw [exec_rngFail, run_released s hr, State.when, if_pos hok]

/-- Settles O60: each consumer's guard asks `rngOk`, so that with the source stopped it leaves the state as it is or waits; the pass clears
the mark before it serves the commands that wait, and `Served` holds after each of them. -/
theorem randomConsumersWait : Obligations.RandomConsumersWait := by
  intro s t ⟨hr, hq, hat⟩ z
  have hz : z = s.clock t := hat
  have hsec : z.sec = s.sec := by rw [hz, clock_sec]
  have hsafe : z.safety = s.safety := by rw [hz, clock_safety]
  have hruns : z.monRuns = s.monRuns := by simp only [hz, State.monRuns, State.siRuns, clock_sec, clock_on]
  refine ⟨fun hgood hfsq hnow hroom => ?_, fun hbad => ?_⟩
  · intro r
    have hok : z.rngOk = true := by simp [State.rngOk, hsec, hgood]
    have hfsqz : z.on SI.FSQ_ACTED = false := by rw [hz, clock_on, hfsq]
    refine ⟨exec_rngFail_passing hr hok, raise_on_self _ _ _ (by decide) rfl (by decide), ?_, ?_⟩
    · simp [r, State.rngOk]
    · obtain ⟨e, hlog, hclass⟩ := raise_flog_first (s := z.sc (fun k => { k with rngBad := true })) (f := SEC.EVT_RNG_FAIL)
        (cls := 1) 0 false (by decide) (by decide) hfsqz (hsafe ▸ hnow) (hsafe ▸ hroom)
      exact ⟨e, hlog.trans (by rw [sc_safety, hsafe]), hclass⟩
  · have hstop : s.rngOk = false := by simp [State.rngOk, hbad]
    have hstopz : z.rngOk = false := by rwa [State.rngOk, hsec]
    refine ⟨?_, ?_, fun hm => exec_monUnlock_stopped hr (hruns.trans hm) hstopz, rngPass_serves hr (hsafe ▸ hq), fun hm hwait => ?_,
      rngPass_keeps hr hat hq⟩
    · rintro c (rfl | ⟨h, rfl | rfl⟩ | ⟨fw, img, sig, rfl⟩)
      · exact exec_electionClose_stopped hr hstopz
      · exact exec_challengeSend_stopped h hr hstopz
      · exact exec_rechallengePeriod_stopped h hr hstopz
      · exact exec_attDone_stopped fw img sig hr hstopz
    · intro c at_ hhost hother hsome hlease ⟨e, hoffer, hopen⟩
      obtain ⟨o, howner⟩ := Option.isSome_iff_exists.mp hsome
      exact claim_waits at_ hstop (fun hm => by omega) howner (fun h => hother (by rw [howner, h])) hlease hoffer hopen
    · have hone : waiting z = [none] := by rw [waiting, if_pos (hruns.trans hm), hsec, hwait]
      have hpass := exec_rngPass_released (s := s) (t := t) hr
      rwa [hone] at hpass

end Sys2Proof.Proofs
end

section
/-! PROOFS. The machine as a whole: a command that PORST_N holds off is the frame `run` at its own instant, from every state with one
meaning; the frame does nothing in reset and ends in `finish`, which leaves no action due and puts the queue, TB_MONO and the level of
PORST_N back. What is left are PORST_N's own commands and the TAP's. -/

namespace Sys2Proof.Proofs

open Sys2Proof.Machine Sys2Proof.Laws

variable {s u : State}

/-! ### The frame of a command that PORST_N holds off -/

/-- The answer `g` of a command is that of `run` at `t`, from every state with the same meaning. -/
def OneMeaning (t : Nat) (g : State → Out) : Prop := ∃ f, ∀ s, g s = run t f s

theorem oneMeaning_run {t : Nat} {f : State → State} : OneMeaning t (fun s => run t f s) := ⟨f, fun _ => rfl⟩

theorem oneMeaning_softRun {t : Nat} {g : Fin 80} {x : Soft} {f : State → State} : OneMeaning t (fun s => softRun t g x f s) :=
  ⟨_, fun _ => rfl⟩

theorem oneMeaning_monLine {t : Nat} {f : State → Bytes × State} : OneMeaning t (fun s => monLine t f s) := ⟨_, fun _ => rfl⟩

theorem oneMeaning_exec {c : Instr} (h : actsInReset c = false) : OneMeaning (instantOf c) (fun s => exec c s) := by
  cases c <;> dsimp only [exec, instantOf]
  case porstNLow | porstNRelease | tapReset | bypass | idcode | samplePreload | extest | clamp | highz | jtagDebugAccess =>
    exact absurd h (by simp [actsInReset])
  case chainNone | chainDense | chainSparse | chainDenseSm | gather | moveLinear | moveStrided | moveTransposedInt8
      | moveTransposedFp16 | moveAllGather | moveReduceScatter | select | merge | maplookLookup | maplookUpdate | waitFull
      | waitEmpty | setFull | setEmpty | barrier | tagWaitSatisfied | wedgeAccept | wedgeDone | wedgeFptrWb | loop
      | ringArrival | windowWrite | columnEntryDrain | resultBlockDrain | mirrorLineSend =>
    exact oneMeaning_softRun
  case monHelp | monId | monState | monRd | monFlog | monRelease | monHandover | monWr | monPop | monTok | monTokEnd
      | monLock =>
    exact oneMeaning_monLine
  all_goals exact oneMeaning_run

/-- Settles O4: the frame of every such command does nothing in reset; that a command while PORST_N is low changes nothing at all, TB_MONO
included, is assumption 92, the model's choice. -/
theorem nothingHappensInReset : Obligations.NothingHappensInReset := by
  intro c s hr hc
  obtain ⟨f, hf⟩ := oneMeaning_exec hc
  exact (hf s).trans (run_in_reset s hr)

/-- Settles O1: `step` matches on the queue. -/
theorem stepRunsFrontCommand : Obligations.StepRunsFrontCommand :=
  ⟨fun s c rest h => by rw [step, h], fun s h => by rw [step, h]⟩

/-! ### PORST_N and the TAP in reset -/

/-- `u` is `s` with another instruction in the TAP and something more shifted out. -/
def TapOnly (s u : State) : Prop := ∃ code l, u = { s with sec := { s.sec with jtag := code }, outbox := l }

theorem atReset_of_tapOnly (h : s.AtReset) (hu : TapOnly s u) : u.AtReset := by
  obtain ⟨code, l, rfl⟩ := hu
  unfold State.AtReset at *
  conv_lhs => rw [h]

theorem tap_in_reset (hr : s.released = false) (t : Nat) (f : State → State) : tap t f s = .next (f s) := if_neg (by simp [hr])

theorem tapPins_in_reset (hr : s.released = false) (t code : Nat) : tapPins t code s = .next (s.tapTo code) := by
  rw [tapPins, if_neg (by simp [hr]), tap_in_reset hr]

theorem tapOnly_of_eq {o : Out} {v : State} (ho : o = .next v) (hv : TapOnly s v) : ∃ u, o = .next u ∧ TapOnly s u := ⟨v, ho, hv⟩

/-- In reset a command of the TAP sets its instruction at once. -/
theorem exec_tap_in_reset {c : Instr} (hr : s.released = false) (hc : actsInReset c = true) (hlow : ∀ t n, c ≠ .porstNLow t n)
    (hrel : ∀ t b, c ≠ .porstNRelease t b) : ∃ u, exec c s = .next u ∧ TapOnly s u := by
  cases c <;> dsimp only [exec]
  case porstNLow t n => exact absurd rfl (hlow t n)
  case porstNRelease t b => exact absurd rfl (hrel t b)
  case tapReset | bypass | idcode | samplePreload => exact tapOnly_of_eq (tap_in_reset hr _ _) ⟨_, _, rfl⟩
  case extest | clamp | highz => exact tapOnly_of_eq (tapPins_in_reset hr _ _) ⟨_, _, rfl⟩
  case jtagDebugAccess t addr w =>
    exact tapOnly_of_eq ((if_pos (by simp [hr])).trans (tap_in_reset hr _ _)) ⟨_, _, rfl⟩
  all_goals exact absurd hc (by simp [actsInReset])

theorem porstNLow_cases (t n : Nat) : exec (.porstNLow t n) s = .next s ∨
    ∃ u, exec (.porstNLow t n) s = .next u ∧ u.AtReset ∧ u.safety = {} ∧ u.pending = s.pending := by
  by_cases h : (10000 ≤ n || (1000 ≤ n && Config.shortReset n)) = true
  · exact .inr ⟨_, congrArg Host.Outcome.next (if_pos h), rfl, rfl, rfl⟩
  · exact .inl (congrArg Host.Outcome.next (if_neg h))

/-! ### What a command answers, by the three ways in which it takes place -/

@[simp] theorem at_released (s : State) (t : Nat) : (s.at_ t).released = s.released := by
  unfold State.at_
  split
  · rfl
  · split
    · unfold State.closeDue
      split <;> rfl
    · rfl

@[simp] theorem at_pending (s : State) (t : Nat) : (s.at_ t).pending = s.pending := by
  unfold State.at_
  split
  · rfl
  · split
    · unfold State.closeDue
      split <;> rfl
    · rfl

/-- Out of reset: the frame at the command's instant, PORST_N's own commands apart. -/
theorem exec_finishes {c : Instr} (hr : s.released = true) (hlow : ∀ t n, c ≠ .porstNLow t n) (hrel : ∀ t b, c ≠ .porstNRelease t b) :
    ∃ v, exec c s = .next ((s.at_ (instantOf c)).finish v) := by
  obtain ⟨f, hf⟩ := framedAt_exec hr hlow hrel
  exact ⟨_, hf.trans (run_released s hr)⟩

/-- `s` answers `c` in one of these ways: it stays as it is; it is reset; the TAP alone acts; or the command ends in `finish` on a state
`s0` out of reset, with the queue of `s` and a TB_MONO no earlier. -/
inductive Answers (c : Instr) (s : State) : State → Prop
  | same : Answers c s s
  | reset {u : State} (t n : Nat) : c = .porstNLow t n → u.AtReset → u.safety = {} → u.pending = s.pending → Answers c s u
  | tap {u : State} : s.released = false → TapOnly s u → Answers c s u
  | finish (s0 v : State) : s0.pending = s.pending → s.mono ≤ s0.mono → s0.released = true → Answers c s (s0.finish v)

theorem answers_exec (c : Instr) (s : State) : ∃ u, exec c s = .next u ∧ Answers c s u := by
  by_cases hlow : ∃ t n, c = .porstNLow t n
  · obtain ⟨t, n, rfl⟩ := hlow
    rcases porstNLow_cases (s := s) t n with h | ⟨u, h, hu, hs, hp⟩
    · exact ⟨s, h, .same⟩
    · exact ⟨u, h, .reset t n rfl hu hs hp⟩
  by_cases hrel : ∃ t b, c = .porstNRelease t b
  · obtain ⟨t, b, rfl⟩ := hrel
    cases hr : s.released
    · exact ⟨_, if_neg (by simp [hr]), .finish _ _ rfl le_rfl rfl⟩
    · exact ⟨s, porstNRelease_of_released t b hr, .same⟩
  have hlow' : ∀ t n, c ≠ .porstNLow t n := fun t n h => hlow ⟨t, n, h⟩
  have hrel' : ∀ t b, c ≠ .porstNRelease t b := fun t b h => hrel ⟨t, b, h⟩
  cases hr : s.released
  · cases hc : actsInReset c
    · exact ⟨s, nothingHappensInReset c s hr hc, .same⟩
    · obtain ⟨u, h, hu⟩ := exec_tap_in_reset hr hc hlow' hrel'
      exact ⟨u, h, .tap hr hu⟩
  · obtain ⟨v, h⟩ := exec_finishes hr hlow' hrel'
    exact ⟨_, h, .finish _ v (at_pending s _) (by rw [at_mono]; exact le_max_left ..) (by rw [at_released, hr])⟩

theorem answers_of_exec {c : Instr} (h : exec c s = .next u) : Answers c s u := by
  obtain ⟨v, hv, ha⟩ := answers_exec c s
  cases hv.symm.trans h
  exact ha

/-! ### The invariant -/

theorem inv_of_answers {c : Instr} (hi : s.Inv) (h : Answers c s u) : u.Inv := by
  cases h with
  | same => exact hi
  | reset t n _ hu hs _ => exact ⟨by rw [hs], fun _ => hu⟩
  | tap hr hu =>
    obtain ⟨hact, hreset⟩ := hi
    refine ⟨?_, fun _ => atReset_of_tapOnly (hreset hr) hu⟩
    obtain ⟨code, l, rfl⟩ := hu
    exact hact
  | finish s0 v _ _ hr => exact ⟨finish_act .., fun h => by rw [finish_released, hr] at h; cases h⟩

/-- The queue is no part of what PORST_N resets. -/
theorem inv_pending (hi : s.Inv) (l : List Instr) : ({ s with pending := l } : State).Inv := by
  obtain ⟨hact, hreset⟩ := hi
  refine ⟨hact, fun hr => ?_⟩
  have h := hreset hr
  unfold State.AtReset at *
  conv_lhs => rw [h]

/-- Settles O3: each way in which a command can answer keeps the invariant. -/
theorem everyStepKeepsInv : Obligations.EveryStepKeepsInv := by
  intro s u hi h
  match hp : s.pending with
  | [] =>
    rw [stepRunsFrontCommand.2 s hp] at h
    cases h
    exact hi
  | c :: rest =>
    rw [stepRunsFrontCommand.1 s c rest hp] at h
    exact inv_of_answers (inv_pending hi rest) (answers_of_exec h)

/-! ### Every command answers -/

theorem pending_of_answers {c : Instr} (h : Answers c s u) : u.pending = s.pending := by
  cases h with
  | same => rfl
  | reset t n _ _ _ hp => exact hp
  | tap _ hu => obtain ⟨code, l, rfl⟩ := hu; rfl
  | finish s0 v hp _ _ => exact hp

theorem mono_of_answers {c : Instr} (hlow : ∀ t n, c ≠ .porstNLow t n) (h : Answers c s u) : s.mono ≤ u.mono := by
  cases h with
  | same => rfl
  | reset t n hc => exact absurd hc (hlow t n)
  | tap _ hu => obtain ⟨code, l, rfl⟩ := hu; rfl
  | finish s0 v _ hm _ => exact hm

theorem released_of_answers {c : Instr} (hlow : ∀ t n, c ≠ .porstNLow t n) (hr : s.released = true) (ha : s.safety.act = 0)
    (h : Answers c s u) : u.released = true ∧ u.safety.act = 0 := by
  cases h with
  | same => exact ⟨hr, ha⟩
  | reset t n hc => exact absurd hc (hlow t n)
  | tap hlow => rw [hr] at hlow; cases hlow
  | finish s0 v _ _ hr => exact ⟨hr, finish_act ..⟩

theorem closeDue_released (s : State) : s.closeDue.released = s.released := by
  unfold State.closeDue
  split <;> rfl

/-- A wedge of an evaluation step that is over closes before the command: the command meets the state in which it has closed. -/
theorem exec_closeDue {c : Instr} {a : Nat} (hr : s.released = true) (hc : actsInReset c = false) (hdue : s.pipe.dueAt = some a)
    (hstep : evalStep a < evalStep (max s.mono (instantOf c))) (hclosed : s.closeDue.pipe.dueAt = none) : exec c s.closeDue = exec c s := by
  obtain ⟨f, hf⟩ := oneMeaning_exec hc
  have hat : s.closeDue.at_ (instantOf c) = s.at_ (instantOf c) := by
    rw [at_of_dueAt _ _ hclosed, State.at_, hdue]
    simp only [hstep, if_true]
  calc exec c s.closeDue = run (instantOf c) f s.closeDue := hf _
    _ = run (instantOf c) f s := by rw [run_released _ hr, run_released _ ((closeDue_released s).trans hr), hat]
    _ = exec c s := (hf s).symm

/-- Settles O5: every answer is one of `Answers`. That each command answers on every state is assumption 2, and that a wedge which is due
closes before the command acts is assumption 41: the model's choices. -/
theorem everyCommandAnswers : Obligations.EveryCommandAnswers := by
  refine ⟨fun c s => ?_, fun c s u h => ?_⟩
  · obtain ⟨u, hu, _⟩ := answers_exec c s
    exact ⟨u, hu⟩
  · have ha := answers_of_exec h
    exact ⟨pending_of_answers ha, fun hlow => ⟨mono_of_answers hlow ha, fun hr hq => released_of_answers hlow hr hq ha⟩,
      fun a hr hc hdue hstep hclosed => (exec_closeDue hr hc hdue hstep hclosed).trans h⟩

end Sys2Proof.Proofs
end

section
/-! PROOFS. The layer on which the proofs of single commands stand: fields after the updates that `put` is not, updates that touch registers
alone, and the state at the instant of a command where no wedge is left to close. -/

namespace Sys2Proof.Proofs

open Sys2Proof.Machine Sys2Proof.Laws

variable {s u v : State}

/-! ### Fields after updates of other fields and of the same field -/

theorem get_reg_congr (h : u.reg = s.reg) (g : Fld) : u.get g = s.get g := by rw [State.get, h, State.get]

theorem on_of_get {f : Fld} (h : u.get f = s.get f) : u.on f = s.on f := by rw [State.on, h, State.on]

theorem get_set1 (s : State) (f g : Fld) : (s.set1 f).get g = (s.put f 1).get g := by rw [State.get, set1_reg, State.get]

theorem get_load (s : State) (f g : Fld) (x : Nat) : (s.load f x).get g = (s.put f x).get g := by rw [State.get, load_reg, State.get]

/-- A write to the field `f`, which fits its register, leaves the field `g`: they share no bit. -/
abbrev Leaves (f g : Fld) : Prop := f.lo + f.w ≤ 32 ∧ (g.addr ≠ f.addr ∨ g.lo + g.w ≤ f.lo ∨ f.lo + f.w ≤ g.lo)

section
variable {f g : Fld} (s : State) (h : Leaves f g)
include h

theorem get_put_other (x : Nat) : (s.put f x).get g = s.get g := get_put_of_apart s h.1 h.2 x

theorem get_set1_other : (s.set1 f).get g = s.get g := by rw [get_set1, get_put_other s h]

theorem get_addCnt_other (n : Nat) : (s.addCnt f n).get g = s.get g := get_put_other s h _

theorem get_bump_other : (s.bump f).get g = s.get g := get_put_other s h _

theorem get_clr_other : (s.clr f).get g = s.get g := get_put_other s h _

theorem get_load_other (x : Nat) : (s.load f x).get g = s.get g := by rw [get_load, get_put_other s h]

theorem get_putMax_other (x : Nat) : (s.putMax f x).get g = s.get g := by
  unfold State.putMax
  split
  · exact get_put_other s h _
  · rfl

theorem get_set1If_other (b : Bool) : (s.set1If b f).get g = s.get g := by
  cases b
  · rfl
  · exact get_set1_other s h

theorem on_put_other (x : Nat) : (s.put f x).on g = s.on g := on_of_get (get_put_other s h x)

theorem on_set1_other : (s.set1 f).on g = s.on g := on_of_get (get_set1_other s h)

theorem on_bump_other : (s.bump f).on g = s.on g := on_of_get (get_bump_other s h)

theorem on_load_other (x : Nat) : (s.load f x).on g = s.on g := on_of_get (get_load_other s h x)

end

/-- A value that fits its field is read back. -/
theorem get_put_of_lt {f : Fld} {x : Nat} (hf : f.lo + f.w ≤ 32) (hx : x < 2 ^ f.w) : (s.put f x).get f = x := by
  rw [get_put_self s f x hf, Nat.mod_eq_of_lt hx]

theorem regsBut_load {l : List Nat} {f : Fld} (x : Nat) (ha : f.addr ∈ l) (h : RegsBut l s u) : RegsBut l s (u.load f x) := by
  intro a hb
  rw [load_reg]
  exact regsBut_put x ha h a hb

theorem regsBut_addCnt {l : List Nat} {f : Fld} (n : Nat) (ha : f.addr ∈ l) (h : RegsBut l s u) : RegsBut l s (u.addCnt f n) :=
  regsBut_put _ ha h

theorem regsBut_trans {l : List Nat} (h : RegsBut l s u) (h' : RegsBut l u v) : RegsBut l s v := fun a ha => (h' a ha).trans (h a ha)

theorem regsBut_mono {l l' : List Nat} (hl : ∀ a ∈ l, a ∈ l') (h : RegsBut l s u) : RegsBut l' s u := fun a ha => h a (fun hm => ha (hl a hm))

/-! ### Updates that touch registers alone -/

/-- `u` differs from `s` in registers and in what this instant has done to them alone. -/
def OnlyRegs (s u : State) : Prop := u = { s with regs := u.regs, cyc := u.cyc }

namespace OnlyRegs

theorem refl (s : State) : OnlyRegs s s := rfl

theorem trans (h : OnlyRegs s u) (h' : OnlyRegs u v) : OnlyRegs s v := by
  unfold OnlyRegs at *
  rw [h', h]

theorem put (h : OnlyRegs s u) (f : Fld) (x : Nat) : OnlyRegs s (u.put f x) := h.trans rfl

theorem setReg (h : OnlyRegs s u) (a x : Nat) : OnlyRegs s (u.setReg a x) := h.trans rfl

theorem set1 (h : OnlyRegs s u) (f : Fld) : OnlyRegs s (u.set1 f) := h.trans rfl

theorem clr (h : OnlyRegs s u) (f : Fld) : OnlyRegs s (u.clr f) := h.trans rfl

theorem bump (h : OnlyRegs s u) (f : Fld) : OnlyRegs s (u.bump f) := h.trans rfl

theorem addCnt (h : OnlyRegs s u) (f : Fld) (n : Nat) : OnlyRegs s (u.addCnt f n) := h.trans rfl

theorem load (h : OnlyRegs s u) (f : Fld) (x : Nat) : OnlyRegs s (u.load f x) := h.trans rfl

theorem ite {c : Prop} [Decidable c] (hu : OnlyRegs s u) (hv : OnlyRegs s v) : OnlyRegs s (if c then u else v) := by split <;> assumption

theorem set1If (h : OnlyRegs s u) (b : Bool) (f : Fld) : OnlyRegs s (u.set1If b f) := ite (h.set1 f) h

theorem putMax (h : OnlyRegs s u) (f : Fld) (x : Nat) : OnlyRegs s (u.putMax f x) := ite (h.put f _) h

theorem foldl {α : Type} {l : List α} {f : State → α → State} (h : OnlyRegs s u) (hf : ∀ w a, OnlyRegs s w → OnlyRegs s (f w a)) :
    OnlyRegs s (l.foldl f u) := List.foldlRecOn l f h fun w hw a _ => hf w a hw

theorem safety (h : OnlyRegs s u) : u.safety = s.safety := by rw [h]
theorem time (h : OnlyRegs s u) : u.time = s.time := by rw [h]
theorem gptp (h : OnlyRegs s u) : u.gptp = s.gptp := by rw [h]
theorem sec (h : OnlyRegs s u) : u.sec = s.sec := by rw [h]
theorem outbox (h : OnlyRegs s u) : u.outbox = s.outbox := by rw [h]
theorem pins (h : OnlyRegs s u) : u.pins = s.pins := by rw [h]
theorem mono (h : OnlyRegs s u) : u.mono = s.mono := by rw [h]
theorem pipe (h : OnlyRegs s u) : u.pipe = s.pipe := by rw [h]
theorem heads (h : OnlyRegs s u) : u.heads = s.heads := by rw [h]
theorem trackers (h : OnlyRegs s u) : u.trackers = s.trackers := by rw [h]
theorem tiles (h : OnlyRegs s u) : u.tiles = s.tiles := by rw [h]
theorem map (h : OnlyRegs s u) : u.map = s.map := by rw [h]
theorem plk (h : OnlyRegs s u) : u.plk = s.plk := by rw [h]
theorem own (h : OnlyRegs s u) : u.own = s.own := by rw [h]
theorem hosts (h : OnlyRegs s u) : u.hosts = s.hosts := by rw [h]
theorem age (h : OnlyRegs s u) : u.age = s.age := by rw [h]
theorem out (h : OnlyRegs s u) : u.out = s.out := by rw [h]
theorem shadow (h : OnlyRegs s u) : u.shadow = s.shadow := by rw [h]
theorem image (h : OnlyRegs s u) : u.image = s.image := by rw [h]
theorem ms (h : OnlyRegs s u) : u.ms = s.ms := by rw [h]
theorem p2 (h : OnlyRegs s u) : u.p2 = s.p2 := by rw [h]

theorem memKept (h : OnlyRegs s u) : MemKept s u := by
  rw [h]
  exact memKept_of rfl rfl rfl rfl rfl rfl rfl rfl

end OnlyRegs

theorem memKept_trans (h : MemKept s u) (h' : MemKept u v) : MemKept s v := by
  obtain ⟨a1, a2, a3, a4, a5, a6, a7, a8⟩ := h
  obtain ⟨b1, b2, b3, b4, b5, b6, b7, b8⟩ := h'
  exact ⟨fun a => (b1 a).trans (a1 a), fun a => (b2 a).trans (a2 a), fun a => (b3 a).trans (a3 a), fun a => (b4 a).trans (a4 a),
    fun a => (b5 a).trans (a5 a), fun a => (b6 a).trans (a6 a), fun a => (b7 a).trans (a7 a), b8.trans a8⟩

theorem OnlyRegsSafety.memKept (h : OnlyRegsSafety s u) : MemKept s u :=
  memKept_of (onlyRS_spd h) (onlyRS_dram h) (by rw [onlyRS_map h]) (onlyRS_loadBuf h) (by rw [onlyRS_sec h]) (by rw [onlyRS_sec h])
    (by rw [onlyRS_sec h]) (onlyRS_tags h)

/-! ### The state at the instant of a command -/

@[simp] theorem clock_mono' (s : State) (t : Nat) : (s.clock t).mono = max s.mono t := rfl

/-- A command of the frame `run` out of reset answers what `finish` leaves of its meaning. -/
theorem exec_run {c : Instr} {t : Nat} {f : State → State} (hr : s.released = true) (he : exec c s = run t f s) :
    exec c s = .next ((s.at_ t).finish (f (s.at_ t))) := he.trans (run_released s hr)

/-- The same where the meaning is known at the instant of the command. -/
theorem exec_run_eq {c : Instr} {t : Nat} {f : State → State} {z : State} (hr : s.released = true) (he : exec c s = run t f s)
    (hz : f (s.at_ t) = z) : exec c s = .next ((s.at_ t).finish z) := (exec_run hr he).trans (by rw [hz])

/-- The same with no wedge left to close. -/
theorem exec_run_clock {c : Instr} {t : Nat} {f : State → State} {z : State} (hrun : s.Running t) (he : exec c s = run t f s)
    (hz : f (s.clock t) = z) : exec c s = .next ((s.clock t).finish z) := by
  rw [← hrun.2.2] at hz ⊢
  exact exec_run_eq hrun.1 he hz

/-- A command that completes with no action left due: what is claimed of its meaning is claimed of the end of the command. -/
theorem completes_of {c : Instr} {t : Nat} {f : State → State} {z : State} {P : State → Prop} (hr : s.released = true)
    (he : exec c s = run t f s) (hz : f (s.at_ t) = z) (hP : P ((s.at_ t).finish z)) : Completes c s P :=
  ⟨_, exec_run_eq hr he hz, hP⟩

/-- `u` is what the end of a command makes of `z`, with no fault action due in it. -/
def Ends (z u : State) : Prop := z.safety.act = 0 ∧ ∃ s0 : State, s0.released = true ∧ u = s0.finish z

namespace Ends

variable {z u : State} (h : Ends z u)
include h

theorem regs : u.regs = z.regs := by obtain ⟨ha, s0, -, rfl⟩ := h; exact finish_regs ha
theorem shadow : u.shadow = z.shadow := by obtain ⟨ha, s0, -, rfl⟩ := h; exact finish_shadow ha
theorem time : u.time = z.time := by obtain ⟨ha, s0, -, rfl⟩ := h; exact finish_time ha
theorem gptp : u.gptp = z.gptp := by obtain ⟨ha, s0, -, rfl⟩ := h; exact finish_gptp ha
theorem trackers : u.trackers = z.trackers := by obtain ⟨ha, s0, -, rfl⟩ := h; exact finish_trackers ha
theorem rev : u.rev = z.rev := by obtain ⟨ha, s0, -, rfl⟩ := h; exact finish_rev ha
theorem heads : u.heads = z.heads := by obtain ⟨ha, s0, -, rfl⟩ := h; exact finish_heads ha
theorem pose : u.pose = z.pose := by obtain ⟨ha, s0, -, rfl⟩ := h; exact finish_pose ha
theorem ing : u.ing = z.ing := by obtain ⟨ha, s0, -, rfl⟩ := h; exact finish_ing ha
theorem vhu : u.vhu = z.vhu := by obtain ⟨ha, s0, -, rfl⟩ := h; exact finish_vhu ha
theorem grids : u.grids = z.grids := by obtain ⟨ha, s0, -, rfl⟩ := h; exact finish_grids ha
theorem ms : u.ms = z.ms := by obtain ⟨ha, s0, -, rfl⟩ := h; exact finish_ms ha
theorem wedges : u.wedges = z.wedges := by obtain ⟨ha, s0, -, rfl⟩ := h; exact finish_wedges ha
theorem pipe : u.pipe = z.pipe := by obtain ⟨ha, s0, -, rfl⟩ := h; exact finish_pipe ha
theorem tiles : u.tiles = z.tiles := by obtain ⟨ha, s0, -, rfl⟩ := h; exact finish_tiles ha
theorem spd : u.spd = z.spd := by obtain ⟨ha, s0, -, rfl⟩ := h; exact finish_spd ha
theorem tags : u.tags = z.tags := by obtain ⟨ha, s0, -, rfl⟩ := h; exact finish_tags ha
theorem dram : u.dram = z.dram := by obtain ⟨ha, s0, -, rfl⟩ := h; exact finish_dram ha
theorem map : u.map = z.map := by obtain ⟨ha, s0, -, rfl⟩ := h; exact finish_map ha
theorem out : u.out = z.out := by obtain ⟨ha, s0, -, rfl⟩ := h; exact finish_out ha
theorem age : u.age = z.age := by obtain ⟨ha, s0, -, rfl⟩ := h; exact finish_age ha
theorem plk : u.plk = z.plk := by obtain ⟨ha, s0, -, rfl⟩ := h; exact finish_plk ha
theorem sec : u.sec = z.sec := by obtain ⟨ha, s0, -, rfl⟩ := h; exact finish_sec ha
theorem image : u.image = z.image := by obtain ⟨ha, s0, -, rfl⟩ := h; exact finish_image ha
theorem erapQ : u.erapQ = z.erapQ := by obtain ⟨ha, s0, -, rfl⟩ := h; exact finish_erapQ ha
theorem hosts : u.hosts = z.hosts := by obtain ⟨ha, s0, -, rfl⟩ := h; exact finish_hosts ha
theorem pins : u.pins = z.pins := by obtain ⟨ha, s0, -, rfl⟩ := h; exact finish_pins ha
theorem outbox : u.outbox = z.outbox := by obtain ⟨ha, s0, -, rfl⟩ := h; exact finish_outbox ha
theorem flog : u.safety.flog = z.safety.flog := by obtain ⟨ha, s0, -, rfl⟩ := h; exact finish_flog ha
theorem owner : u.own.owner = z.own.owner := by obtain ⟨ha, s0, -, rfl⟩ := h; exact finish_owner ha
theorem token : u.own.token = z.own.token := by obtain ⟨ha, s0, -, rfl⟩ := h; exact finish_token ha
theorem reg (a : Nat) : u.reg a = z.reg a := by obtain ⟨ha, s0, -, rfl⟩ := h; exact finish_reg ha a
theorem get (f : Fld) : u.get f = z.get f := by obtain ⟨ha, s0, -, rfl⟩ := h; exact finish_get ha f
theorem on (f : Fld) : u.on f = z.on f := by obtain ⟨ha, s0, -, rfl⟩ := h; exact finish_on ha f
theorem dev : u.dev = z.dev := h.get _
theorem released : u.released = true := by obtain ⟨-, s0, hr, rfl⟩ := h; exact hr

theorem regsBut {l : List Nat} {s : State} (hz : RegsBut l s z) : RegsBut l s u := fun a ha => (h.reg a).trans (hz a ha)

theorem memKept {s : State} (hz : MemKept s z) : MemKept s u := by obtain ⟨ha, s0, -, rfl⟩ := h; exact memKept_finish ha hz

end Ends

/-- A command out of reset whose meaning `z` leaves no fault action due: what is claimed of it follows from `z` alone. -/
theorem completes_at {c : Instr} {t : Nat} {f : State → State} {z : State} {P : State → Prop} (hr : s.released = true)
    (he : exec c s = run t f s) (hz : f (s.at_ t) = z) (hact : z.safety.act = 0) (hP : ∀ u, Ends z u → P u) : Completes c s P :=
  completes_of hr he hz (hP _ ⟨hact, s.at_ t, (at_released s t).trans hr, rfl⟩)

/-- The same with no wedge left to close, where the instant of the command only moves TB_MONO. -/
theorem completes_ends {c : Instr} {t : Nat} {f : State → State} {z : State} {P : State → Prop} (hrun : s.Running t)
    (he : exec c s = run t f s) (hz : f (s.clock t) = z) (hact : z.safety.act = 0) (hP : ∀ u, Ends z u → P u) : Completes c s P :=
  completes_at hrun.1 he (by rw [hrun.2.2, hz]) hact hP

/-- The same where the claim speaks of TB_MONO: the end of the command leaves it at the command's instant. -/
theorem completes_ends' {c : Instr} {t : Nat} {f : State → State} {z : State} {P : State → Prop} (hrun : s.Running t)
    (he : exec c s = run t f s) (hz : f (s.clock t) = z) (hact : z.safety.act = 0)
    (hP : ∀ u, Ends z u → u.mono = (s.clock t).mono → P u) : Completes c s P := by
  refine completes_of hrun.1 he (by rw [hrun.2.2, hz]) (hP _ ⟨hact, s.at_ t, (at_released s t).trans hrun.1, rfl⟩ ?_)
  rw [finish_mono, hrun.2.2]

theorem clock_onlyMem (s : State) (t : Nat) : MemKept s (s.clock t) := memKept_of rfl rfl rfl rfl rfl rfl rfl rfl

theorem regsBut_clock (l : List Nat) (s : State) (t : Nat) : RegsBut l s (s.clock t) := fun _ _ => rfl

theorem when_true {c : Bool} {f : State → State} (h : c = true) : s.when c f = f s := by rw [State.when, if_pos h]

theorem when_false {c : Bool} {f : State → State} (h : c = false) : s.when c f = s := by rw [State.when, if_neg (by simp [h])]

end Sys2Proof.Proofs
end

section
/-! PROOFS. PORST_N and the TAP (R1, R430, R448): a reset keeps the variant and so its SYS.ID; a command of the TAP sets its instruction in reset and out of it. -/

namespace Sys2Proof.Proofs

open Sys2Proof.Machine Sys2Proof.Laws

variable {s u : State}

/-! ### PORST_N -/

/-- Refutes O7: the reset of an AT48-P2 keeps its variant, so SYS.ID reads 0x00220048 then (R1), and not the 0x00230048 of
`State.reset`, which is an AT48-P3. -/
theorem not_porstN : ¬ Obligations.PorstN := by
  intro h
  let s : State := { State.reset with p2 := true }
  obtain ⟨u, hu, hreset, -, -, hregs, -⟩ := (h.1 s 0 10000).1 le_rfl
  cases hu
  have hid := hregs 0x40 (by simp)
  exact absurd hid (by decide)

/-! ### The public instructions of the TAP -/

/-- `s` with the instruction `code` in the TAP and `l` shifted out. -/
def tapShifts (s : State) (code : Nat) (l : List Emit) : State := { s.tapTo code with outbox := s.outbox ++ l }

theorem tapTo_eq_tapShifts (s : State) (code : Nat) : s.tapTo code = tapShifts s code [] := by
  rw [tapShifts, List.append_nil]
  rfl

/-- What such a command leaves: TB_MONO's instant apart, the TAP's instruction and what is shifted out are all that it changes. -/
def TapShows (s : State) (code : Nat) (l : List Emit) (u : State) : Prop :=
  u.sec = { s.sec with jtag := code } ∧ u.regs = s.regs ∧ u.pins = s.pins ∧ MemKept s u ∧ u.outbox = s.outbox ++ l

theorem tapShifts_shows (s : State) (code : Nat) (l : List Emit) : TapShows s code l (tapShifts s code l) :=
  ⟨rfl, rfl, rfl, memKept_of rfl rfl rfl rfl rfl rfl rfl rfl, rfl⟩

/-- The end of a command that shows this, out of reset at an instant with no wedge left to close. -/
theorem tapShows_finish {t code : Nat} {l : List Emit} (hrun : s.Running t) (hz : u = tapShifts (s.at_ t) code l) :
    TapShows s code l ((s.at_ t).finish u) := by
  obtain ⟨_, hq, hat⟩ := hrun
  rw [hz, hat]
  have hact : (tapShifts (s.clock t) code l).safety.act = 0 := hq
  refine ⟨finish_sec hact, finish_regs hact, finish_pins hact, memKept_finish hact ?_, finish_outbox hact⟩
  exact memKept_of rfl rfl rfl rfl rfl rfl rfl rfl

theorem completes_tap {c : Instr} {t code : Nat} {l : List Emit} {f : State → State} (hrun : s.released = true → s.Running t)
    (he : exec c s = tap t f s) (hf : ∀ z, f z = tapShifts z code l) : Completes c s (TapShows s code l) := by
  cases hr : s.released
  · refine completes_next (he.trans (tap_in_reset hr t f)) ?_
    rw [hf]
    exact tapShifts_shows s code l
  · exact completes_of hr (he.trans (if_pos hr)) (hf _) (tapShows_finish (hrun hr) rfl)

theorem completes_mono {c : Instr} {P Q : State → Prop} (h : Completes c s P) (hpq : ∀ u, P u → Q u) : Completes c s Q := by
  obtain ⟨u, hu, hp⟩ := h
  exact ⟨u, hu, hpq u hp⟩

theorem completes_tapTo {c : Instr} {t code : Nat} (hrun : s.released = true → s.Running t)
    (he : exec c s = tap t (fun z => z.tapTo code) s) : Completes c s (TapShows s code []) :=
  completes_tap hrun he fun z => tapTo_eq_tapShifts z code

theorem tapPins_of_quiet (t code : Nat) (hn : s.dev ≠ dsNoon) (hd : s.dev ≠ dsDusk) (hm : s.dev ≠ dsMidnight) :
    tapPins t code s = tap t (fun z => z.tapTo code) s := by
  rw [tapPins, if_neg (by simp [hn, hd, hm])]

theorem tapPins_of_service {t : Nat} (code : Nat) (hr : s.released = true) (h : s.dev = dsNoon ∨ s.dev = dsDusk ∨ s.dev = dsMidnight) :
    tapPins t code s = run t (fun z => (z.tapTo tapBypass).set1 SEC.EVT_JTAG_BLOCK) s := by
  exact if_pos (by simpa [hr, or_assoc] using h)

/-- In service an instruction that drives the pins leaves BYPASS and its event. -/
theorem completes_blocked {c : Instr} {t code : Nat} (hrun : s.Running t) (h : s.dev = dsNoon ∨ s.dev = dsDusk ∨ s.dev = dsMidnight)
    (he : exec c s = tapPins t code s) : Completes c s (fun u => u.sec.jtag = 0 ∧ u.on SEC.EVT_JTAG_BLOCK ∧
      RegsBut [SEC.EVT.addr] s u ∧ u.pins = s.pins ∧ MemKept s u) := by
  obtain ⟨hr, hq, hat⟩ := hrun
  refine completes_of hr (he.trans (tapPins_of_service code hr h)) rfl ?_
  rw [hat]
  have hact : (((s.clock t).tapTo tapBypass).set1 SEC.EVT_JTAG_BLOCK).safety.act = 0 := hq
  have honly : OnlyRegs ((s.clock t).tapTo tapBypass) (((s.clock t).tapTo tapBypass).set1 SEC.EVT_JTAG_BLOCK) := .set1 (.refl _) _
  refine ⟨?_, ?_, regsBut_finish hact (regsBut_set1 (by decide) fun _ _ => rfl), ?_, memKept_finish hact (memKept_trans ?_ honly.memKept)⟩
  · rw [finish_sec hact, honly.sec]
    rfl
  · rw [finish_on hact, on_set1_self _ _ (by decide) rfl]
  · rw [finish_pins hact, honly.pins]
    rfl
  · exact memKept_of rfl rfl rfl rfl rfl rfl rfl rfl

/-- Settles O8: the instructions that drive no pins are `tap` with their code, the others are so outside Noon, Dusk and Midnight. That
TAP_RESET leaves IDCODE is assumption 16, and that the TAP acts in reset rests on assumption 92: the model's choices. -/
theorem tapInstructions : Obligations.TapInstructions := by
  refine ⟨?_, ?_⟩
  · intro s t inst hrun
    have hinst {code : Nat} {l : List Emit} (u : State) (h : TapShows s code l u) : inst code u := by
      obtain ⟨hsec, hregs, hpins, hmem, _⟩ := h
      exact ⟨hsec, hregs, hpins, hmem⟩
    have hto {c : Instr} {code : Nat} (he : exec c s = tap t (fun z => z.tapTo code) s) : Completes c s (inst code) :=
      completes_mono (completes_tapTo hrun he) hinst
    refine ⟨hto rfl, hto rfl, ?_, hto rfl, fun hn hd hm => ?_⟩
    · exact completes_mono (completes_tap (l := [.tdo idcode]) hrun rfl fun z => rfl) fun u h => ⟨hinst u h, h.2.2.2.2⟩
    · have hpins (code : Nat) := tapPins_of_quiet t code hn hd hm
      exact ⟨hto (hpins _), hto (hpins _), hto (hpins _)⟩
  · rintro s t c hrun hdev (rfl | rfl | rfl)
    all_goals exact completes_blocked hrun hdev rfl

/-! ### JTAG debug access -/

theorem execJtagDebugAccess_closed {t : Nat} (addr : Nat) (d : Option Word) (h : (s.at_ t).jtagOpen = false) :
    exec (.jtagDebugAccess t addr d) s = tap t (fun z => z.tapTo tapBypass) s := if_pos (by simp [h])

/-- What an open debug access does to a register. -/
def tapAccess (addr : Nat) (d : Option Word) (z : State) : State :=
  match d with
  | none => z.emit (.tdo (z.readAt addr).2)
  | some w => if z.openLife then (z.writeReg addr w 0xFFFFFFFF#32 none).2.secAfter else z

theorem execJtagDebugAccess_open {t addr : Nat} (d : Option Word) (hr : s.released = true) (h : (s.at_ t).jtagOpen = true)
    (haddr : addr % 4 = 0 ∧ addr < 2 ^ 24) :
    exec (.jtagDebugAccess t addr d) s = .next ((s.at_ t).finish (tapAccess addr d ((s.at_ t).tapTo tapDebug))) := by
  have hok : addrOk addr = true := by
    obtain ⟨h4, h24⟩ := haddr
    simp only [addrOk, h4, h24, decide_true, Bool.and_self]
  have he : exec (.jtagDebugAccess t addr d) s =
      run t (fun z => if !addrOk addr then z.tapTo tapDebug else tapAccess addr d (z.tapTo tapDebug)) s := by
    refine (if_neg (by simp [hr, h])).trans ?_
    cases d <;> rfl
  exact exec_run_eq hr he (if_neg (by simp [hok]))

/-- Settles O9: where debug access is closed the TAP goes to BYPASS; where it is open the access goes through `tapAccess`. -/
theorem jtagDebugAccess : Obligations.JtagDebugAccess := by
  intro s t addr w hrun x
  have hlife : x.openLife = s.openLife := by
    rw [State.openLife, State.lifecycle, show x.get SYS.STATE_LIFECYCLE = s.get SYS.STATE_LIFECYCLE by simp only [x, hrun.2.2, sc_get, clock_get]]
    rfl
  refine ⟨fun hclosed d => ?_, fun hopen h4 h24 => ⟨?_, fun hl => ?_, fun hl => ?_⟩⟩
  · refine completes_mono (completes_tapTo (fun _ => hrun) (execJtagDebugAccess_closed addr d hclosed)) ?_
    rintro u ⟨hsec, hregs, -, -, hout⟩
    exact ⟨by rw [hsec], hregs, hout.trans (List.append_nil _)⟩
  · refine completes_next (execJtagDebugAccess_open none hrun.1 hopen ⟨h4, h24⟩) ?_
    obtain ⟨hsec, hregs, -, -, hout⟩ := tapShows_finish (l := [.tdo (x.readAt addr).2]) (code := tapDebug) hrun rfl
    exact ⟨(congrArg SecSt.jtag hsec), hregs, hout⟩
  · rw [execJtagDebugAccess_open (some w) hrun.1 hopen ⟨h4, h24⟩]
    exact congrArg (fun v => Host.Outcome.next ((s.at_ t).finish v)) (if_pos (hlife.trans hl))
  · refine completes_next (execJtagDebugAccess_open (some w) hrun.1 hopen ⟨h4, h24⟩) ?_
    have hkeep : tapAccess addr (some w) ((s.at_ t).tapTo tapDebug) = tapShifts (s.at_ t) tapDebug [] := by
      rw [← tapTo_eq_tapShifts]
      exact if_neg (by rw [show ((s.at_ t).tapTo tapDebug).openLife = false from hlife.trans hl]; decide)
    obtain ⟨hsec, hregs, -⟩ := tapShows_finish hrun hkeep
    exact ⟨hregs, congrArg SecSt.jtag hsec⟩

end Sys2Proof.Proofs
end

section
/-! PROOFS. The time bases and gPTP (R42 to R59): each command of TB_VEH, PPS and gPTP does what its guard lets through; a measurement is
followed step by step. -/

namespace Sys2Proof.Proofs

open Sys2Proof.Machine Sys2Proof.Laws

variable {s u : State}

/-! ### HOLDOVER and the loss of PPS_IN -/

theorem holdover_onlyRegs (s : State) : OnlyRegs s s.holdover := .bump (.set1 (.put (.put (.refl s) _ _) _ _) _) _

theorem holdover_vehState (s : State) : s.holdover.vehState = vehHoldover := by
  simp (disch := decide) only [State.holdover, State.vehState, get_bump_other, get_set1_other, get_put_other, get_put_of_lt]

theorem holdover_portAct (s : State) : s.holdover.get TMU.STAT_VEH_PORT_ACT = 0 := by
  simp (disch := decide) only [State.holdover, get_bump_other, get_set1_other, get_put_of_lt]

theorem holdover_evt (s : State) : s.holdover.on TMU.EVT_HOLDOVER = true := by
  simp (disch := decide) only [State.holdover, on_bump_other]
  exact on_set1_self _ _ (by decide) rfl

theorem holdover_cnt (s : State) : s.holdover.get TMU.HOLDOVER_CNT = satU 32 (s.get TMU.HOLDOVER_CNT + 1) := by
  rw [State.holdover, get_bump_self _ _ (by decide)]
  simp (disch := decide) only [get_set1_other, get_put_other]
  rfl

theorem holdover_regsBut (s : State) : RegsBut [TMU.STAT.addr, TMU.EVT.addr, TMU.HOLDOVER_CNT.addr] s s.holdover :=
  regsBut_bump (by decide) (regsBut_set1 (by decide) (regsBut_put _ (by decide) (regsBut_put _ (by decide) (regsBut_refl _ s))))

theorem holdover_completes {t : Nat} (hrun : s.Running t) (hfollows : (s.at_ t).follows = true)
    (hlast : s.time.lastSync + 3 * s.time.srcIntv ≤ max s.mono t) :
    Completes (.holdover t) s (fun u => u.vehState = vehHoldover ∧ u.get TMU.STAT_VEH_PORT_ACT = 0 ∧ u.on TMU.EVT_HOLDOVER ∧
       u.get TMU.HOLDOVER_CNT = satU 32 (s.get TMU.HOLDOVER_CNT + 1) ∧
       RegsBut [TMU.STAT.addr, TMU.EVT.addr, TMU.HOLDOVER_CNT.addr] s u ∧ u.time = s.time ∧ u.outbox = s.outbox ∧ MemKept s u) := by
  rw [hrun.2.2] at hfollows
  have honly := holdover_onlyRegs (s.clock t)
  have hdue : ((s.clock t).follows && decide ((s.clock t).time.lastSync + 3 * (s.clock t).time.srcIntv ≤ (s.clock t).mono)) = true := by
    simpa [hfollows] using hlast
  refine completes_ends (z := (s.clock t).holdover) hrun (rfl : _ = execHoldover t s) ?_ (honly.safety ▸ hrun.2.1) fun u he => ?_
  · exact when_true hdue
  refine ⟨(he.get _).trans (holdover_vehState _), (he.get _).trans (holdover_portAct _), (he.on _).trans (holdover_evt _),
    (he.get _).trans (holdover_cnt _), he.regsBut (holdover_regsBut _), he.time.trans honly.time, he.outbox.trans honly.outbox,
    he.memKept honly.memKept⟩

theorem ppsInLost_completes {t a : Nat} {id : Nat} (hrun : s.Running t) (hpps : s.time.lastPps = some a)
    (hlate : a + 1500 * tickMs ≤ max s.mono t) (hveh : s.vehState = vehPps ∨ s.vehState = vehRefused) (hsrc : s.time.src = some (id, 2)) :
    Completes (.ppsInLost t) s (fun u => u.vehState = vehHoldover ∧ u.on TMU.EVT_PPS_IN_LOST ∧ u.on TMU.EVT_HOLDOVER ∧
         RegsBut [TMU.STAT.addr, TMU.EVT.addr, TMU.HOLDOVER_CNT.addr] s u ∧ u.time = s.time ∧ MemKept s u) := by
  have honly : OnlyRegs (s.clock t) ((s.clock t).holdover.set1 TMU.EVT_PPS_IN_LOST) := .set1 (holdover_onlyRegs _) _
  have hstate : (s.clock t).vehState = vehPps ∨ (s.clock t).vehState = vehRefused := hveh
  refine completes_ends (z := (s.clock t).holdover.set1 TMU.EVT_PPS_IN_LOST) hrun (rfl : _ = execPpsInLost t s) ?_
    (honly.safety ▸ hrun.2.1) fun u he => ?_
  · refine when_true ?_
    simp only [clock_time, hpps, hsrc, clock_mono', hlate, Option.map_some, decide_true, Bool.true_and, Bool.and_true, Bool.or_eq_true,
      decide_eq_true_eq]
    exact hstate
  · refine ⟨(he.get _).trans ?_, (he.on _).trans (on_set1_self _ _ (by decide) rfl), (he.on _).trans ?_,
      he.regsBut (regsBut_set1 (by decide) (holdover_regsBut _)), he.time.trans honly.time, he.memKept honly.memKept⟩
    · exact (get_set1_other _ (by decide)).trans (holdover_vehState _)
    · exact (on_set1_other _ (by decide)).trans (holdover_evt _)

/-! ### Measurements taken -/

theorem lowBits_lt (w : Nat) (x : Int) : lowBits w x < 2 ^ w := by
  have hpos : (0 : Int) < ((2 ^ w : Nat) : Int) := by positivity
  have hlt := Int.emod_lt_of_pos x hpos
  have hge := Int.emod_nonneg x hpos.ne'
  unfold lowBits
  omega

theorem exec_syncRx_measured {t : Nat} {p : Fin 2} {y : SyncInfo} (hr : s.released = true)
    (husable : y.usable = true) (hup : ((s.at_ t).rxCount (.host p)).portUp (.host p) = true)
    (hdom : y.domain = ((s.at_ t).rxCount (.host p)).get TMU.GPTP_CFG_VEH_DOMAIN)
    (hport : ((s.at_ t).rxCount (.host p)).get TMU.CTRL_VEH_PORT = p.val + 1) :
    let x := (s.at_ t).rxCount (.host p)
    let intv := (16000000000 * (2 : Nat) ^ (y.logIntv + 16).toNat) / 2 ^ 16
    let x1 := x.tm (fun k => { k with usable := k.usable.set p.val (x.mono + 3 * intv) })
    let x2 := x1.tm (fun k => { k with srcIntv := intv, lastSync := x1.mono })
    exec (.syncRx t p y) s = .next ((s.at_ t).finish (x2.measure
      (y.origin + ((x1.get (TS.PDELAY_DELAY (portPage (.host p))) : Int) - x1.getI (TS.ASYM_ASYM (portPage (.host p)))) -
        x1.time.veh.at_ (x1.ingMdi (.host p) y.rxIntern)) (y.gmId.toNat, p.val) intv)) := by
  intro x intv x1 x2
  refine exec_run_eq hr (rfl : _ = execSyncRx t p y s) ?_
  refine (if_neg ?_).trans (if_neg ?_)
  · simp only [husable, hup, hdom, decide_true, Bool.and_self, Bool.not_true, Bool.false_eq_true, not_false_iff]
  · simp only [tm_get, hport, decide_true, Bool.true_or, Bool.not_true, Bool.false_eq_true, not_false_iff]

/-- The instant of the edge noted. -/
def ppsSeen (s : State) : State := s.tm (fun x => { x with lastPps := some s.mono })

theorem put_veh (s : State) (f : Fld) (x : Nat) : (s.put f x).veh = s.veh := by rw [State.veh, put_time, put_mono, State.veh]

/-- What an edge of PPS_IN does where it `takes` TB_VEH along and where it does not. -/
def ppsEdge (s : State) (takes : Bool) : State :=
  ((ppsSeen s).put TMU.PPS_IN_NS_NS (if (ppsSeen s).time.vehInit || !takes then lowBits 32 ((ppsSeen s).veh % 16000000000 / 16) else 0)).when
    takes (fun z => z.measure
      ((if (ppsSeen s).time.vehInit then nearestSec (ppsSeen s).veh else nearestSec (ppsSeen s).mono) * 16000000000 - z.veh) (0, 2) tickS)

theorem exec_ppsInEdge (s : State) (t : Nat) :
    exec (.ppsInEdge t) s = run t (fun z => ppsEdge z (z.on TMU.CTRL_PPS_IN_EN && !z.network)) s := rfl

theorem ppsEdge_false (s : State) : ppsEdge s false = (ppsSeen s).put TMU.PPS_IN_NS_NS (lowBits 32 (s.veh % 16000000000 / 16)) := by
  rw [ppsEdge, when_false rfl, Bool.not_false, Bool.or_true]
  rfl

theorem ppsEdge_true (s : State) : ppsEdge s true =
    ((ppsSeen s).put TMU.PPS_IN_NS_NS (if s.time.vehInit then lowBits 32 (s.veh % 16000000000 / 16) else 0)).measure
      ((if s.time.vehInit then nearestSec s.veh else nearestSec s.mono) * 16000000000 - s.veh) (0, 2) tickS := by
  have hveh : (ppsSeen s).veh = s.veh := rfl
  rw [ppsEdge, when_true rfl, Bool.not_true, Bool.or_false, put_veh, hveh]
  rfl

theorem ppsInEdge_passed {t : Nat} (hrun : s.Running t) (h : (s.at_ t).on TMU.CTRL_PPS_IN_EN = false ∨ (s.at_ t).network = true) :
    Completes (.ppsInEdge t) s (fun u => u.get TMU.PPS_IN_NS_NS = lowBits 32 ((s.at_ t).veh % 16000000000 / 16) ∧
         RegsBut [TMU.PPS_IN_NS.addr] s u ∧ u.time = { s.time with lastPps := some (s.at_ t).mono } ∧ MemKept s u) := by
  have hat := hrun.2.2
  rw [hat] at h ⊢
  have hpass : ((s.clock t).on TMU.CTRL_PPS_IN_EN && !(s.clock t).network) = false := by rcases h with h | h <;> rw [h] <;> simp
  refine completes_ends hrun (exec_ppsInEdge s t) ((congrArg _ hpass).trans (ppsEdge_false _)) hrun.2.1 fun u he =>
    ⟨(he.get _).trans (get_put_of_lt (by decide) (lowBits_lt _ _)), he.regsBut ?_, he.time, he.memKept ?_⟩
  · exact regsBut_put _ (by decide) fun _ _ => rfl
  · exact memKept_of rfl rfl rfl rfl rfl rfl rfl rfl

/-- Settles O10: each command passes its guard, and what is left is `holdover` or `measure`. -/
theorem vehicleTimeSources : Obligations.VehicleTimeSources := by
  refine ⟨fun s t hrun hfollows hlast => holdover_completes hrun hfollows hlast, fun s t hrun => ⟨?_, ?_, ?_, ?_⟩⟩
  · intro p y x intv x1 x2 husable hup hdom hport
    exact exec_syncRx_measured hrun.1 husable hup hdom hport
  · intro x hen hnet
    have htakes : (x.on TMU.CTRL_PPS_IN_EN && !x.network) = true := by rw [hen, hnet]; rfl
    exact exec_run_eq hrun.1 (exec_ppsInEdge s t) ((congrArg _ htakes).trans (ppsEdge_true _))
  · intro x h
    exact ppsInEdge_passed hrun h
  · intro a id hpps hlate hveh hsrc
    exact ppsInLost_completes hrun hpps hlate hveh hsrc

/-! ### What a measurement does -/

theorem base_at_retune (b : Base) (mono : Nat) (rate : Int) : (b.retune mono rate).at_ mono = b.at_ mono := by
  simp [Base.at_, Base.retune]

theorem base_at_step (b : Base) (d mono : Int) : (b.step d).at_ mono = b.at_ mono + d := by
  simp only [Base.at_, Base.step]
  omega

/-- The state in which a measurement against the source `src` is judged. -/
def measuredFrom (s : State) (src : Nat × Nat) : State :=
  ((s.tm (fun x => { x with src := some src })).put TMU.STAT_VEH_PORT_ACT (portAct src.2)).set1If
    (decide (s.time.src.isSome ∧ s.time.src ≠ some src)) TMU.EVT_MASTER_CHANGE

theorem measuredFrom_onlyRegs (s : State) (src : Nat × Nat) :
    OnlyRegs (s.tm (fun x => { x with src := some src })) (measuredFrom s src) := .set1If (.put (.refl _) _ _) _ _

theorem measuredFrom_time (s : State) (src : Nat × Nat) : (measuredFrom s src).time = { s.time with src := some src } :=
  (measuredFrom_onlyRegs s src).time

theorem measuredFrom_get {f : Fld} (s : State) (src : Nat × Nat)
    (h : Leaves TMU.STAT_VEH_PORT_ACT f ∧ Leaves TMU.EVT_MASTER_CHANGE f := by decide) : (measuredFrom s src).get f = s.get f := by
  rw [measuredFrom, get_set1If_other _ h.2, get_put_other _ h.1, tm_get]

/-- The first measurement of TB_VEH. -/
def vehStarted (s : State) (ofs : Int) (port : Nat) : State :=
  (s.tm (fun x => { x with veh := (x.veh.retune s.mono x.veh.rate).step ofs, vehInit := true,
                           ppsLast := if s.get TMU.PPS_OUT_SRC = 3 then none else x.ppsLast })).put TMU.STAT_VEH_STATE (lockState port)

theorem measure_first {ofs : Int} {src : Nat × Nat} {intv : Nat} (h : s.time.vehInit = false) :
    s.measure ofs src intv = (vehStarted (measuredFrom s src) ofs src.2).couple := by
  have hnot : (!(measuredFrom s src).time.vehInit) = true := by simp [measuredFrom_time, h]
  exact if_pos hnot

theorem couple_of_off (h : s.on TMU.CTRL_COUPLE = false) : s.couple = s := by
  refine if_neg ?_
  unfold State.snsTarget
  split <;> simp [h]

theorem lockState_lt (port : Nat) : lockState port < 2 ^ TMU.STAT_VEH_STATE.w := by
  unfold lockState
  split <;> decide

theorem measure_first_shows {ofs : Int} {gm port intv : Nat} (hinit : s.time.vehInit = false) (hcouple : s.on TMU.CTRL_COUPLE = false) :
    (s.measure ofs (gm, port) intv).veh = s.veh + ofs ∧ (s.measure ofs (gm, port) intv).vehState = lockState port ∧
      (s.measure ofs (gm, port) intv).time.vehInit = true ∧ (s.measure ofs (gm, port) intv).time.sns = s.time.sns := by
  have honly := measuredFrom_onlyRegs s (gm, port)
  have hoff : (vehStarted (measuredFrom s (gm, port)) ofs port).on TMU.CTRL_COUPLE = false := by
    rw [vehStarted, on_put_other _ (by decide), tm_on, on_of_get (measuredFrom_get s (gm, port)), hcouple]
  rw [measure_first hinit, couple_of_off hoff]
  refine ⟨?_, get_put_of_lt (by decide) (lockState_lt port), rfl, ?_⟩
  rotate_left
  · exact (congrArg TimeSt.sns (measuredFrom_time s (gm, port)) :)
  show (((measuredFrom s (gm, port)).time.veh.retune _ _).step ofs).at_ ((measuredFrom s (gm, port)).mono) = _
  rw [base_at_step, base_at_retune, measuredFrom_time, honly.mono]
  rfl

theorem refuse_onlyRegs (ofs : Int) (src : Nat × Nat) (fresh : Bool) :
    OnlyRegs (s.tm (fun x => { x with refused := some ofs, stepOfs := none })) (s.refuse ofs src fresh) :=
  .ite (.bump (.set1 (.put (.put (.put (.put (.put (.refl _) _ _) _ _) _ _) _ _) _ _) _) _) (.put (.put (.refl _) _ _) _ _)

/-- A fresh refusal: the offset and the source are recorded, TB_VEH is left. -/
theorem refuse_shows {ofs : Int} {gm port : Nat} :
    (s.refuse ofs (gm, port) true).time.veh = s.time.veh ∧ (s.refuse ofs (gm, port) true).vehState = vehRefused ∧
      (s.refuse ofs (gm, port) true).on TMU.EVT_STEP_REFUSED ∧
      (s.refuse ofs (gm, port) true).get TMU.STEP_REF_CNT = satU 32 (s.get TMU.STEP_REF_CNT + 1) ∧
      (s.refuse ofs (gm, port) true).get TMU.STEP_OFS_LO = lowBits 64 (ofs / 16) % 2 ^ 32 ∧
      (s.refuse ofs (gm, port) true).get TMU.STEP_GM_LO = gm % 2 ^ 32 ∧
      (s.refuse ofs (gm, port) true).time.refused = some ofs := by
  have hrefuse (x : Nat) : x % 2 ^ 32 < 2 ^ 32 := Nat.mod_lt _ (by decide)
  have htime := (refuse_onlyRegs (s := s) ofs (gm, port) true).time
  refine ⟨by rw [htime, tm_time], ?_, ?_, ?_, ?_, ?_, by rw [htime, tm_time]⟩ <;> simp only [State.refuse, if_true]
  · simp (disch := decide) only [State.vehState, get_bump_other, get_set1_other, get_put_of_lt]
  · rw [on_bump_other _ (by decide)]
    exact on_set1_self _ _ (by decide) rfl
  · rw [get_bump_self _ _ (by decide)]
    simp (disch := decide) only [get_set1_other, get_put_other, tm_get]
    rfl
  · simp (disch := decide) only [get_bump_other, get_set1_other, get_put_other]
    exact get_put_of_lt (by decide) (hrefuse _)
  · simp (disch := decide) only [get_bump_other, get_set1_other, get_put_other]
    exact get_put_of_lt (by decide) (hrefuse _)

theorem measure_refused {ofs : Int} {src : Nat × Nat} {intv : Nat} (hinit : s.time.vehInit = true)
    (hlim : s.stepLim < (ofs.natAbs : Int)) (hsrc : s.time.src ≠ some src) :
    s.measure ofs src intv = (measuredFrom s src).refuse ofs src true := by
  have hinit' : (measuredFrom s src).time.vehInit = true := by
    rw [measuredFrom_time]
    exact hinit
  have hlim' : (measuredFrom s src).stepLim < (ofs.natAbs : Int) := by rwa [State.stepLim, measuredFrom_get, ← State.stepLim]
  refine (if_neg ?_).trans ((if_pos hlim').trans ?_)
  · show ¬ (!(measuredFrom s src).time.vehInit) = true
    simp [hinit']
  · simp [hsrc, measuredFrom]

/-- Settles O11: `measure` takes its first branch before TB_VEH is initialised, and its second beyond STEP_LIM. -/
theorem vehicleTimeMeasured : Obligations.VehicleTimeMeasured := by
  intro s ofs gm port intv _
  refine ⟨fun hinit hcouple => measure_first_shows hinit hcouple, fun hinit hlim hsrc => ?_⟩
  rw [measure_refused hinit hlim hsrc]
  obtain ⟨hveh, hstate, hevt, hcnt, hofs, hgm, hrefused⟩ := refuse_shows (s := measuredFrom s (gm, port)) (ofs := ofs) (gm := gm)
    (port := port)
  exact ⟨hveh.trans (by rw [measuredFrom_time]), hstate, hevt, by rw [hcnt, measuredFrom_get], hofs,
    hgm, hrefused⟩

/-! ### gPTP messages -/

/-- `u` has sent `l` and differs from `s` in the gPTP state of a port beside: no register and no memory. -/
def Sends (s : State) (l : List Emit) (u : State) : Prop := u.regs = s.regs ∧ MemKept s u ∧ u.outbox = s.outbox ++ l

theorem sends_of_ends {t : Nat} {l : List Emit} {q : Port} {g : Gptp → Gptp}
    (he : Ends { (s.clock t).gp q g with outbox := s.outbox ++ l } u) : Sends s l u :=
  ⟨he.regs, he.memKept (memKept_of rfl rfl rfl rfl rfl rfl rfl rfl), he.outbox⟩

theorem emit_two (s : State) (a b : Emit) : (s.emit a).emit b = { s with outbox := s.outbox ++ [a, b] } := by
  simp [State.emit]

theorem syncTx_completes {t : Nat} {h : Fin 8} (hrun : s.Running t) (hup : (s.clock t).portUp (.head h) = true)
    (hdue : ∀ a, ((s.clock t).gpOf (.head h)).syncAt = some a → a + ((s.clock t).snsIntv : Int) ≤ (s.clock t).sns) :
    let x := s.clock t
    let q := Port.head h
    let n := ((x.gpOf q).syncSeq + 1) % 2 ^ 16
    Completes (.syncTx t h) s (fun u => Sends s
      [gptpMsg q 0x0 (x.gptpDomain q) 0 n [],
       gptpMsg q 0x8 (x.gptpDomain q) (x.getI (TS.ASYM_ASYM (portPage q)) * 4096) n (timeValue (x.egrMdi q x.sns))] u ∧
      u.gptp = s.gptp.modify (portIdx q) (fun g => { g with syncAt := some x.sns, syncSeq := n })) := by
  intro x q n
  refine completes_ends (z := { x.gp q (fun g => { g with syncAt := some x.sns, syncSeq := n }) with outbox := s.outbox ++ _ }) hrun
    (rfl : _ = execSyncTx t h s) ?_ hrun.2.1 fun u he => ⟨sends_of_ends he, he.gptp⟩
  refine (when_true ?_).trans (emit_two _ _ _)
  rw [hup, Bool.true_and]
  split
  · rfl
  · next a ha => exact decide_eq_true (hdue a ha)

theorem announceTx_completes {t : Nat} {h : Fin 8} (hrun : s.Running t) (hup : (s.clock t).portUp (.head h) = true)
    (hdue : ∀ a, ((s.clock t).gpOf (.head h)).annAt = some a → a + tickS ≤ (s.clock t).mono) :
    Completes (.announceTx t h) s (Sends s
      [gptpMsg (.head h) 0xB ((s.clock t).gptpDomain (.head h)) 0 ((((s.clock t).gpOf (.head h)).annSeq + 1) % 2 ^ 16) []]) := by
  refine completes_ends hrun (rfl : _ = execAnnounceTx t h s) (when_true ?_) hrun.2.1 fun u he => sends_of_ends he
  rw [hup, Bool.true_and]
  split
  · rfl
  · next a ha => exact decide_eq_true (hdue a ha)

theorem pdelayReqTx_completes {t : Nat} {q : Port} (hrun : s.Running t) (hup : (s.clock t).portUp q = true)
    (hdue : ∀ a, ((s.clock t).gpOf q).pdAt = some a → a + tickS ≤ (s.clock t).mono) :
    let x := s.clock t
    let n := ((x.gpOf q).pdSeq + 1) % 2 ^ 16
    Completes (.pdelayReqTx t q) s (fun u => Sends s [gptpMsg q 0x2 (x.gptpDomain q) 0 n []] u ∧
      u.gptp = s.gptp.modify (portIdx q) (fun g => { g with pdAt := some x.mono, pdSeq := n, pdT1 := some (n, x.egrMdi q x.mono) })) := by
  intro x n
  refine completes_ends hrun (rfl : _ = execPdelayReqTx t q s) (when_true ?_) hrun.2.1 fun u he => ⟨sends_of_ends he, he.gptp⟩
  rw [hup, Bool.true_and]
  split
  · rfl
  · next a ha => exact decide_eq_true (hdue a ha)

/-! ### A received message is counted first -/

theorem rxCount_onlyRegs (s : State) (q : Port) : OnlyRegs s (s.rxCount q) := by
  cases q with
  | head h => exact .refl s
  | host p => exact .ite (.bump (.refl s) _) (.refl s)

/-- The count of frames received is no other register field. -/
theorem rxCount_get {f : Fld} (s : State) (q : Port) (h : ∀ p : Fin 2, Leaves (HS.RX_CNT p) f) : (s.rxCount q).get f = s.get f := by
  cases q with
  | head _ => rfl
  | host p =>
    unfold State.rxCount
    dsimp only
    split
    · exact get_bump_other s (h p)
    · rfl

theorem rxCount_portUp (s : State) (q : Port) : (s.rxCount q).portUp q = s.portUp q := by
  cases q with
  | head h => rfl
  | host p => exact on_of_get (rxCount_get s (.host p) (by revert p; decide))

theorem leaves_rxCnt_ing : ∀ (q : Port) (p : Fin 2), Leaves (HS.RX_CNT p) (TS.ING_LAT_LAT (portPage q))
  | .head h, p => by revert h p; decide
  | .host h, p => by revert h p; decide

theorem leaves_rxCnt_egr : ∀ (q : Port) (p : Fin 2), Leaves (HS.RX_CNT p) (TS.EGR_LAT_LAT (portPage q))
  | .head h, p => by revert h p; decide
  | .host h, p => by revert h p; decide

theorem rxCount_ingMdi (s : State) (q : Port) (x : Int) : (s.rxCount q).ingMdi q x = s.ingMdi q x := by
  rw [State.ingMdi, rxCount_get s q (leaves_rxCnt_ing q), State.ingMdi]

theorem rxCount_egrMdi (s : State) (q : Port) (x : Int) : (s.rxCount q).egrMdi q x = s.egrMdi q x := by
  rw [State.egrMdi, rxCount_get s q (leaves_rxCnt_egr q), State.egrMdi]

theorem rxCount_gptpDomain (s : State) (q : Port) : (s.rxCount q).gptpDomain q = s.gptpDomain q := by
  cases q <;> exact rxCount_get s _ (by decide)

/-- The time base in which a port stamps its messages (assumption 39). -/
def stampNow (s : State) : Port → Int
  | .head _ => s.sns
  | .host _ => s.veh

theorem rxCount_stampNow (s : State) (q : Port) : stampNow (s.rxCount q) q = stampNow s q := by
  have honly := rxCount_onlyRegs s q
  cases q
  · rw [stampNow, State.sns, honly.time, honly.mono]; rfl
  · rw [stampNow, State.veh, honly.time, honly.mono]; rfl

theorem execPdelayReqRx_eq (t : Nat) (q : Port) (seq : Nat) (s : State) : execPdelayReqRx t q seq s =
    run t (fun s => (s.rxCount q).when (s.portUp q) (fun s =>
      (s.emit (gptpMsg q 0x3 (s.gptpDomain q) 0 seq (timeValue (s.ingMdi q (stampNow s q))))).emit
        (gptpMsg q 0xA (s.gptpDomain q) 0 seq (timeValue (s.egrMdi q (stampNow s q)))))) s := by
  cases q <;> rfl

theorem pdelayReqRx_completes {t : Nat} {q : Port} {seq : Nat} (hrun : s.Running t) (hup : (s.clock t).portUp q = true) :
    let x := s.clock t
    Completes (.pdelayReqRx t q seq) s (fun u => MemKept s u ∧
      u.outbox = s.outbox ++ [gptpMsg q 0x3 (x.gptpDomain q) 0 seq (timeValue (x.ingMdi q (stampNow x q))),
        gptpMsg q 0xA (x.gptpDomain q) 0 seq (timeValue (x.egrMdi q (stampNow x q)))]) := by
  intro x
  have honly := rxCount_onlyRegs x q
  refine completes_ends hrun ((rfl : _ = execPdelayReqRx t q seq s).trans (execPdelayReqRx_eq t q seq s))
    ((when_true hup).trans (emit_two _ _ _)) ?_ fun u he => ⟨he.memKept ?_, he.outbox.trans ?_⟩
  · exact (congrArg SafetySt.act honly.safety).trans hrun.2.1
  · exact memKept_trans honly.memKept (memKept_of rfl rfl rfl rfl rfl rfl rfl rfl)
  · show (x.rxCount q).outbox ++ _ = _
    rw [honly.outbox, rxCount_gptpDomain, rxCount_stampNow, rxCount_ingMdi, rxCount_egrMdi]
    rfl

theorem pdelayRespRx_completes {t : Nat} {q : Port} {seq : Nat} {turn t1 : Int} (hrun : s.Running t)
    (hup : (s.clock t).portUp q = true) (ht1 : ((s.clock t).gpOf q).pdT1 = some (seq, t1)) :
    let x := s.clock t
    Completes (.pdelayRespRx t q seq turn) s (fun u => MemKept s u ∧ u.outbox = s.outbox ∧
      u.get (TS.PDELAY_DELAY (portPage q)) = lowBits 32 ((x.ingMdi q x.mono - t1 - turn) / 2)) := by
  intro x
  have honly := rxCount_onlyRegs x q
  let y := x.rxCount q
  let z := (y.gp q (fun g => { g with pdT1 := none })).put (TS.PDELAY_DELAY (portPage q)) (lowBits 32 ((y.ingMdi q y.mono - t1 - turn) / 2))
  have hz : OnlyRegs (y.gp q (fun g => { g with pdT1 := none })) z := .put (.refl _) _ _
  have hwait : (y.gpOf q).pdT1 = some (seq, t1) := by rwa [State.gpOf, honly.gptp, ← State.gpOf]
  refine completes_ends (z := z) hrun (rfl : _ = execPdelayRespRx t q seq turn s) ?_ ?_ fun u he => ⟨he.memKept ?_, he.outbox.trans ?_, ?_⟩
  · show (match (y.gpOf q).pdT1 with
        | none => y
        | some (n, t1) => y.when (y.portUp q && n = seq) _) = z
    rw [hwait]
    exact when_true (by simp [y, rxCount_portUp, hup, x])
  · rw [hz.safety]
    exact (congrArg SafetySt.act honly.safety).trans hrun.2.1
  · exact memKept_trans honly.memKept (memKept_trans (memKept_of rfl rfl rfl rfl rfl rfl rfl rfl) hz.memKept)
  · exact hz.outbox.trans honly.outbox
  · rw [he.get]
    refine (get_put_of_lt (show 0 + 32 ≤ 32 by decide) (lowBits_lt _ _)).trans ?_
    show lowBits 32 _ = _
    rw [rxCount_ingMdi, honly.mono]

/-- Settles O13: a message that is due is sent with its port's domain; what is received is counted first, which none of the registers that
the answer reads shows. That a responder stamps in the time base of its port is assumption 39, the model's choice. -/
theorem gptpMessages : Obligations.GptpMessages := by
  intro s t hrun
  rw [hrun.2.2]
  refine ⟨fun h => ⟨fun hup hdue => ?_, fun hup hdue => ?_, ?_⟩, fun q hup hdue => ?_, fun q seq hup => ?_, fun q seq turn t1 hup ht1 => ?_⟩
  · refine completes_mono (syncTx_completes hrun hup hdue) fun u ⟨⟨hregs, hmem, hout⟩, hg⟩ => ⟨hregs, hmem, hout, hg⟩
  · exact announceTx_completes hrun hup hdue
  · exact completes_ends hrun (rfl : _ = execAnnounceRx t h s) rfl hrun.2.1 fun u he => ⟨he.regs, he.outbox, he.time, he.gptp⟩
  · refine completes_mono (pdelayReqTx_completes hrun hup hdue) fun u ⟨⟨hregs, hmem, hout⟩, hg⟩ => ⟨hregs, hmem, hout, hg⟩
  · refine completes_mono (pdelayReqRx_completes (seq := seq) hrun hup) fun u h => ?_
    cases q <;> exact h
  · exact pdelayRespRx_completes hrun hup ht1

end Sys2Proof.Proofs
end

section
/-! PROOFS. Angle events, trackers, wedges and marks (R65 to R74): an event that has fired is not due again in its pass; the scheduler sets a
bit or makes a wedge due; wedges that close in Midnight join the backlog with what was in effect; a mark keeps what its requests do not
touch. -/

namespace Sys2Proof.Proofs

open Sys2Proof.Machine Sys2Proof.Laws

variable {s u v : State}

/-! ### Parts of lists after a change of one of them -/

theorem getD_modify_self {α : Type} (l : List α) (i : Nat) (f : α → α) (d : α) (h : i < l.length) :
    (l.modify i f).getD i d = f (l.getD i d) := by
  simp [List.getD, h]

theorem getD_modify_of_ne {α : Type} (l : List α) {i j : Nat} (f : α → α) (d : α) (h : j ≠ i) : (l.modify i f).getD j d = l.getD j d := by
  simp [List.getD, Ne.symm h]

/-- A change that leaves a part of an element leaves it of every element. -/
theorem getD_modify_part {α β : Type} (l : List α) (i j : Nat) (f : α → α) (d : α) (g : α → β) (h : ∀ x, g (f x) = g x) :
    g ((l.modify i f).getD j d) = g (l.getD j d) := by
  by_cases hij : j = i
  · subst hij
    by_cases hj : j < l.length
    · rw [getD_modify_self _ _ _ _ hj, h]
    · simp [List.getD, hj]
  · rw [getD_modify_of_ne _ _ _ hij]

/-! ### Angle events -/

theorem fire_lastPass (s : State) (h key a h' a' : Nat) : (s.fire h key a).lastPass h' a' = s.lastPass h' a' := by
  have hpart {β : Type} (g : Tracker → β) (hg : ∀ (x : Tracker) (l : List (Nat × Int)), g { x with fired := l } = g x) :
      g ((s.fire h key a).tk h') = g (s.tk h') := getD_modify_part _ _ _ _ _ g fun x => hg x _
  have hangle : (s.fire h key a).angle h' = s.angle h' := by
    unfold State.angle
    dsimp only
    rw [hpart (fun x => x.fbAt) fun _ _ => rfl, hpart (fun x => x.fbPos) fun _ _ => rfl, hpart (fun x => x.r) fun _ _ => rfl,
      hpart (fun x => x.t0) fun _ _ => rfl, hpart (fun x => x.pos) fun _ _ => rfl]
    rfl
  rw [State.lastPass, hangle, State.lastPass]

theorem fired_not_due {h key a : Nat} (hh : h < s.trackers.length) : (s.fire h key a).due? h key a = false := by
  have hfired : ((s.fire h key a).tk h).fired = ins key (s.lastPass h a) (s.tk h).fired := by
    rw [State.tk, State.fire, State.setTk, getD_modify_self _ _ _ _ hh]
    rfl
  rw [State.due?, fire_lastPass, hfired, find_ins_self]
  simp

theorem leaves_sectShed_level : ∀ h : Fin 8, Leaves (HP.SECT_SHED h) (ING.SHED_STAT_LEVEL (ingOf h)) := by decide

/-- The angle of a sector's start (R68). -/
def sectorAngle (x : State) (h : Fin 8) (k : Nat) : Nat := k * 2 ^ 24 / 2 ^ x.get (AT.CFG_SECT_LOG2 h)

/-- The start of sector `k` is due and the first to fire. -/
def sectorDue (x : State) (h : Fin 8) (k : Nat) : Bool :=
  decide (k < 2 ^ x.get (AT.CFG_SECT_LOG2 h)) && x.due? h (keySector k) (sectorAngle x h k) && x.first? h (sectorAngle x h k)
    ((List.range (2 ^ x.get (AT.CFG_SECT_LOG2 h))).map (fun i => (keySector i, sectorAngle x h i)))

/-- The sector's shed count cleared. -/
def sectorCleared (x : State) (h : Fin 8) (k : Nat) : State := (x.fire h (keySector k) (sectorAngle x h k)).put (HP.SECT_SHED h) 0

/-- What a sector start does. -/
def sectorStarts (x : State) (h : Fin 8) (k : Nat) : State :=
  (sectorCleared x h k).setHd h (fun z => { z with level := (sectorCleared x h k).get (ING.SHED_STAT_LEVEL (ingOf h)) })

theorem exec_sectorStart (s : State) (t : Nat) (h : Fin 8) (k : Nat) : exec (.sectorStart t h k) s =
    run t (fun z => if sectorDue z.closeDue h k then sectorStarts z.closeDue h k else z.closeDue) s := rfl

theorem sectorCleared_onlyRegs (x : State) (h : Fin 8) (k : Nat) :
    OnlyRegs (x.fire h (keySector k) (sectorAngle x h k)) (sectorCleared x h k) := .put (.refl _) _ _

theorem sectorCleared_level (x : State) (h : Fin 8) (k : Nat) :
    (sectorCleared x h k).get (ING.SHED_STAT_LEVEL (ingOf h)) = x.get (ING.SHED_STAT_LEVEL (h / 4)) :=
  get_put_other _ (leaves_sectShed_level h) 0

theorem sectorStart_completes {t : Nat} {h : Fin 8} {k : Nat} (hrun : s.Running t) (hact : (s.at_ t).closeDue.safety.act = 0)
    (hdue : sectorDue (s.at_ t).closeDue h k = true) :
    let x := (s.at_ t).closeDue
    Completes (.sectorStart t h k) s (fun u => u.get (HP.SECT_SHED h) = 0 ∧
      u.heads = x.heads.modify h (fun y => { y with level := x.get (ING.SHED_STAT_LEVEL (h / 4)) }) ∧
      u.trackers = x.trackers.modify h (fun k' => { k' with fired := ins (keySector k) (x.lastPass h (sectorAngle x h k)) k'.fired }) ∧
      RegsBut [(HP.SECT_SHED h).addr] x u ∧ u.outbox = x.outbox ∧ MemKept x u) := by
  intro x
  have honly := sectorCleared_onlyRegs x h k
  refine completes_at (z := sectorStarts x h k) hrun.1 (exec_sectorStart s t h k) (if_pos hdue) ?_ fun u he => ⟨?_, ?_, ?_, he.regsBut ?_, ?_, he.memKept ?_⟩
  · exact (congrArg SafetySt.act honly.safety).trans hact
  · rw [he.get, sectorStarts, setHd_get]
    exact get_put_of_lt (show 0 + 32 ≤ 32 by decide) (show 0 < 2 ^ 32 by decide)
  · rw [he.heads, sectorStarts, sectorCleared_level, setHd_heads, honly.heads]
    rfl
  · rw [he.trackers, sectorStarts, setHd_trackers, honly.trackers]
    rfl
  · intro b hb
    rw [sectorStarts, setHd_reg, sectorCleared, reg_put_of_ne _ (by simpa using hb)]
    rfl
  · rw [he.outbox, sectorStarts, setHd_outbox, honly.outbox]
    rfl
  · exact memKept_trans (memKept_of rfl rfl rfl rfl rfl rfl rfl rfl) (memKept_trans honly.memKept (memKept_of rfl rfl rfl rfl rfl rfl rfl rfl))

/-- Settles O14: an event fires at the position that `due?` asks about; the first clause of each of the three commands is its guard. -/
theorem sectorAndTwilightEvents : Obligations.SectorAndTwilightEvents := by
  refine ⟨fun s h key a hh => fired_not_due hh, ?_⟩
  intro s t h hrun x
  refine ⟨?_, fun htwi hdue => ?_, fun htwi hdue => ?_⟩
  · intro k hact hk n a hdue hfirst
    have hgo : sectorDue x h k = true := by
      rw [sectorDue, Bool.and_eq_true, Bool.and_eq_true]
      exact ⟨⟨decide_eq_true hk, hdue⟩, hfirst⟩
    exact sectorStart_completes hrun hact hgo
  · refine exec_run_eq hrun.1 (rfl : _ = execTwilightSlotClose t h s) ?_
    exact when_true (by simp only [x] at htwi hdue ⊢; rw [htwi, hdue]; rfl)
  · refine exec_run_eq hrun.1 (rfl : _ = execTwilightSlotOpen t h s) ?_
    exact when_true (by simp only [x] at htwi hdue ⊢; rw [htwi, hdue]; rfl)

/-! ### Trackers -/

theorem leaves_fbCnt : ∀ h : Fin 8, Leaves (AT.FB_CNT h) (AT.EVT_SAMPLE_GAP h) ∧ Leaves (AT.FB_CNT h) (AT.EVT_FALLBACK h) ∧
    Leaves (AT.FB_CNT h) (AT.STAT_STATE h) := by decide

theorem leaves_fallback : ∀ h : Fin 8, Leaves (AT.EVT_FALLBACK h) (AT.EVT_SAMPLE_GAP h) ∧ Leaves (AT.EVT_FALLBACK h) (AT.STAT_STATE h) ∧
    Leaves (AT.EVT_FALLBACK h) (AT.FB_CNT h) ∧ Leaves (AT.EVT_SAMPLE_GAP h) (AT.FB_CNT h) ∧ Leaves (AT.STAT_STATE h) (AT.FB_CNT h) ∧
    Leaves (AT.STAT_STATE h) (AT.EVT_SAMPLE_GAP h) := by decide

/-- The tracker as it enters FALLBACK from the state `k`. -/
def fallbackFrom (s : State) (k k' : Tracker) : Tracker :=
  { k' with t0 := k.t0, pos := k.pos, r := k.r, fbAt := s.monoNs, fbPos := predictAt k.t0 k.pos k.r s.snsNs, acq := {}, bad := 0 }

/-- Entry to FALLBACK on one condition. -/
theorem toFallback_shows (s : State) (h : Fin 8) (k : Tracker) :
    let z := s.toFallback h k [AT.EVT_SAMPLE_GAP h]
    z.atState h = atFallback ∧ z.on (AT.EVT_SAMPLE_GAP h) ∧ z.on (AT.EVT_FALLBACK h) ∧ z.get (AT.FB_CNT h) = satU 32 (s.get (AT.FB_CNT h) + 1) ∧
      RegsBut [(AT.STAT h).addr, (AT.EVT h).addr, (AT.FB_CNT h).addr] s z := by
  intro z
  have hz : z = ((((s.setTk h _).set1 (AT.EVT_SAMPLE_GAP h)).put (AT.STAT_STATE h) atFallback).set1 (AT.EVT_FALLBACK h)).bump (AT.FB_CNT h) := rfl
  obtain ⟨hc1, hc2, hc3⟩ := leaves_fbCnt h
  obtain ⟨he1, he2, he3, he4, he5, he6⟩ := leaves_fallback h
  rw [hz]
  refine ⟨?_, ?_, ?_, ?_, ?_⟩
  · rw [State.atState, get_bump_other _ hc3, get_set1_other _ he2]
    exact get_put_of_lt (show 0 + 3 ≤ 32 by decide) (show 3 < 2 ^ 3 by decide)
  · rw [on_bump_other _ hc1, on_set1_other _ he1, on_put_other _ he6]
    exact on_set1_self _ _ (show 5 + 1 ≤ 32 by decide) rfl
  · rw [on_bump_other _ hc2]
    exact on_set1_self _ _ (show 3 + 1 ≤ 32 by decide) rfl
  · rw [get_bump_self _ _ (show 0 + 32 ≤ 32 by decide), get_set1_other _ he3, get_put_other _ he5, get_set1_other _ he4]
    rfl
  · exact regsBut_bump (by simp [AT.FB_CNT]) (regsBut_set1 (by simp [AT.EVT_FALLBACK, AT.EVT]) (regsBut_put _ (by simp [AT.STAT_STATE, AT.STAT])
      (regsBut_set1 (by simp [AT.EVT_SAMPLE_GAP, AT.EVT]) fun _ _ => rfl)))

theorem toFallback_onlyRegs (s : State) (h : Nat) (k : Tracker) (evts : List Fld) :
    OnlyRegs (s.setTk h (fallbackFrom s k)) (s.toFallback h k evts) :=
  .bump (.set1 (.put (.foldl (.refl _) fun _ _ hw => hw.set1 _) _ _) _) _

theorem sampleGap_completes {t : Nat} {h : Fin 8} (hrun : s.Running t) (hlocked : s.atState h = atLocked)
    (hgap : (s.tk h).lastArr + 2 * tickMs ≤ max s.mono t) :
    Completes (.sampleGap t h) s (fun u => u.atState h = atFallback ∧ u.on (AT.EVT_SAMPLE_GAP h) ∧ u.on (AT.EVT_FALLBACK h) ∧
       u.get (AT.FB_CNT h) = satU 32 (s.get (AT.FB_CNT h) + 1) ∧
       u.trackers = s.trackers.modify h (fun k => { k with
         t0 := (s.tk h).t0, pos := (s.tk h).pos, r := (s.tk h).r, fbAt := (s.at_ t).monoNs
         fbPos := predictAt (s.tk h).t0 (s.tk h).pos (s.tk h).r (s.at_ t).snsNs, acq := {}, bad := 0 }) ∧
       RegsBut [(AT.STAT h).addr, (AT.EVT h).addr, (AT.FB_CNT h).addr] s u ∧ u.time = s.time ∧ u.outbox = s.outbox ∧ MemKept s u) := by
  have hat := hrun.2.2
  rw [hat]
  have honly := toFallback_onlyRegs (s.clock t) h (s.tk h) [AT.EVT_SAMPLE_GAP h]
  obtain ⟨hstate, hevt, hfb, hcnt, hregs⟩ := toFallback_shows (s.clock t) h (s.tk h)
  refine completes_ends (z := (s.clock t).toFallback h (s.tk h) [AT.EVT_SAMPLE_GAP h]) hrun (rfl : _ = execSampleGap t h s) ?_ ?_ fun u he =>
    ⟨(he.get _).trans hstate, (he.on _).trans hevt, (he.on _).trans hfb, (he.get _).trans hcnt, he.trackers.trans honly.trackers,
      he.regsBut hregs, he.time.trans honly.time, he.outbox.trans honly.outbox, he.memKept (memKept_trans ?_ honly.memKept)⟩
  · refine when_true ?_
    rw [Bool.and_eq_true]
    exact ⟨decide_eq_true hlocked, decide_eq_true hgap⟩
  · rw [honly.safety]
    exact hrun.2.1
  · exact memKept_of rfl rfl rfl rfl rfl rfl rfl rfl

/-- Settles O15: SAMPLE_GAP is `toFallback` on one condition; STOPPED has the meaning stated. -/
theorem trackerFallsBackAndStops : Obligations.TrackerFallsBackAndStops := by
  refine ⟨fun s t h hrun hlocked hgap => sampleGap_completes hrun hlocked hgap, ?_⟩
  intro s t h hrun hfb hturned y
  refine exec_run_eq hrun.1 (rfl : _ = execStopped t h s) (when_true ?_)
  rw [hrun.2.2] at hturned ⊢
  rw [Bool.and_eq_true]
  exact ⟨decide_eq_true hfb, decide_eq_true hturned⟩

end Sys2Proof.Proofs
end

section
/-! PROOFS. The wedge scheduler (R71 to R73): a far-edge crossing, the timer and a commit point make a wedge due; wedges that close in Midnight
join the backlog in order, each with the registers in effect, and no commit point takes place. -/

namespace Sys2Proof.Proofs

open Sys2Proof.Machine Sys2Proof.Laws

variable {s u v : State}

/-! ### What makes a wedge due -/

/-- A crossing of the far edge of `w` sets the head's bit where the head is LOCKED and starts the timer. -/
def crossing (f : State) (h : Fin 8) (w : Fin 64) (k : WedgeSt) : WedgeSt :=
  { k.enter (f.entryAt h w) with
    mask := if f.atState h = atLocked then Nat.lor (k.enter (f.entryAt h w)).mask (2 ^ h.val) else (k.enter (f.entryAt h w)).mask
    timer := (k.enter (f.entryAt h w)).timer.orElse (fun _ => some f.mono)
    timerSns := if (k.enter (f.entryAt h w)).timer.isNone then f.snsNs else (k.enter (f.entryAt h w)).timerSns }

/-- The wedge is due where its mask is complete. -/
def dueIfComplete (y : State) (w : Fin 64) (hs : Nat) : State := if Nat.land (y.wd w).mask hs = hs then y.wedgeDue w else y

/-- The crossing is due and the first to fire. -/
def farDue (x : State) (h : Fin 8) (w : Fin 64) : Bool :=
  x.covers h w && x.due? h (keyFar w) (x.farAngle h w) && x.first? h (x.farAngle h w) (x.farEvents h)

/-- The crossing recorded as fired. -/
def farFired (x : State) (h : Fin 8) (w : Fin 64) : State := x.fire h (keyFar w) (x.farAngle h w)

theorem exec_farEdgeCrossing (s : State) (t : Nat) (h : Fin 8) (w : Fin 64) : exec (.farEdgeCrossing t h w) s =
    run t (fun x => if farDue x h w then
      (if !(farFired x h w).schedules || !bitOf ((farFired x h w).maskHeads w) h then farFired x h w
       else dueIfComplete ((farFired x h w).setWd w (crossing (farFired x h w) h w)) w ((farFired x h w).maskHeads w)) else x) s := rfl

theorem lor_ite (c : Prop) [Decidable c] (m b : Nat) : (if c then Nat.lor m b else m) = Nat.lor m (if c then b else 0) := by
  split
  · rfl
  · exact (Nat.or_zero m).symm

theorem exec_farEdgeCrossing_due {t : Nat} {h : Fin 8} {w : Fin 64} (hr : s.released = true) (hsched : (s.at_ t).schedules = true)
    (hdue : farDue (s.at_ t) h w = true) (hbit : bitOf ((s.at_ t).maskHeads w) h = true) :
    exec (.farEdgeCrossing t h w) s = .next ((s.at_ t).finish (dueIfComplete
      ((farFired (s.at_ t) h w).setWd w (crossing (farFired (s.at_ t) h w) h w)) w ((s.at_ t).maskHeads w))) := by
  refine exec_run_eq hr (exec_farEdgeCrossing s t h w) ((if_pos hdue).trans ((if_neg ?_).trans rfl))
  rw [show (farFired (s.at_ t) h w).schedules = true from hsched,
    show (farFired (s.at_ t) h w).maskHeads w = (s.at_ t).maskHeads w from rfl, hbit]
  decide

theorem exec_wedgeTimeout_due {t a : Nat} {w : Fin 64} (hrun : s.Running t) (hsched : s.schedules = true) (htimer : (s.wd w).timer = some a)
    (hlate : a + s.get TMU.WEDGE_TO_US * tickUs ≤ (s.at_ t).mono) (hheads : (s.at_ t).maskHeads w ≠ 0) :
    exec (.wedgeTimeout t w) s = .next ((s.at_ t).finish ((s.at_ t).wedgeDue w)) := by
  refine exec_run_eq hrun.1 (rfl : _ = execWedgeTimeout t w s) (when_true ?_)
  rw [hrun.2.2] at *
  rw [show ((s.clock t).wd w).timer = some a from htimer, show (s.clock t).schedules = true from hsched]
  simp only [Bool.and_true, Bool.and_eq_true, decide_eq_true_eq]
  exact ⟨hlate, by simpa using hheads⟩

theorem exec_wedgeCloseAfterCommit_due {t a : Nat} {w : Fin 64} (hrun : s.Running t) (hsched : s.schedules = true)
    (hafter : (s.wd w).after = some a) (hlate : evalStep a < evalStep (s.at_ t).mono) (hheads : (s.at_ t).maskHeads w ≠ 0) :
    exec (.wedgeCloseAfterCommit t w) s = .next ((s.at_ t).finish ((s.at_ t).wedgeDue w)) := by
  refine exec_run_eq hrun.1 (rfl : _ = execWedgeCloseAfterCommit t w s) (when_true ?_)
  rw [hrun.2.2] at *
  rw [show ((s.clock t).wd w).after = some a from hafter, show (s.clock t).schedules = true from hsched]
  simp only [Bool.and_true, Bool.and_eq_true, decide_eq_true_eq]
  exact ⟨hlate, by simpa using hheads⟩

/-! ### Wedges that close in Midnight -/

/-- A wedge that closes: what it is known by, and whether it has latched already. -/
def closingJob (s : State) (e : Nat × Bool) : WJob × Bool :=
  if (s.wd e.1).after.isSome then (s.latch (s.closing e.1 e.2), true) else (s.closing e.1 e.2, false)

/-- The frame of a closing wedge expected, its mask and timers emptied. -/
def closeOne (s : State) (e : WJob × Bool) : State :=
  (s.expectWedge e.1).setWd e.1.w (fun x =>
    { x with mask := 0, timer := none, after := none, due := none, opened := none, prev := some e.1.tClose })

/-- A closed wedge put into the backlog. -/
def joinOne (s : State) (e : WJob × Bool) : State := s.joinBacklog (if e.2 then e.1 else s.latch e.1)

/-- The instant at which a wedge closes, TB_SNS ns. -/
def closeAt (s : State) (w : Nat) : Int := s.time.sns.at_ ((s.wd w).due.getD s.mono) / 16

theorem enter_due (x : WedgeSt) : ∀ e, (x.enter e).due = x.due
  | none => rfl
  | some _ => (apply_ite WedgeSt.due _ _ _).trans (ite_self _)

theorem foldl_enter_due (s : State) (w cover : Nat) (l : List Nat) (x : WedgeSt) :
    (l.foldl (fun x h => if bitOf cover h then WedgeSt.enter x (s.entryAt h w) else x) x).due = x.due := by
  refine List.foldlRecOn (motive := fun y : WedgeSt => y.due = x.due) l _ rfl fun y hy h _ => ?_
  split
  · exact (enter_due y _).trans hy
  · exact hy

theorem closingJob_shows (s : State) (e : Nat × Bool) : (closingJob s e).1.w = e.1 ∧ (closingJob s e).1.timeout = e.2 ∧
    (closingJob s e).1.tClose = closeAt s e.1 ∧ ((closingJob s e).2 = true → (closingJob s e).1.regs = s.regs) := by
  have hclose : (s.closing e.1 e.2).tClose = closeAt s e.1 := by
    unfold State.closing closeAt
    dsimp only
    rw [foldl_enter_due]
  unfold closingJob
  split
  · exact ⟨rfl, rfl, hclose, fun _ => rfl⟩
  · exact ⟨rfl, rfl, hclose, fun h => absurd h Bool.false_ne_true⟩

/-- A wedge as it stands after its close at `c`. -/
def ClosedAt (x : WedgeSt) (c : Int) : Prop := x.mask = 0 ∧ x.timer = none ∧ x.due = none ∧ x.prev = some c

theorem closeOne_wd_self (s : State) (e : WJob × Bool) (h : e.1.w < s.wedges.length) : ClosedAt ((closeOne s e).wd e.1.w) e.1.tClose := by
  rw [State.wd, closeOne, State.setWd, getD_modify_self _ _ _ _ (by exact h)]
  exact ⟨rfl, rfl, rfl, rfl⟩

theorem closeOne_wd_of_ne (s : State) (e : WJob × Bool) {w : Nat} (h : w ≠ e.1.w) : (closeOne s e).wd w = s.wd w :=
  getD_modify_of_ne _ _ _ h

theorem closeOne_length (s : State) (e : WJob × Bool) : (closeOne s e).wedges.length = s.wedges.length := List.length_modify ..

/-- A close of any wedge at its instant leaves a closed wedge closed at its own. -/
theorem closeOne_keeps {e : WJob × Bool} {w : Nat} {c : Nat → Int} (he : e.1.tClose = c e.1.w) (hw : w < s.wedges.length)
    (h : ClosedAt (s.wd w) (c w)) : ClosedAt ((closeOne s e).wd w) (c w) := by
  by_cases hne : w = e.1.w
  · subst hne
    rw [← he]
    exact closeOne_wd_self s e hw
  · rwa [closeOne_wd_of_ne s e hne]

theorem foldl_closeOne_keeps {c : Nat → Int} {w : Nat} (js : List (WJob × Bool)) (hjs : ∀ e ∈ js, e.1.tClose = c e.1.w)
    (hw : w < s.wedges.length) (h : ClosedAt (s.wd w) (c w)) : ClosedAt ((js.foldl closeOne s).wd w) (c w) := by
  induction js generalizing s with
  | nil => exact h
  | cons e js ih =>
    obtain ⟨he, hjs⟩ := List.forall_mem_cons.mp hjs
    exact ih hjs (by rwa [closeOne_length]) (closeOne_keeps he hw h)

theorem foldl_closeOne_closed {c : Nat → Int} {w : Nat} (js : List (WJob × Bool)) (hjs : ∀ e ∈ js, e.1.tClose = c e.1.w)
    (hw : w < s.wedges.length) (hmem : w ∈ js.map (fun e => e.1.w)) : ClosedAt ((js.foldl closeOne s).wd w) (c w) := by
  induction js generalizing s with
  | nil => cases hmem
  | cons e js ih =>
    obtain ⟨he, hjs⟩ := List.forall_mem_cons.mp hjs
    have hlen : w < (closeOne s e).wedges.length := by rwa [closeOne_length]
    rcases List.mem_cons.mp hmem with rfl | hmem
    · exact foldl_closeOne_keeps js hjs hlen (he ▸ closeOne_wd_self s e hw)
    · exact ih hjs hlen hmem

/-- Closing changes the wedges and the expectations alone. -/
def OnlyClosing (s u : State) : Prop := u = { s with wedges := u.wedges, out := { s.out with expects := u.out.expects } }

theorem foldl_closeOne_only (s : State) (js : List (WJob × Bool)) : OnlyClosing s (js.foldl closeOne s) := by
  refine List.foldlRecOn js closeOne (motive := OnlyClosing s) rfl fun w hw e _ => ?_
  unfold OnlyClosing at *
  rw [hw]
  rfl

theorem foldl_closeOne_expects (s : State) (js : List (WJob × Bool)) :
    (js.foldl closeOne s).out.expects.length = s.out.expects.length + js.length := by
  induction js generalizing s with
  | nil => rfl
  | cons e js ih =>
    rw [List.foldl_cons, ih, show (closeOne s e).out.expects = s.out.expects ++ [_] from rfl, List.length_append]
    simp only [List.length_cons, List.length_nil]
    omega

/-- Joining the backlog changes the pipeline and the period's maximum alone. -/
def OnlyJoining (s u : State) : Prop := u = { s with pipe := u.pipe, age := u.age }

theorem foldl_joinOne_only (s : State) (js : List (WJob × Bool)) : OnlyJoining s (js.foldl joinOne s) := by
  refine List.foldlRecOn js joinOne (motive := OnlyJoining s) rfl fun w hw e _ => ?_
  unfold OnlyJoining at *
  rw [hw]
  rfl

/-- The job of a closed wedge as it joins the backlog. -/
def Joined (s : State) (e : WJob × Bool) (j : WJob) : Prop :=
  j.w = e.1.w ∧ j.timeout = e.1.timeout ∧ j.tClose = e.1.tClose ∧ ((e.2 = true → e.1.regs = s.regs) → j.regs = s.regs)

theorem joinOne_backlog (s : State) (e : WJob × Bool) : ∃ j, (joinOne s e).pipe.backlog = s.pipe.backlog ++ [j] ∧
    j.seq = s.pipe.closes ∧ Joined s e j := by
  refine ⟨_, rfl, rfl, ?_⟩
  cases h : e.2
  · exact ⟨rfl, rfl, rfl, fun _ => rfl⟩
  · exact ⟨rfl, rfl, rfl, fun hregs => hregs h⟩

theorem foldl_joinOne_backlog (s : State) (js : List (WJob × Bool)) : ∃ l : List WJob,
    (js.foldl joinOne s).pipe.backlog = s.pipe.backlog ++ l ∧ (js.foldl joinOne s).pipe.closes = s.pipe.closes + js.length ∧
      l.map (fun j => j.seq) = (List.range js.length).map (fun i => s.pipe.closes + i) ∧ List.Forall₂ (Joined s) js l := by
  induction js generalizing s with
  | nil => exact ⟨[], (List.append_nil _).symm, rfl, rfl, .nil⟩
  | cons e js ih =>
    obtain ⟨j, hback, hseq, hj⟩ := joinOne_backlog s e
    obtain ⟨l, hl, hcloses, hseqs, hall⟩ := ih (joinOne s e)
    have hone : (joinOne s e).pipe.closes = s.pipe.closes + 1 := rfl
    refine ⟨j :: l, ?_, ?_, ?_, .cons hj hall⟩
    · rw [List.foldl_cons, hl, hback, List.append_assoc, List.singleton_append]
    · rw [List.foldl_cons, hcloses, hone, List.length_cons]
      omega
    · rw [List.map_cons, hseq, hseqs, hone, List.length_cons, List.range_succ_eq_map, List.map_cons, List.map_map]
      refine congrArg _ (List.map_congr_left fun i _ => ?_)
      simp only [Function.comp_apply]
      omega

/-- The marks that a close leaves in the safety state (R13, R15). -/
def closeMarked (s : State) : State :=
  { s with safety := { s.safety with wedgeSeen := s.safety.wedgeSeen || decide (s.dev = dsNoon),
                                     survive := s.safety.survive && !decide (s.dev = dsNoon) } }

theorem closeMarked_regs (s : State) : (closeMarked s).regs = s.regs := rfl
theorem closeMarked_pipe (s : State) : (closeMarked s).pipe = s.pipe := rfl
theorem closeMarked_out (s : State) : (closeMarked s).out = s.out := rfl
theorem closeMarked_wd (s : State) (w : Nat) : (closeMarked s).wd w = s.wd w := rfl

theorem closeWedges_eq {ws : List (Nat × Bool)} (hws : ws ≠ []) : s.closeWedges ws =
    closeMarked ((ws.map (closingJob s)).foldl joinOne (if ((ws.map (closingJob s)).foldl closeOne s).dev = dsMidnight then
      (ws.map (closingJob s)).foldl closeOne s else ((ws.map (closingJob s)).foldl closeOne s).commitPoint)) :=
  if_neg (by simpa using hws)

/-- In Midnight a close is `closeOne` and `joinOne` of each wedge, and no commit point. -/
theorem closeWedges_midnight (hdev : s.dev = dsMidnight) (ws : List (Nat × Bool)) (hws : ws ≠ []) :
    s.closeWedges ws = closeMarked ((ws.map (closingJob s)).foldl joinOne ((ws.map (closingJob s)).foldl closeOne s)) := by
  have hstay : ((ws.map (closingJob s)).foldl closeOne s).dev = dsMidnight := by rwa [foldl_closeOne_only s (ws.map (closingJob s))]
  rw [closeWedges_eq hws, if_pos hstay]

theorem closingJobs_map (s : State) (ws : List (Nat × Bool)) :
    (ws.map (closingJob s)).map (fun e => (e.1.w, e.1.timeout)) = ws := by
  rw [List.map_map]
  refine (List.map_congr_left fun e _ => ?_).trans (List.map_id ws)
  obtain ⟨hw, ht, -, -⟩ := closingJob_shows s e
  exact Prod.ext hw ht

theorem joined_of_forall₂ {js : List (WJob × Bool)} {l : List WJob} (h : List.Forall₂ (Joined s) js l) :
    l.map (fun j => (j.w, j.timeout)) = js.map (fun e => (e.1.w, e.1.timeout)) ∧
      ∀ j ∈ l, ∃ e ∈ js, Joined s e j := by
  induction h with
  | nil => exact ⟨rfl, fun _ h => absurd h List.not_mem_nil⟩
  | cons hj _ ih =>
    obtain ⟨hw, ht, -, -⟩ := id hj
    refine ⟨by rw [List.map_cons, List.map_cons, ih.1, hw, ht], ?_⟩
    rintro j (_ | hmem)
    · exact ⟨_, List.mem_cons_self, hj⟩
    · obtain ⟨e, he, hje⟩ := ih.2 j (by assumption)
      exact ⟨e, List.mem_cons_of_mem _ he, hje⟩

theorem closeWedges_midnight_shows (hdev : s.dev = dsMidnight) (ws : List (Nat × Bool)) :
    let u := s.closeWedges ws
    u.regs = s.regs ∧ u.shadow = s.shadow ∧ u.time = s.time ∧ u.pipe.closes = s.pipe.closes + ws.length ∧
     (∃ js : List WJob, u.pipe.backlog = s.pipe.backlog ++ js ∧ js.map (fun j => (j.w, j.timeout)) = ws ∧
       js.map (fun j => j.seq) = (List.range ws.length).map (fun i => s.pipe.closes + i) ∧
       ∀ j ∈ js, j.tClose = closeAt s j.w ∧ j.regs = s.regs) ∧
     u.out.expects.length = s.out.expects.length + ws.length ∧
     (∀ w ∈ ws.map Prod.fst, w < s.wedges.length → ClosedAt (u.wd w) (closeAt s w)) := by
  intro u
  by_cases hws : ws = []
  · subst hws
    exact ⟨rfl, rfl, rfl, rfl, ⟨[], (List.append_nil _).symm, rfl, rfl, fun _ h => absurd h List.not_mem_nil⟩, rfl,
      fun _ h => absurd h List.not_mem_nil⟩
  let js := ws.map (closingJob s)
  have hu : u = closeMarked (js.foldl joinOne (js.foldl closeOne s)) := closeWedges_midnight hdev ws hws
  have hclosing := foldl_closeOne_only s js
  have hjoining := foldl_joinOne_only (js.foldl closeOne s) js
  have hjs : ∀ e ∈ js, e.1.tClose = closeAt s e.1.w ∧ (e.2 = true → e.1.regs = s.regs) := by
    intro e he
    obtain ⟨x, -, rfl⟩ := List.mem_map.mp he
    obtain ⟨hw, -, hclose, hregs⟩ := closingJob_shows s x
    exact ⟨by rw [hclose, hw], hregs⟩
  have hmap := closingJobs_map s ws
  have hlen : js.length = ws.length := List.length_map ..
  have hregs : (js.foldl closeOne s).regs = s.regs := by rw [hclosing]
  have hpipe : (js.foldl closeOne s).pipe = s.pipe := by rw [hclosing]
  obtain ⟨l, hback, hcloses, hseqs, hall⟩ := foldl_joinOne_backlog (js.foldl closeOne s) js
  obtain ⟨hkeys, hfrom⟩ := joined_of_forall₂ hall
  rw [hu]
  refine ⟨?_, ?_, ?_, ?_, ⟨l, ?_, hkeys.trans hmap, ?_, ?_⟩, ?_, ?_⟩
  · rw [closeMarked_regs, hjoining]
    exact hregs
  · rw [hjoining, hclosing]; rfl
  · rw [hjoining, hclosing]; rfl
  · rw [closeMarked_pipe, hcloses, hpipe, hlen]
  · rw [closeMarked_pipe, hback, hpipe]
  · rw [hseqs, hpipe, hlen]
  · intro j hj
    obtain ⟨e, he, hw, -, hclose, hreg⟩ := hfrom j hj
    obtain ⟨hat, hlatched⟩ := hjs e he
    exact ⟨by rw [hclose, hat, hw], (hreg fun h => (hlatched h).trans hregs.symm).trans hregs⟩
  · rw [closeMarked_out, hjoining, ← hlen]
    exact foldl_closeOne_expects s js
  · intro w hw hlt
    have hmem : w ∈ js.map (fun e => e.1.w) := by
      have hfst : (js.map (fun e => (e.1.w, e.1.timeout))).map Prod.fst = js.map (fun e => e.1.w) := List.map_map ..
      rwa [← hfst, hmap]
    rw [closeMarked_wd, hjoining]
    exact foldl_closeOne_closed (c := closeAt s) js (fun e he => (hjs e he).1) hlt hmem

/-- Settles O16: the three commands pass their guards; the closes of an evaluation step in Midnight are two folds over the wedges in order.
That a close waits for the end of its step is assumption 41, the model's choice. -/
theorem wedgeCloses : Obligations.WedgeCloses := by
  refine ⟨?_, ?_⟩
  · intro s t w hrun hsched x
    refine ⟨?_, fun a => exec_wedgeTimeout_due hrun hsched, fun a => exec_wedgeCloseAfterCommit_due hrun hsched⟩
    intro h hcov hdue hfirst hbit f bit y
    have hx : x = s.clock t := hrun.2.2
    have hsched' : (s.at_ t).schedules = true := by rw [hrun.2.2]; exact hsched
    have hgo : farDue x h w = true := by
      rw [farDue, hcov, hdue, hfirst]
      rfl
    have hy : f.setWd w (crossing f h w) = y := by
      refine congrArg (f.setWd w) (funext fun k => ?_)
      rw [crossing, lor_ite, show f.atState h = s.atState h by rw [show f.atState h = x.atState h from rfl, hx]; rfl]
      rfl
    rw [exec_farEdgeCrossing_due hrun.1 hsched' hgo hbit]
    exact congrArg (fun z => Host.Outcome.next (x.finish (dueIfComplete z w (x.maskHeads w)))) hy
  · intro s ws hdev u close
    exact closeWedges_midnight_shows hdev ws

end Sys2Proof.Proofs
end

section
/-! PROOFS. Column deadlines and revolution marks (R70, R74, R119): a deadline that is due hands the column's service on; what the parts of a
mark keep is one relation, `MarkKept`, so that each part is looked at once. -/

namespace Sys2Proof.Proofs

open Sys2Proof.Machine Sys2Proof.Laws

variable {s u v : State}

/-! ### Column deadlines -/

/-- The column before column `c` of a head. -/
def colBefore (x : State) (h : Fin 8) (c : Nat) : Nat := (c + x.columns h - 1) % x.columns h

/-- The deadline of the column is due and the first of the two to fire. -/
def colDue (x : State) (h : Fin 8) (c : Nat) : Bool :=
  decide (c < x.columns h) && x.due? h (keyCol c) (x.colAngle h c) &&
    x.first? h (x.colAngle h c) [(keyCol (colBefore x h c), x.colAngle h (colBefore x h c))]

/-- The service of the column handed to its tile. -/
def colServed (y : State) (g : Nat) (h : Fin 8) (c : Nat) : State :=
  (State.flushBuf { y with out := { y.out with svcN := y.out.svcN + 1 } } g h c).setTile g (fun k =>
    { k with cols := k.cols ++ [y.columnService g h c], bufs := k.bufs.filter (fun b => !(b.slot = h.val && b.col = c)) })

/-- A deadline in Noon, Dusk or Midnight once its tile is known. -/
def colFired (f : State) (h : Fin 8) (c g : Nat) : State :=
  if !((if f.dev = dsNoon || f.dev = dsMidnight then f.expectColumn h c else f).dev = dsNoon ||
      (if f.dev = dsNoon || f.dev = dsMidnight then f.expectColumn h c else f).dev = dsDusk) then
    if f.dev = dsNoon || f.dev = dsMidnight then f.expectColumn h c else f
  else colServed (if f.dev = dsNoon || f.dev = dsMidnight then f.expectColumn h c else f) g h c

theorem exec_columnEmissionDeadline (s : State) (t : Nat) (h : Fin 8) (c : Nat) : exec (.columnEmissionDeadline t h c) s =
    run t (fun s => s.closeDue.when (colDue s.closeDue h c) (fun z =>
      match (z.fire h (keyCol c) (s.closeDue.colAngle h c)).colTile h with
      | none => z.fire h (keyCol c) (s.closeDue.colAngle h c)
      | some g => colFired (z.fire h (keyCol c) (s.closeDue.colAngle h c)) h c g)) s := rfl

theorem expectColumn_dev (s : State) (h c : Nat) : (s.expectColumn h c).dev = s.dev := by
  simp (disch := decide) only [State.expectColumn, State.bump64, State.dev, get_put_other]
  rfl

theorem colFired_noon {f : State} (h : Fin 8) (c g : Nat) (hdev : f.dev = dsNoon) : colFired f h c g = colServed (f.expectColumn h c) g h c := by
  unfold colFired
  simp only [hdev, expectColumn_dev, decide_true, Bool.true_or, Bool.not_true, Bool.false_eq_true, if_true, if_false]

/-! ### What the parts of a mark keep -/

/-- Revolutions and sweeps, TB_MONO, the pipeline, the device state, the sweeps that the units show; what was requested of the units stays
so. -/
def MarkKept (s u : State) : Prop :=
  u.rev = s.rev ∧ u.mono = s.mono ∧ u.pipe = s.pipe ∧ u.dev = s.dev ∧ u.safety = s.safety ∧
  (∀ i : Fin 2, u.get (VHU.STAT_SWEEP_CUR i) = s.get (VHU.STAT_SWEEP_CUR i)) ∧
  (∀ i : Fin 2, s.on (VHU.STAT_AGE_PEND i) = true → u.on (VHU.STAT_AGE_PEND i) = true) ∧
  (∀ i, s.ms.pend.any (fun e => e.code = 1 && e.inst = i) = true → u.ms.pend.any (fun e => e.code = 1 && e.inst = i) = true)

namespace MarkKept

theorem refl (s : State) : MarkKept s s := ⟨rfl, rfl, rfl, rfl, rfl, fun _ => rfl, fun _ h => h, fun _ h => h⟩

theorem trans (h : MarkKept s u) (h' : MarkKept u v) : MarkKept s v := by
  obtain ⟨a1, a2, a3, a4, a5, a6, a7, a8⟩ := h
  obtain ⟨b1, b2, b3, b4, b5, b6, b7, b8⟩ := h'
  exact ⟨b1.trans a1, b2.trans a2, b3.trans a3, b4.trans a4, b5.trans a5, fun i => (b6 i).trans (a6 i), fun i h => b7 i (a7 i h),
    fun i h => b8 i (a8 i h)⟩

/-- A field that is none of those shown. -/
def Aside (f : Fld) : Prop :=
  Leaves f SYS.STATE_STATE ∧ ∀ i : Fin 2, Leaves f (VHU.STAT_SWEEP_CUR i) ∧ Leaves f (VHU.STAT_AGE_PEND i)

theorem put (h : MarkKept s u) {f : Fld} (hf : Aside f) (x : Nat) : MarkKept s (u.put f x) := by
  refine h.trans ⟨rfl, rfl, rfl, get_put_other _ hf.1 x, rfl, fun i => get_put_other _ (hf.2 i).1 x, fun i hi => ?_, fun _ hi => hi⟩
  rwa [on_put_other _ (hf.2 i).2]

theorem foldl {α : Type} {l : List α} {f : State → α → State} (h : MarkKept s u)
    (hf : ∀ w a, MarkKept s w → MarkKept s (f w a)) : MarkKept s (l.foldl f u) := List.foldlRecOn l f h fun w hw a _ => hf w a hw

/-- An ageing pass shown as pending. -/
theorem agePend (h : MarkKept s u) (i : Fin 2) : MarkKept s (u.set1 (VHU.STAT_AGE_PEND i)) := by
  have hstate : ∀ i : Fin 2, Leaves (VHU.STAT_AGE_PEND i) SYS.STATE_STATE := by decide
  have hsweep : ∀ i j : Fin 2, Leaves (VHU.STAT_AGE_PEND i) (VHU.STAT_SWEEP_CUR j) := by decide
  have hother : ∀ i j : Fin 2, j = i ∨ Leaves (VHU.STAT_AGE_PEND i) (VHU.STAT_AGE_PEND j) := by decide
  refine h.trans ⟨rfl, rfl, rfl, get_set1_other _ (hstate i), rfl, fun j => get_set1_other _ (hsweep i j), fun j hj => ?_, fun _ hi => hi⟩
  rcases hother i j with rfl | hne
  · exact on_set1_self _ _ (show 3 + 1 ≤ 32 by decide) rfl
  · rwa [on_set1_other _ hne]

end MarkKept

/-! ### Requests -/

theorem any_insAct (p : Act → Bool) (a : Act) (l : List Act) : (insAct a l).any p = (p a || l.any p) := by
  induction l with
  | nil => rfl
  | cons b l ih =>
    unfold insAct
    split
    · rfl
    · rw [List.any_cons, ih, List.any_cons, Bool.or_left_comm]

theorem msStat_markKept (s : State) : MarkKept s s.msStat :=
  .put (.put (.refl s) (by unfold MarkKept.Aside; decide) _) (by unfold MarkKept.Aside; decide) _

theorem msStat_ms (s : State) : s.msStat.ms = s.ms := by rw [State.msStat, put_ms, put_ms]

theorem pended_markKept (s : State) (l : List Act)
    (h : ∀ i, s.ms.pend.any (fun e => e.code = 1 && e.inst = i) = true → l.any (fun e => e.code = 1 && e.inst = i) = true) :
    MarkKept s { s with ms := { s.ms with pend := l } } := ⟨rfl, rfl, rfl, rfl, rfl, fun _ => rfl, fun _ hi => hi, h⟩

theorem setTge_markKept (s : State) (u : Nat) (f : TgeSt → TgeSt) : MarkKept s (s.setTge u f) :=
  ⟨rfl, rfl, rfl, rfl, rfl, fun _ => rfl, fun _ hi => hi, fun _ hi => hi⟩

theorem msRequest_markKept (s : State) (code inst : Nat) : MarkKept s (s.msRequest code inst) := by
  unfold State.msRequest
  split
  · exact .refl s
  · refine (pended_markKept s _ fun i hi => ?_).trans (msStat_markKept _)
    rw [any_insAct, hi, Bool.or_true]

theorem msRequest_pending (s : State) (inst : Nat) : (s.msRequest 1 inst).ms.pend.any (fun e => e.code = 1 && e.inst = inst) = true := by
  unfold State.msRequest
  split
  · next h => exact h
  · rw [msStat_ms, any_insAct]
    simp

/-! ### The parts of a mark -/

/-- The revolution and the sweep counted (R119). -/
def markCounted (s : State) : State :=
  { s with rev := { s.rev with count := s.rev.count + 1, sweep := s.rev.sweep + 1, lastMark := some s.mono,
                               starts := (s.snsNs :: s.rev.starts).take 8 } }

/-- The sweep shown by both units. -/
def markShown (s : State) : State := [0, 1].foldl (fun z u => z.put (VHU.STAT_SWEEP_CUR u) ((s.rev.sweep + 1) % 256)) (markCounted s)

/-- An ageing pass requested of a unit (R121). -/
def ageRequested (z : State) (u : Nat) : State := (z.msRequest 1 u).set1 (VHU.STAT_AGE_PEND u)

/-- The ageing passes, and a cache refresh where its period ends (R264). -/
def markRequested (s : State) : State :=
  let z := [0, 1].foldl ageRequested (markShown s)
  let period := z.get (MAP.CTRL_CACHE_PERIOD 0)
  if period ≠ 0 && (s.rev.count + 1) % period = 0 then (z.msRequest 4 0).msRequest 4 1 else z

/-- The counts of a revolution that start again (R161, R302, R375). -/
def markCleared (z : State) : State :=
  { z with pipe := { z.pipe with lateRev := if z.pipe.lateNow.1 = evalStep z.mono then z.pipe.lateNow.2 else 0 },
           ms := { z.ms with logged := [] }, out := { z.out with staleLog := [] },
           tiles := z.tiles.map (fun x => { x with conflictLog := false }) }

theorem mark_eq (s : State) : s.mark =
    if (markCleared (markRequested s).shardLoads).goldMark.noWedge then (markCleared (markRequested s).shardLoads).goldMark.applyBatch
    else (markCleared (markRequested s).shardLoads).goldMark := rfl

theorem shardLoads_markKept (s : State) : MarkKept s s.shardLoads := by
  refine .foldl (.refl s) fun w u hw => ?_
  have hfit : 0 + 32 ≤ 32 := by decide
  have hload (i : Nat) : MarkKept.Aside (TGE.SHARD_LOAD u i) := by
    refine ⟨⟨hfit, .inl ?_⟩, fun j => ⟨⟨hfit, .inl ?_⟩, ⟨hfit, .inl ?_⟩⟩⟩
    all_goals dsimp only [TGE.SHARD_LOAD, SYS.STATE_STATE, VHU.STAT_SWEEP_CUR, VHU.STAT_AGE_PEND]; omega
  exact (MarkKept.foldl hw fun x i hx => hx.put (hload i) _).trans (setTge_markKept _ u _)

theorem markShown_shows (s : State) : (markShown s).rev = (markCounted s).rev ∧ (markShown s).mono = s.mono ∧ (markShown s).pipe = s.pipe ∧
    (markShown s).dev = s.dev ∧ (markShown s).safety = s.safety ∧
    ∀ i : Fin 2, (markShown s).get (VHU.STAT_SWEEP_CUR i) = (s.rev.sweep + 1) % 256 := by
  have hlt : (s.rev.sweep + 1) % 256 < 2 ^ 8 := Nat.mod_lt _ (by decide)
  refine ⟨rfl, rfl, rfl, ?_, rfl, fun i => ?_⟩
  · rw [State.dev, markShown, List.foldl_cons, List.foldl_cons, List.foldl_nil, get_put_other _ (by decide), get_put_other _ (by decide)]
    rfl
  · rw [markShown, List.foldl_cons, List.foldl_cons, List.foldl_nil]
    match i with
    | 0 => exact (get_put_other _ (by decide) _).trans (get_put_of_lt (by decide) hlt)
    | 1 => exact get_put_of_lt (by decide) hlt

theorem ageRequested_markKept (s : State) (i : Fin 2) : MarkKept s (ageRequested s i) := (msRequest_markKept s 1 i).agePend i

/-- A unit of which an ageing pass is requested, shown so. -/
def AgeDue (z : State) (i : Fin 2) : Prop :=
  z.on (VHU.STAT_AGE_PEND i) = true ∧ z.ms.pend.any (fun e => e.code = 1 && e.inst = i.val) = true

theorem AgeDue.kept {i : Fin 2} (h : AgeDue s i) (hk : MarkKept s u) : AgeDue u i := by
  obtain ⟨-, -, -, -, -, -, hon, hpend⟩ := hk
  exact ⟨hon i h.1, hpend i h.2⟩

theorem ageRequested_due (s : State) (i : Fin 2) : AgeDue (ageRequested s i) i := by
  refine ⟨on_set1_self _ _ (show 3 + 1 ≤ 32 by decide) rfl, ?_⟩
  rw [ageRequested, set1_ms]
  exact msRequest_pending s i

theorem markRequested_shows (s : State) : MarkKept (markShown s) (markRequested s) ∧ ∀ i : Fin 2, AgeDue (markRequested s) i := by
  have hpair : [0, 1].foldl ageRequested (markShown s) = ageRequested (ageRequested (markShown s) (0 : Fin 2)) (1 : Fin 2) := rfl
  have hcache (z : State) (c : Prop) [Decidable c] : MarkKept z (if c then (z.msRequest 4 0).msRequest 4 1 else z) := by
    split
    · exact (msRequest_markKept z 4 0).trans (msRequest_markKept _ 4 1)
    · exact .refl z
  have h0 := ageRequested_markKept (markShown s) 0
  have h1 := ageRequested_markKept (ageRequested (markShown s) (0 : Fin 2)) 1
  unfold markRequested
  rw [hpair]
  refine ⟨(h0.trans h1).trans (hcache _ _), fun i => .kept ?_ (hcache _ _)⟩
  match i with
  | 0 => exact (ageRequested_due _ 0).kept h1
  | 1 => exact ageRequested_due _ 1

theorem markCleared_dev (z : State) : (markCleared z).dev = z.dev := rfl
theorem markCleared_rev (z : State) : (markCleared z).rev = z.rev := rfl
theorem markCleared_get (z : State) (f : Fld) : (markCleared z).get f = z.get f := rfl
theorem markCleared_late (z : State) :
    (markCleared z).pipe.lateRev = if z.pipe.lateNow.1 = evalStep z.mono then z.pipe.lateNow.2 else 0 := rfl

theorem AgeDue.cleared {i : Fin 2} (h : AgeDue s i) : AgeDue (markCleared s) i := h

/-- In Dusk a mark does nothing of golden injection and applies no batch. -/
theorem mark_dusk (hdev : s.dev = dsDusk) : s.mark = markCleared (markRequested s).shardLoads := by
  have hkept := (markRequested_shows s).1.trans (shardLoads_markKept _)
  have hd : (markCleared (markRequested s).shardLoads).dev = dsDusk := by
    obtain ⟨-, -, -, hk, -⟩ := hkept
    obtain ⟨-, -, -, hshown, -⟩ := markShown_shows s
    rw [markCleared_dev, hk, hshown, hdev]
  have hgold : (markCleared (markRequested s).shardLoads).goldMark = markCleared (markRequested s).shardLoads :=
    if_pos (by rw [hd]; decide)
  rw [mark_eq, hgold]
  refine if_neg ?_
  rw [State.noWedge, hd]
  simp

/-! ### What fires a mark -/

/-- A crossing nearer than half a period to the last mark (R74). -/
def tooNear (f : State) (period : Nat) : Bool :=
  match f.rev.lastMark with
  | none => false
  | some m => decide (2 * f.mono < 2 * m + period)

/-- The reference head's event recorded as fired. -/
def revFired (x : State) : State := x.fire (x.get TMU.REF_REF_HEAD) keyRev (x.get TMU.REF_REV_ANGLE)

/-- The mark of a crossing of the reference head. -/
def headMark (f : State) : State := State.mark { f with rev := { f.rev with lastHead := f.mono, lastTimer := none } }

/-- The mark of the revolution timer. -/
def timerMark (x : State) : State := State.mark { x with rev := { x.rev with lastTimer := some x.mono } }

theorem exec_revolutionMark (s : State) (t : Nat) : exec (.revolutionMark t) s = run t (fun x =>
    if x.tracking (x.get TMU.REF_REF_HEAD) then
      if x.due? (x.get TMU.REF_REF_HEAD) keyRev (x.get TMU.REF_REV_ANGLE) then
        if tooNear (revFired x) x.revPeriod then revFired x else headMark (revFired x)
      else x
    else if decide (x.rev.lastTimer.getD x.rev.lastHead + x.revPeriod ≤ x.mono) then timerMark x else x) s := rfl

theorem not_tooNear {f : State} {p : Nat} (h : ∀ m, f.rev.lastMark = some m → 2 * m + p ≤ 2 * f.mono) : ¬ tooNear f p = true := by
  unfold tooNear
  split
  · exact Bool.false_ne_true
  · next m hm => simpa using h m hm

/-- Settles O17: a deadline and a mark pass their guards; in Dusk a mark is its counts, its requests and what starts again. -/
theorem columnDeadlineAndMarks : Obligations.ColumnDeadlineAndMarks := by
  refine ⟨?_, ?_, ?_⟩
  · intro s t h c g hrun x before hdev hc hdue hfirst htile y z
    have hgo : colDue x h c = true := by
      rw [colDue, decide_eq_true hc, hdue]
      exact hfirst
    refine exec_run_eq hrun.1 (exec_columnEmissionDeadline s t h c) ((when_true hgo).trans ?_)
    have hf : (x.fire h (keyCol c) (x.colAngle h c)).dev = dsNoon := hdev
    rw [show (x.fire h (keyCol c) (x.colAngle h c)).colTile h = some g from htile]
    exact colFired_noon h c g hf
  · intro s t hrun
    have he := exec_revolutionMark s t
    rw [hrun.2.2]
    refine ⟨fun htrack hdue hfar => ?_, fun htrack hlate => ?_⟩
    · exact exec_run_clock hrun he ((if_pos htrack).trans ((if_pos hdue).trans (if_neg (not_tooNear hfar))))
    · exact exec_run_clock hrun he ((if_neg fun h => Bool.false_ne_true (htrack.symm.trans h)).trans (if_pos (decide_eq_true hlate)))
  · intro s hdev
    rw [mark_dusk hdev]
    obtain ⟨hrev, hmono, hpipe, hdev', -, hsweep⟩ := markShown_shows s
    obtain ⟨hkept, hage⟩ := markRequested_shows s
    have hload := shardLoads_markKept (markRequested s)
    obtain ⟨krev, kmono, kpipe, -, -, ksweep, -, -⟩ := hkept.trans hload
    have hr := krev.trans hrev
    rw [markCleared_rev, markCleared_late, hr, kpipe, kmono, hpipe, hmono]
    exact ⟨rfl, rfl, rfl, rfl, rfl, rfl, fun i => ⟨(markCleared_get _ _).trans ((ksweep i).trans (hsweep i)), ((hage i).kept hload).cleared⟩⟩

end Sys2Proof.Proofs
end

section
/-! PROOFS. Head ports (R44, R58, R88 to R94): what a link that comes up loads, what a challenge sends and records, and how an outcome is
shown. Fields of different registers of a head's page are kept apart once, for all eight heads. -/

namespace Sys2Proof.Proofs

open Sys2Proof.Machine Sys2Proof.Laws

variable {s u v : State}

/-! ### The link comes up -/

/-- The link shown with its calibrated latencies. -/
def headLinked (s : State) (h : Fin 8) : State :=
  ((s.set1 (HP.STAT_LINK h)).load (TS.ING_LAT_LAT (0x010 + h.val)) (Config.calIngress (s.get (HP.CTRL_SPEED h))).toNat).load
    (TS.EGR_LAT_LAT (0x010 + h.val)) (Config.calEgress (s.get (HP.CTRL_SPEED h))).toNat

/-- A head's state as its link comes up: a challenge is due. -/
def headFresh (s : State) (y : HeadSt) : HeadSt :=
  { y with linkAt := s.mono, chalDue := true, learned := none, intFilt := none, intSum := 0, intN := 0, lastChal := none }

/-- The first session of the device (R44): TB_SNS takes the value of TB_VEH where it is coupled to it. -/
def firstSession (z : State) : State :=
  if z.on TMU.CTRL_COUPLE && z.vehState = vehLocked then
    (z.tm (fun x => { x with sns := (x.sns.retune z.mono x.sns.rate).step (z.veh - z.sns) })).set1 TMU.STAT_SNS_INIT_DONE
  else z

theorem exec_headLinkUp (s : State) (t : Nat) (h : Fin 8) : exec (.headLinkUp t h) s = run t (fun s =>
    if s.on (HP.CTRL_EN h) && !s.on (HP.STAT_LINK h) && s.dev ≠ dsHold then
      if ((headLinked s h).setHd h (headFresh (headLinked s h))).time.snsSession then (headLinked s h).setHd h (headFresh (headLinked s h))
      else firstSession (((headLinked s h).setHd h (headFresh (headLinked s h))).tm (fun x => { x with snsSession := true }))
    else s) s := rfl

theorem headLinked_onlyRegs (s : State) (h : Fin 8) : OnlyRegs s (headLinked s h) := .load (.load (.set1 (.refl s) _) _ _) _ _

theorem leaves_lat : ∀ h : Fin 8, Leaves (TS.EGR_LAT_LAT (0x010 + h.val)) (HP.STAT_LINK h) ∧
    Leaves (TS.ING_LAT_LAT (0x010 + h.val)) (HP.STAT_LINK h) ∧
    Leaves (TS.EGR_LAT_LAT (0x010 + h.val)) (TS.ING_LAT_LAT (0x010 + h.val)) := by decide

theorem leaves_lat_tmu : ∀ h : Fin 8, ∀ f ∈ [TMU.CTRL_COUPLE, TMU.STAT_VEH_STATE, TMU.STAT_SNS_INIT_DONE],
    Leaves (TS.EGR_LAT_LAT (0x010 + h.val)) f ∧ Leaves (TS.ING_LAT_LAT (0x010 + h.val)) f ∧ Leaves (HP.STAT_LINK h) f := by decide

theorem leaves_snsInit : ∀ h : Fin 8, Leaves TMU.STAT_SNS_INIT_DONE (HP.STAT_LINK h) := by decide

theorem headLinked_link (s : State) (h : Fin 8) : (headLinked s h).on (HP.STAT_LINK h) = true := by
  obtain ⟨h1, h2, -⟩ := leaves_lat h
  rw [headLinked, on_load_other _ h1, on_load_other _ h2]
  exact on_set1_self _ _ (show 0 + 1 ≤ 32 by decide) rfl

theorem headLinked_latencies (s : State) (h : Fin 8) :
    (headLinked s h).get (TS.ING_LAT_LAT (0x010 + h.val)) = (Config.calIngress (s.get (HP.CTRL_SPEED h))).toNat ∧
      (headLinked s h).get (TS.EGR_LAT_LAT (0x010 + h.val)) = (Config.calEgress (s.get (HP.CTRL_SPEED h))).toNat := by
  obtain ⟨-, -, h3⟩ := leaves_lat h
  refine ⟨?_, ?_⟩
  · rw [headLinked, get_load_other _ h3, get_load]
    exact get_put_of_lt (show 0 + 16 ≤ 32 by decide) (BitVec.isLt _)
  · rw [headLinked, get_load]
    exact get_put_of_lt (show 0 + 16 ≤ 32 by decide) (BitVec.isLt _)

theorem headLinked_tmu (s : State) (h : Fin 8) {f : Fld} (hf : f ∈ [TMU.CTRL_COUPLE, TMU.STAT_VEH_STATE, TMU.STAT_SNS_INIT_DONE]) :
    (headLinked s h).get f = s.get f := by
  obtain ⟨h1, h2, h3⟩ := leaves_lat_tmu h f hf
  rw [headLinked, get_load_other _ h1, get_load_other _ h2, get_set1_other _ h3]

theorem headLinked_regsBut (s : State) (h : Fin 8) :
    RegsBut [(HP.STAT h).addr, (TS.ING_LAT_LAT (0x010 + h.val)).addr, (TS.EGR_LAT_LAT (0x010 + h.val)).addr] s (headLinked s h) :=
  regsBut_load _ (by simp) (regsBut_load _ (by simp) (regsBut_set1 (by simp [HP.STAT, HP.STAT_LINK]) (regsBut_refl _ s)))

theorem headUp_guard {h : Fin 8} (hen : s.on (HP.CTRL_EN h) = true) (hdown : s.on (HP.STAT_LINK h) = false) (hdev : s.dev ≠ dsHold) :
    (s.on (HP.CTRL_EN h) && !s.on (HP.STAT_LINK h) && s.dev ≠ dsHold) = true := by
  rw [hen, hdown, decide_eq_true hdev]
  rfl

/-- The linked head with its fresh state, at the instant of the command. -/
abbrev headUp (s : State) (h : Fin 8) : State := (headLinked s h).setHd h (headFresh (headLinked s h))

theorem headUp_heads (s : State) (h : Fin 8) : (headUp s h).heads = s.heads.modify h (headFresh s) := by
  have honly := headLinked_onlyRegs s h
  have hfresh : headFresh (headLinked s h) = headFresh s := by
    funext y
    rw [headFresh, honly.mono, headFresh]
  rw [headUp, setHd_heads, honly.heads, hfresh]

theorem headLinkUp_later {t : Nat} {h : Fin 8} (hrun : s.Running t) (hen : s.on (HP.CTRL_EN h) = true) (hdown : s.on (HP.STAT_LINK h) = false)
    (hdev : s.dev ≠ dsHold) (hses : s.time.snsSession = true) :
    Completes (.headLinkUp t h) s (fun u => u.on (HP.STAT_LINK h) ∧
         u.get (TS.ING_LAT_LAT (0x010 + h.val)) = (Config.calIngress (s.get (HP.CTRL_SPEED h))).toNat ∧
         u.get (TS.EGR_LAT_LAT (0x010 + h.val)) = (Config.calEgress (s.get (HP.CTRL_SPEED h))).toNat ∧
         u.heads = s.heads.modify h (headFresh (s.clock t)) ∧
         u.time = s.time ∧ u.outbox = s.outbox ∧ MemKept s u ∧
         RegsBut [(HP.STAT h).addr, (TS.ING_LAT_LAT (0x010 + h.val)).addr, (TS.EGR_LAT_LAT (0x010 + h.val)).addr] s u) := by
  let x := s.clock t
  have honly := headLinked_onlyRegs x h
  obtain ⟨hing, hegr⟩ := headLinked_latencies x h
  refine completes_ends (z := headUp x h) hrun (exec_headLinkUp s t h) ((if_pos (headUp_guard (s := x) hen hdown hdev)).trans (if_pos ?_)) ?_
    fun u he => ⟨(he.on _).trans (headLinked_link x h), (he.get _).trans hing, (he.get _).trans hegr, he.heads.trans (headUp_heads x h),
      he.time.trans honly.time, he.outbox.trans honly.outbox, he.memKept ?_, he.regsBut (headLinked_regsBut x h)⟩
  · rw [setHd_time, honly.time]
    exact hses
  · rw [setHd_safety, honly.safety]
    exact hrun.2.1
  · exact memKept_trans honly.memKept (memKept_of rfl rfl rfl rfl rfl rfl rfl rfl)

theorem firstSession_coupled {z : State} (hcouple : z.on TMU.CTRL_COUPLE = true) (hveh : z.vehState = vehLocked) :
    (firstSession z).sns = z.veh ∧ (firstSession z).on TMU.STAT_SNS_INIT_DONE = true ∧
      (firstSession z).time.snsSession = z.time.snsSession ∧ (firstSession z).safety = z.safety ∧
      ∀ h : Fin 8, (firstSession z).on (HP.STAT_LINK h) = z.on (HP.STAT_LINK h) := by
  rw [firstSession, if_pos (by rw [hcouple, decide_eq_true hveh]; rfl)]
  refine ⟨?_, on_set1_self _ _ (by decide) rfl, ?_, ?_, fun h => ?_⟩
  · rw [State.sns, set1_time, set1_mono, tm_time, tm_mono]
    show ((z.time.sns.retune z.mono z.time.sns.rate).step (z.veh - z.sns)).at_ z.mono = _
    rw [base_at_step, base_at_retune, ← State.sns]
    omega
  · rw [set1_time, tm_time]
  · rw [set1_safety, tm_safety]
  · rw [on_set1_other _ (leaves_snsInit h), tm_on]

theorem headLinkUp_first {t : Nat} {h : Fin 8} (hrun : s.Running t) (hen : s.on (HP.CTRL_EN h) = true) (hdown : s.on (HP.STAT_LINK h) = false)
    (hdev : s.dev ≠ dsHold) (hses : s.time.snsSession = false) (hcouple : s.on TMU.CTRL_COUPLE = true) (hveh : s.vehState = vehLocked) :
    Completes (.headLinkUp t h) s (fun u => u.on (HP.STAT_LINK h) ∧ u.sns = (s.clock t).veh ∧ u.on TMU.STAT_SNS_INIT_DONE ∧
         u.time.snsSession = true) := by
  let x := s.clock t
  let z := (headUp x h).tm (fun k => { k with snsSession := true })
  have honly := headLinked_onlyRegs x h
  have hc : z.on TMU.CTRL_COUPLE = true := by
    rw [tm_on, setHd_on, on_of_get (headLinked_tmu x h (by decide))]
    exact hcouple
  have hv : z.vehState = vehLocked := by
    rw [State.vehState, tm_get, setHd_get, headLinked_tmu x h (by decide)]
    exact hveh
  obtain ⟨hsns, hinit, hsession, hsafety, hlink⟩ := firstSession_coupled hc hv
  have hmono : x.mono = (firstSession z).mono := by
    unfold firstSession
    split
    · rw [set1_mono, tm_mono, tm_mono, setHd_mono, honly.mono]
    · rw [tm_mono, setHd_mono, honly.mono]
  refine completes_ends' (z := firstSession z) hrun (exec_headLinkUp s t h)
    ((if_pos (headUp_guard (s := x) hen hdown hdev)).trans (if_neg ?_)) ?_
    fun u he hm => ⟨(he.on _).trans ?_, ?_, (he.on _).trans hinit, ?_⟩
  · rw [setHd_time, honly.time]
    exact fun h => Bool.false_ne_true (hses.symm.trans h)
  · rw [hsafety, tm_safety, setHd_safety, honly.safety]
    exact hrun.2.1
  · rw [hlink, tm_on, setHd_on]
    exact headLinked_link x h
  · rw [State.sns, he.time, hm, hmono, ← State.sns, hsns, State.veh, tm_time, setHd_time, honly.time, tm_mono, setHd_mono, honly.mono]
    rfl
  · rw [he.time, hsession]
    rfl

/-- Settles O18: a link comes up with `headUp`, and with the first session beside it; it goes down as `headDown` says. -/
theorem headLink : Obligations.HeadLink := by
  refine ⟨fun s t h hrun hen hdown hdev => ⟨headLinkUp_later hrun hen hdown hdev, ?_⟩, ?_⟩
  · rw [hrun.2.2]
    exact headLinkUp_first hrun hen hdown hdev
  · intro s t h hrun hlink y z
    refine exec_run_eq hrun.1 (rfl : _ = execHeadLinkDown t h s) (if_neg ?_)
    rw [hrun.2.2, clock_on, hlink]
    decide

end Sys2Proof.Proofs
end

section
/-! PROOFS. Writes of masters (R315, R320, R323): what a write by no owner and one by the owner come to, and the owner's rows one by one. -/

namespace Sys2Proof.Proofs

open Sys2Proof.Machine Sys2Proof.Laws

variable {s u v : State}

/-! ### A row that is a register write -/

/-- The command `c` is the write of `data` under `mask` to the register at `a` by master `m`. -/
def WritesReg (c : Instr) (t : Nat) (m : Master) (a : Nat) (data mask : Word) (sig : Option Bool) : Prop :=
  ∀ s, exec c s = run t (fun s => s.masterWrite m a data mask sig) s

theorem secAfter_of_none (h : ∀ k ∈ s.hosts, k.enAfter = false) : s.secAfter = s := by
  have hport (p : Nat) : (s.host p).enAfter = false := by
    rw [State.host, List.getD_eq_getElem?_getD]
    cases hk : s.hosts[p]? with
    | none => rfl
    | some k => exact h k (List.mem_of_getElem? hk)
  rw [State.secAfter, List.foldl_cons, List.foldl_cons, List.foldl_nil, if_neg (by simp [hport]), if_neg (by simp [hport])]

/-- A write by a master that does not own the device is counted and nothing else. -/
theorem masterWrite_notOwner {m : Master} {a : Nat} {data mask : Word} {sig : Option Bool} (hown : s.owns m.num = false)
    (hen : ∀ k ∈ s.hosts, k.enAfter = false) : s.masterWrite m a data mask sig = s.bump SYS.NOT_OWNER_CNT := by
  rw [State.masterWrite, hown, Bool.and_false, if_neg Bool.false_ne_true, State.tryWrite, hown, Bool.not_false, if_pos rfl]
  refine secAfter_of_none ?_
  rw [((OnlyRegs.refl s).bump _).hosts]
  exact hen

theorem write_notOwner {c : Instr} {t : Nat} {m : Master} {a : Nat} {data mask : Word} {sig : Option Bool} (hc : WritesReg c t m a data mask sig)
    (hrun : s.Running t) (hown : (s.at_ t).owns m.num = false) (hen : ∀ k ∈ s.hosts, k.enAfter = false) :
    Completes c s (fun u => u.get SYS.NOT_OWNER_CNT = satU 32 (s.get SYS.NOT_OWNER_CNT + 1) ∧ u.own.owner = s.own.owner ∧
      RegsBut [SYS.NOT_OWNER_CNT.addr] s u ∧ u.shadow = s.shadow ∧ u.hosts = s.hosts ∧ u.sec = s.sec ∧ u.plk = s.plk ∧
      u.pins = s.pins ∧ u.outbox = s.outbox ∧ MemKept s u) := by
  have honly : OnlyRegs (s.clock t) ((s.clock t).bump SYS.NOT_OWNER_CNT) := .bump (.refl _) _
  rw [hrun.2.2] at hown
  refine completes_ends (z := (s.clock t).bump SYS.NOT_OWNER_CNT) hrun (hc s) (masterWrite_notOwner hown hen) hrun.2.1 fun u he =>
    ⟨(he.get _).trans ?_, he.owner.trans (by rw [honly.own]; rfl), he.regsBut (regsBut_bump (by simp) (regsBut_clock _ s t)),
      he.shadow.trans (by rw [honly.shadow]; rfl), he.hosts.trans (by rw [honly.hosts]; rfl), he.sec.trans (by rw [honly.sec]; rfl),
      he.plk.trans (by rw [honly.plk]; rfl), he.pins.trans (by rw [honly.pins]; rfl), he.outbox.trans (by rw [honly.outbox]; rfl),
      he.memKept (memKept_trans (clock_onlyMem s t) honly.memKept)⟩
  exact get_bump_self _ _ (by decide)

/-- Settles O41: each row is a register write, and by no owner it is counted in NOT_OWNER_CNT alone. -/
theorem onlyTheOwnerWrites : Obligations.OnlyTheOwnerWrites := by
  intro s t m h p levels page b c hc hrun hown hen
  have hw : ∃ a data mask sig, WritesReg c t m a data mask sig := by
    simp only [List.mem_cons, List.not_mem_nil, or_false] at hc
    rcases hc with rfl | rfl | rfl | rfl | rfl | rfl | rfl | rfl | rfl | rfl | rfl | rfl | rfl | rfl | rfl | rfl | rfl | rfl | rfl | rfl |
      rfl | rfl | rfl | rfl | rfl | rfl | rfl | rfl | rfl
    all_goals exact ⟨_, _, _, _, fun _ => rfl⟩
  obtain ⟨a, data, mask, sig, hw⟩ := hw
  exact write_notOwner hw hrun hown hen

/-- A register that stands at its own address with these bits of each type, and no shadow. -/
abbrev HasTypes (a rw w1s iw : Nat) : Prop :=
  aliasOf a = a ∧ (regRow a).map (fun d => (d.rw, d.w1c, d.w1s, d.sh, d.iw)) = some (rw, 0, w1s, 0, iw)

/-- The word that a write leaves where the hardware does not load the register in the same cycle (R18): `m` are the bits that software
writes. -/
def newWord (s : State) (a : Nat) (data m : Word) : Word := BitVec.ofNat 32 (clampWord a (mixBits (BitVec.ofNat 32 (s.heldWord a)) data m).toNat)

/-- What a write to an unshadowed register starts. -/
def writeEffect (s : State) (a : Nat) (new : Word) (sets : Nat) (sig : Option Bool) : Option State :=
  if a % 4096 < 0x040 then s.headerWrite (a / 4096) (a % 4096) (BitVec.ofNat 32 (s.heldWord a)).toNat new.toNat sets
  else s.blockWrite (a / 4096) (a % 4096) (BitVec.ofNat 32 (s.heldWord a)).toNat new.toNat sets sig

/-- A write that nothing keeps from its effect. -/
theorem writeReg_acts {a rw w1s iw : Nat} {data mask : Word} {sig : Option Bool} {y : State} (hrow : HasTypes a rw w1s iw)
    (hany : BitVec.ofNat 32 (rw ||| iw) ||| BitVec.ofNat 32 w1s ≠ 0#32) (hdev : s.dev ≠ dsHold) (hoff : s.pageOff (a / 4096) = false)
    (hmac : (a / 4096 = 0x018 ∨ a / 4096 = 0x019) → s.macLocked (a / 4096 - 0x018) (a % 4096) data mask = false)
    (hiw : s.blockRuns (a / 4096) = true →
      (BitVec.ofNat 32 (s.heldWord a) ^^^ newWord s a data (mask &&& BitVec.ofNat 32 (rw ||| iw))) &&& BitVec.ofNat 32 iw = 0#32)
    (h : writeEffect s a ((find a s.cyc.loads).getD (newWord s a data (mask &&& BitVec.ofNat 32 (rw ||| iw))))
      (data &&& mask &&& BitVec.ofNat 32 w1s).toNat sig = some y) : s.writeReg a data mask sig = (stOk, y) := by
  obtain ⟨halias, hrow⟩ := hrow
  obtain ⟨d, hd, htypes⟩ := Option.map_eq_some_iff.mp hrow
  simp only [Prod.mk.injEq] at htypes
  obtain ⟨h1, h2, h3, h4, h5⟩ := htypes
  unfold State.writeReg
  rw [hd]
  simp only [h1, h2, h3, h4, h5]
  rw [if_neg (by simp [hdev]), if_neg (by simp [hoff]), if_neg, if_neg, if_neg (by simp), if_neg]
  · simp only [BitVec.and_zero, BitVec.zero_and, BitVec.not_zero, BitVec.and_allOnes]
    rw [writeEffect, newWord] at h
    rw [h]
  · intro hrej
    rw [Bool.and_eq_true, decide_eq_true_eq] at hrej
    exact hrej.2 (hiw hrej.1)
  · intro hlock
    rw [Bool.and_eq_true, Bool.or_eq_true, decide_eq_true_eq, decide_eq_true_eq] at hlock
    exact Bool.false_ne_true ((hmac hlock.1).symm.trans hlock.2)
  · simpa [halias] using hany

/-! ### The bits that a write changes -/

theorem testBit_mixBits (old data m : Word) (i : Nat) :
    (mixBits old data m).toNat.testBit i = if m.getLsbD i then data.getLsbD i else old.getLsbD i := by
  rw [BitVec.testBit_toNat, mixBits, BitVec.getLsbD_or, BitVec.getLsbD_and, BitVec.getLsbD_and, BitVec.getLsbD_not]
  by_cases hi : i < 32
  · cases hm : m.getLsbD i <;> simp [hi]
  · rw [BitVec.getLsbD_of_ge m i (by omega), BitVec.getLsbD_of_ge old i (by omega)]
    simp

theorem mixBits_zero (old data : Word) : mixBits old data 0#32 = old := by
  refine BitVec.eq_of_toNat_eq (Nat.eq_of_testBit_eq fun i => ?_)
  rw [testBit_mixBits, BitVec.getLsbD_zero, BitVec.testBit_toNat]
  rfl

theorem mixBits_one_toNat (old data : Word) : (mixBits old data 1#32).toNat = withBits old.toNat 0 1 data.toNat := by
  refine Nat.eq_of_testBit_eq fun i => ?_
  rw [testBit_mixBits, testBit_withBits, BitVec.testBit_toNat, BitVec.testBit_toNat, BitVec.getLsbD_one]
  cases i <;> simp

theorem mixBits_one_xor (old data iw : Word) (h : iw.getLsbD 0 = false) : (old ^^^ mixBits old data 1#32) &&& iw = 0#32 := by
  refine BitVec.eq_of_toNat_eq (Nat.eq_of_testBit_eq fun i => ?_)
  rw [BitVec.testBit_toNat, BitVec.getLsbD_and, BitVec.getLsbD_xor, ← BitVec.testBit_toNat (x := mixBits _ _ _), testBit_mixBits,
    BitVec.getLsbD_one]
  cases i with
  | zero => rw [h, Bool.and_false, BitVec.toNat_zero, Nat.zero_testBit]
  | succ i => simp

theorem mixBits_seven_mod (old data : Word) : (mixBits old data 7#32).toNat % 8 = data.toNat % 8 := by
  refine Nat.eq_of_testBit_eq fun i => ?_
  rw [show 8 = 2 ^ 3 from rfl, Nat.testBit_mod_two_pow, Nat.testBit_mod_two_pow, testBit_mixBits, BitVec.testBit_toNat]
  by_cases hi : i < 3
  · have hm : (7#32).getLsbD i = true := (by decide : ∀ j < 3, (7#32).getLsbD j = true) i hi
    rw [hm, if_pos rfl]
  · simp [hi]

theorem reg_word (s : State) (a : Nat) : (BitVec.ofNat 32 (s.reg a)).toNat = s.reg a := by
  rw [BitVec.toNat_ofNat, Nat.mod_eq_of_lt (reg_lt s a)]

theorem setReg_word (s : State) (a n : Nat) : s.setReg a (BitVec.ofNat 32 n).toNat = s.setReg a n := by
  rw [State.setReg, BitVec.ofNat_toNat, BitVec.setWidth_eq, State.setReg]

theorem newWord_zero {a : Nat} (data : Word) (h : s.heldWord a = s.reg a) : newWord s a data 0#32 = BitVec.ofNat 32 (clampWord a (s.reg a)) := by
  rw [newWord, mixBits_zero, h, reg_word]

theorem newWord_one {a : Nat} (data : Word) (h : s.heldWord a = s.reg a) :
    newWord s a data 1#32 = BitVec.ofNat 32 (clampWord a (withBits (s.reg a) 0 1 data.toNat)) := by
  rw [newWord, mixBits_one_toNat, h, reg_word]

/-! ### The owner's rows -/

/-- A register on no host port's page, with these bits of each type and no shadow, that a write can reach. -/
abbrev PlainRow (a rw w1s iw : Nat) : Prop :=
  HasTypes a rw w1s iw ∧ BitVec.ofNat 32 (rw ||| iw) ||| BitVec.ofNat 32 w1s ≠ 0#32 ∧ ¬(a / 4096 = 0x018 ∨ a / 4096 = 0x019)

/-- An owner's write whose meaning is known. -/
theorem write_owner {c : Instr} {t : Nat} {m : Master} {a : Nat} {data mask : Word} {sig : Option Bool} {y : State}
    (hc : WritesReg c t m a data mask sig) (hown : s.Owned t m) (hw : (s.asOwner t m).writeReg a data mask sig = (stOk, y)) :
    exec c s = .next ((s.at_ t).finish y.secAfter) := by
  refine exec_run_eq hown.1.1 (hc s) ?_
  have howns := hown.2
  rw [State.masterWrite, howns, Bool.and_true, State.tryWrite]
  unfold State.asOwner at hw
  by_cases hm : m = .monitor
  · rw [if_pos hm] at hw
    rw [if_neg (show ¬decide (m ≠ .monitor) = true by simp [hm]), howns, Bool.not_true, if_neg Bool.false_ne_true, hw]
  · rw [if_neg hm] at hw
    have hren : (s.at_ t).renewLease.owns m.num = true := by
      rw [State.owns, Bool.and_eq_true] at howns ⊢
      refine ⟨howns.1, decide_eq_true ?_⟩
      exact Nat.lt_add_of_pos_right (show 0 < 200 * tickMs by decide)
    rw [if_pos (show decide (m ≠ .monitor) = true from decide_eq_true hm), hren, Bool.not_true, if_neg Bool.false_ne_true, hw]

/-- The claim of one row: the owner's write to the register at `a` has the effect `eff`. -/
def OwnerActs (s : State) (t : Nat) (m : Master) (c : Instr) (a : Nat) (eff : Option State) : Prop :=
  (s.asOwner t m).dev ≠ dsHold → (s.asOwner t m).pageOff (a / 4096) = false → find a (s.asOwner t m).cyc.loads = none →
    ∀ y, eff = some y → exec c s = .next ((s.at_ t).finish y.secAfter)

/-- A row off the host ports' pages whose write changes no bit that only a stopped block's may. -/
theorem ownerActs_plain {c : Instr} {t : Nat} {m : Master} {a rw w1s iw : Nat} {data mask : Word} {sig : Option Bool} {eff : Option State}
    (hc : WritesReg c t m a data mask sig) (hrow : PlainRow a rw w1s iw) (hown : s.Owned t m)
    (hiw : (BitVec.ofNat 32 ((s.asOwner t m).heldWord a) ^^^ newWord (s.asOwner t m) a data (mask &&& BitVec.ofNat 32 (rw ||| iw))) &&&
      BitVec.ofNat 32 iw = 0#32)
    (heff : writeEffect (s.asOwner t m) a (newWord (s.asOwner t m) a data (mask &&& BitVec.ofNat 32 (rw ||| iw)))
      (data &&& mask &&& BitVec.ofNat 32 w1s).toNat sig = eff) : OwnerActs s t m c a eff := fun hdev hoff hload _ hy =>
  write_owner hc hown (writeReg_acts hrow.1 hrow.2.1 hdev hoff (fun h => absurd h hrow.2.2) (fun _ => hiw)
    (by rw [hload, Option.getD_none, heff, hy]))

/-- A row without such bits. -/
theorem ownerActs_free {c : Instr} {t : Nat} {m : Master} {a rw w1s : Nat} {data mask : Word} {sig : Option Bool} {eff : Option State}
    (hc : WritesReg c t m a data mask sig) (hrow : PlainRow a rw w1s 0) (hown : s.Owned t m)
    (heff : ∀ x : State, x = s.asOwner t m → writeEffect x a (newWord x a data (mask &&& BitVec.ofNat 32 rw))
      (data &&& mask &&& BitVec.ofNat 32 w1s).toNat sig = eff) : OwnerActs s t m c a eff := by
  refine ownerActs_plain hc hrow hown BitVec.and_zero ?_
  rw [Nat.or_zero]
  exact heff _ rfl

/-- A row whose write sets bits that start something, and nothing in the register. -/
theorem ownerActs_sets {c : Instr} {t : Nat} {m : Master} {a rw w1s : Nat} {data mask : Word} {sig : Option Bool} {eff : State → Option State}
    (hc : WritesReg c t m a data mask sig) (hrow : PlainRow a rw w1s 0) (hown : s.Owned t m)
    (heff : ∀ (x : State) (new : Word), writeEffect x a new (data &&& mask &&& BitVec.ofNat 32 w1s).toNat sig = eff x) :
    OwnerActs s t m c a (eff (s.asOwner t m)) := ownerActs_free hc hrow hown fun x hx => hx ▸ heff x _

theorem heldWord_plain {a : Nat} (h : ¬(a / 4096 = 0x018 ∨ a / 4096 = 0x019)) : s.heldWord a = s.reg a := by
  rw [State.heldWord]
  simp [not_or.mp h]

/-- A row that writes its register with the word as it stands, brought into its ranges, and starts something. -/
theorem ownerActs_keep {c : Instr} {t : Nat} {m : Master} {a rw w1s : Nat} {data mask : Word} {sig : Option Bool} {eff : State → Option State}
    (hc : WritesReg c t m a data mask sig) (hrow : PlainRow a rw w1s 0) (hmask : mask &&& BitVec.ofNat 32 rw = 0#32) (hown : s.Owned t m)
    (heff : ∀ (x : State) (new : Word),
      writeEffect x a new (data &&& mask &&& BitVec.ofNat 32 w1s).toNat sig = eff (x.setReg a new.toNat)) :
    OwnerActs s t m c a (eff ((s.asOwner t m).setReg a (clampWord a ((s.asOwner t m).reg a)))) := ownerActs_free hc hrow hown fun x hx => by
  rw [heff, hmask, newWord_zero _ (heldWord_plain hrow.2.2), setReg_word, hx]

/-- A row that writes bit 0 of its register, whose fields have no ranges. -/
theorem ownerActs_low {c : Instr} {t : Nat} {m : Master} {a rw w1s iw : Nat} {data mask : Word} {sig : Option Bool} {eff : State → Option State}
    (hc : WritesReg c t m a data mask sig) (hrow : PlainRow a rw w1s iw) (hmask : mask &&& BitVec.ofNat 32 (rw ||| iw) = 1#32)
    (hiw : (BitVec.ofNat 32 iw).getLsbD 0 = false) (hclamp : ∀ v, clampWord a v = v) (hown : s.Owned t m)
    (heff : ∀ (x : State) (new : Word), new.toNat = withBits (x.reg a) 0 1 data.toNat →
      writeEffect x a new (data &&& mask &&& BitVec.ofNat 32 w1s).toNat sig = eff x) :
    OwnerActs s t m c a (eff (s.asOwner t m)) := by
  have hheld := heldWord_plain (s := s.asOwner t m) hrow.2.2
  have hnew : newWord (s.asOwner t m) a data 1#32 = mixBits (BitVec.ofNat 32 ((s.asOwner t m).heldWord a)) data 1#32 := by
    rw [newWord, hclamp, BitVec.ofNat_toNat, BitVec.setWidth_eq]
  refine ownerActs_plain hc hrow hown ?_ (heff _ _ ?_)
  · rw [hmask, hnew]
    exact mixBits_one_xor _ _ _ hiw
  · rw [hmask, hnew, mixBits_one_toNat, hheld, reg_word]

theorem bitOf_withBits_low (v : Nat) (b : Bool) : bitOf (withBits v 0 1 (b2n b)) 0 = b := by
  have h : withBits v 0 1 (b2n b) >>> 0 % 2 = b2n b % 2 := bitsOf_withBits_self v 0 1 (b2n b)
  rw [bitOf, h]
  cases b <;> rfl

theorem withBits_low_back (v d : Nat) : withBits (withBits v 0 1 d) 0 1 (bitsOf v 0 1) = v := by
  refine Nat.eq_of_testBit_eq fun i => ?_
  rw [testBit_withBits, testBit_withBits, testBit_bitsOf]
  by_cases hi : i < 1
  · simp [hi]
  · simp [hi]

theorem b2n_word (b : Bool) : (BitVec.ofNat 32 (b2n b)).toNat = b2n b := by cases b <;> rfl

theorem row_hpCtrl : ∀ h : Fin 8, PlainRow (HP.CTRL h).addr 1 0 0xE := by decide

theorem row_idCtrl : ∀ h : Fin 8, PlainRow (HP.ID_CTRL h).addr 2 1 0 := by decide

theorem row_atCtrl : ∀ h : Fin 8, PlainRow (AT.CTRL h).addr 1 0 0 := by decide

theorem clampWord_hpCtrl (h : Fin 8) (v : Nat) : clampWord (HP.CTRL h).addr v = v := by fin_cases h <;> rfl

theorem clampWord_atCtrl (h : Fin 8) (v : Nat) : clampWord (AT.CTRL h).addr v = v := by fin_cases h <;> rfl

theorem effect_hpCtrl (x : State) (h : Fin 8) (new : Word) (k : Nat) :
    writeEffect x (HP.CTRL h).addr new k none = some (x.hpCtrl h (HP.CTRL h).addr new.toNat) := by fin_cases h <;> rfl

theorem effect_atCtrl (x : State) (h : Fin 8) (new : Word) (k : Nat) :
    writeEffect x (AT.CTRL h).addr new k none = some (x.trackerEnable h (bitOf new.toNat 0)) := by fin_cases h <;> rfl

theorem effect_idCtrl (x : State) (h : Fin 8) (new : Word) :
    writeEffect x (HP.ID_CTRL h).addr new 1 none = some ((x.setReg (HP.ID_CTRL h).addr new.toNat).rechal h) := by fin_cases h <;> rfl

section
variable {t : Nat} {m : Master} (hown : s.Owned t m)
include hown

theorem row_stepAccept : OwnerActs s t m (.stepAccept t m) TMU.STEP_ACCEPT.addr (some (s.asOwner t m).stepAccept) :=
  ownerActs_sets (rw := 0) (w1s := 1) (eff := fun x => some x.stepAccept) (fun _ => rfl) (by decide) hown fun _ _ => rfl

theorem row_snapshotGo : OwnerActs s t m (.snapshotGo t m) TMU.SNAP_CTRL.addr (some (s.asOwner t m).snapshotGo) :=
  ownerActs_sets (rw := 0) (w1s := 1) (eff := fun x => some x.snapshotGo) (fun _ => rfl) (by decide) hown fun _ _ => rfl

theorem row_verify : OwnerActs s t m (.verify t m) SYS.IMG_CTRL.addr (s.asOwner t m).verify :=
  ownerActs_sets (rw := 0) (w1s := 1) (eff := State.verify) (fun _ => rfl) (by decide) hown fun _ _ => rfl

theorem row_flogPop : OwnerActs s t m (.flogPop t m) SI.FLOG_POP.addr (some (s.asOwner t m).flogPop) :=
  ownerActs_sets (rw := 0) (w1s := 1) (eff := fun x => some x.flogPop) (fun _ => rfl) (by decide) hown fun _ _ => rfl

theorem row_attGo : OwnerActs s t m (.attGo t m) SEC.ATT_CTRL.addr (s.asOwner t m).attGo :=
  ownerActs_sets (rw := 0) (w1s := 1) (eff := State.attGo) (fun _ => rfl) (by decide) hown fun _ _ => rfl

theorem row_recover (b : Bool) : OwnerActs s t m (.recover t m b) SEC.BOOT_CTRL.addr ((s.asOwner t m).recover b) :=
  ownerActs_sets (rw := 0) (w1s := 3) (eff := fun x => x.recover b) (fun _ => rfl) (by decide) hown fun _ _ => rfl

theorem row_flashWr : OwnerActs s t m (.flashWr t m) SEC.BOOT_CTRL.addr (s.asOwner t m).random.2.flashWr :=
  ownerActs_sets (rw := 0) (w1s := 3) (eff := fun x => x.random.2.flashWr) (fun _ => rfl) (by decide) hown fun _ _ => rfl

theorem row_mapCommit (levels : BitVec 16) :
    OwnerActs s t m (.mapCommit t m levels) (MAP.COMMIT 0).addr (some ((s.asOwner t m).mapCommit levels.toNat)) :=
  ownerActs_sets (rw := 0) (w1s := 0xFFFF) (eff := fun x => some (x.mapCommit levels.toNat)) (fun _ => rfl) (by decide) hown fun x new => by
    have hsets : (levels.zeroExtend 32 &&& 0xFFFF#32 &&& BitVec.ofNat 32 0xFFFF).toNat = levels.toNat := by
      rw [BitVec.and_assoc, show (0xFFFF#32 &&& BitVec.ofNat 32 0xFFFF) = 0xFFFF#32 from rfl, BitVec.toNat_and]
      have hl := levels.isLt
      rw [show (0xFFFF#32).toNat = 2 ^ 16 - 1 from rfl, Nat.and_two_pow_sub_one_eq_mod, BitVec.zeroExtend_eq_setWidth, BitVec.toNat_setWidth]
      omega
    exact congrArg (fun n => some (x.mapCommit n)) hsets

theorem row_pulse : OwnerActs s t m (.pulse t m) PLK.RST.addr
    (some ((s.asOwner t m).setReg PLK.RST.addr (clampWord PLK.RST.addr ((s.asOwner t m).reg PLK.RST.addr))).pulse) :=
  ownerActs_keep (rw := 0xFFFFF) (w1s := 0x1000000) (eff := fun x => some x.pulse) (fun _ => rfl) (by decide) (by decide) hown fun x new => by
    have hsets : ((0x1000000 : Word) &&& 0x1000000 &&& BitVec.ofNat 32 0x1000000).toNat = 0x1000000 := by decide
    have hbit : bitOf 0x1000000 24 = true := by decide
    have heff (n : Nat) : writeEffect x PLK.RST.addr new n none =
        some (if bitOf n 24 then (x.setReg PLK.RST.addr new.toNat).pulse else x.setReg PLK.RST.addr new.toNat) := rfl
    rw [hsets, heff, if_pos hbit]

theorem row_otp {c : Instr} {n : Nat} (hc : WritesReg c t m SEC.OTP_CMD.addr (BitVec.ofNat 32 n) 7 none) (hn : n ∈ [1, 2, 3, 4]) :
    OwnerActs s t m c SEC.OTP_CMD.addr
      (((s.asOwner t m).setReg SEC.OTP_CMD.addr (clampWord SEC.OTP_CMD.addr ((s.asOwner t m).reg SEC.OTP_CMD.addr))).otpCmd n) :=
  ownerActs_keep (rw := 0x130) (w1s := 7) (eff := fun x => x.otpCmd n) hc (by decide) (by decide) hown fun _ _ => by
    simp only [List.mem_cons, List.not_mem_nil, or_false] at hn
    rcases hn with rfl | rfl | rfl | rfl <;> rfl

theorem row_command {c : Instr} {n : Nat} (hc : WritesReg c t m SYS.CMD.addr (BitVec.ofNat 32 n) 7 none) (hn : n < 8) :
    OwnerActs s t m c SYS.CMD.addr ((s.asOwner t m).sysCmd n) :=
  ownerActs_free (rw := 7) (w1s := 0) hc (by decide) hown fun x hx => by
    have heff (new : Word) (k : Nat) : writeEffect x SYS.CMD.addr new k none = x.sysCmd (new.toNat % 8) := rfl
    have hnew : (newWord x SYS.CMD.addr (BitVec.ofNat 32 n) 7#32).toNat % 8 = n := by
      rw [newWord, show (clampWord SYS.CMD.addr) = id from rfl, id, BitVec.ofNat_toNat, BitVec.setWidth_eq, mixBits_seven_mod,
        BitVec.toNat_ofNat]
      omega
    rw [heff, show (7 : Word) &&& BitVec.ofNat 32 7 = 7#32 from rfl, hnew, hx]

theorem row_partnerLinkEnable (b : Bool) : OwnerActs s t m (.partnerLinkEnable t m b) PLK.CTRL.addr
    (some (((s.asOwner t m).setReg PLK.CTRL.addr ((s.asOwner t m).reg PLK.CTRL.addr)).linkEnable b)) :=
  ownerActs_low (rw := 7) (w1s := 0) (iw := 8) (eff := fun x => some ((x.setReg PLK.CTRL.addr (x.reg PLK.CTRL.addr)).linkEnable b))
    (fun _ => rfl) (by decide) (by decide) (by decide) (fun _ => rfl) hown fun x new hnew => by
      have heff (k : Nat) : writeEffect x PLK.CTRL.addr new k none = some (x.plkCtrl PLK.CTRL.addr new.toNat) := rfl
      rw [heff, State.plkCtrl, hnew, b2n_word, bitOf_withBits_low, State.get, show PLK.CTRL_EN = ⟨PLK.CTRL.addr, 0, 1⟩ from rfl,
        withBits_low_back]

theorem row_headPortEnable (h : Fin 8) : OwnerActs s t m (.headPortEnable t m h) (HP.CTRL h).addr
    (some (((s.asOwner t m).setReg (HP.CTRL h).addr ((s.asOwner t m).reg (HP.CTRL h).addr)).headEnable h true)) :=
  ownerActs_low (rw := 1) (w1s := 0) (iw := 0xE)
    (eff := fun x => some ((x.setReg (HP.CTRL h).addr (x.reg (HP.CTRL h).addr)).headEnable h true))
    (fun _ => rfl) (row_hpCtrl h) (by decide) (by decide) (clampWord_hpCtrl h) hown fun x new hnew => by
      rw [effect_hpCtrl, State.hpCtrl, hnew, show (1 : Word).toNat = b2n true from rfl, bitOf_withBits_low, State.get,
        show HP.CTRL_EN h = ⟨(HP.CTRL h).addr, 0, 1⟩ from rfl, withBits_low_back]

theorem row_trackerEnable (h : Fin 8) (b : Bool) : OwnerActs s t m (.trackerEnable t m h b) (AT.CTRL h).addr
    (some ((s.asOwner t m).trackerEnable h b)) :=
  ownerActs_low (rw := 1) (w1s := 0) (iw := 0) (eff := fun x => some (x.trackerEnable h b))
    (fun _ => rfl) (row_atCtrl h) (by decide) (by decide) (clampWord_atCtrl h) hown fun x new hnew => by
      rw [effect_atCtrl, hnew, b2n_word, bitOf_withBits_low]

theorem row_rechal (h : Fin 8) : OwnerActs s t m (.rechal t m h) (HP.ID_CTRL h).addr
    (some (((s.asOwner t m).setReg (HP.ID_CTRL h).addr (clampWord (HP.ID_CTRL h).addr ((s.asOwner t m).reg (HP.ID_CTRL h).addr))).rechal h)) :=
  ownerActs_keep (rw := 2) (w1s := 1) (eff := fun x => some (x.rechal h)) (fun _ => rfl) (row_idCtrl h) (by decide) hown
    fun x new => effect_idCtrl x h new

theorem row_outputEnable : OwnerActs s t m (.outputEnable t m) OUT.CTRL.addr
    (some (if (s.asOwner t m).on OUT.CTRL_EN then
        (s.asOwner t m).setReg OUT.CTRL.addr (clampWord OUT.CTRL.addr (withBits ((s.asOwner t m).reg OUT.CTRL.addr) 0 1 1))
      else (((s.asOwner t m).setReg OUT.CTRL.addr
        (clampWord OUT.CTRL.addr (withBits ((s.asOwner t m).reg OUT.CTRL.addr) 0 1 1))).arpStart 0).arpStart 1)) :=
  ownerActs_low (rw := 0x1F) (w1s := 0) (iw := 0)
    (eff := fun x => some (if x.on OUT.CTRL_EN then x.setReg OUT.CTRL.addr (clampWord OUT.CTRL.addr (withBits (x.reg OUT.CTRL.addr) 0 1 1))
      else ((x.setReg OUT.CTRL.addr (clampWord OUT.CTRL.addr (withBits (x.reg OUT.CTRL.addr) 0 1 1))).arpStart 0).arpStart 1))
    (fun _ => rfl) (by decide) (by decide) (by decide) (fun _ => rfl) hown fun x new hnew => by
      have heff (k : Nat) : writeEffect x OUT.CTRL.addr new k none = some (x.outCtrl OUT.CTRL.addr new.toNat) := rfl
      have hclamp (v : Nat) : clampWord OUT.CTRL.addr v = v := rfl
      rw [heff, State.outCtrl, hnew, show (1 : Word).toNat = b2n true from rfl, bitOf_withBits_low, hclamp]
      cases x.on OUT.CTRL_EN <;> rfl

end

/-! ### Rows on the host ports' pages and rows of any page -/

theorem macLocked_unlocked {p ofs : Nat} {data mask : Word} (h : s.on (HS.MACSEC_LOCK p) = false) : s.macLocked p ofs data mask = false := by
  rw [State.macLocked, h, Bool.false_and]

/-- A locked port keeps what is not among its locked registers and bits (R311). -/
theorem macLocked_apart {p ofs : Nat} {data mask : Word} (hofs : ¬(0x064 ≤ ofs ∧ ofs < 0x0A0)) (hmask : ofs = 0x060 → mask &&& 0xFFFF0003#32 = 0#32) :
    s.macLocked p ofs data mask = false := by
  rw [State.macLocked]
  by_cases h : ofs = 0x060
  · rw [BitVec.and_assoc, hmask h, BitVec.and_zero]
    simp [h]
  · simp only [h, decide_false, Bool.false_and, Bool.false_or]
    simp only [Bool.and_eq_false_imp, decide_eq_true_eq, decide_eq_false_iff_not]
    exact fun _ h1 h2 => hofs ⟨h1, h2⟩

/-- The owner's write to a register whose fields may be written while its block runs. -/
theorem ownerActs_unlocked {c : Instr} {t : Nat} {m : Master} {a rw w1s : Nat} {data mask : Word} {sig : Option Bool} {eff : Option State}
    (hc : WritesReg c t m a data mask sig) (hrow : HasTypes a rw w1s 0) (hany : BitVec.ofNat 32 rw ||| BitVec.ofNat 32 w1s ≠ 0#32)
    (hown : s.Owned t m)
    (hmac : (a / 4096 = 0x018 ∨ a / 4096 = 0x019) → (s.asOwner t m).macLocked (a / 4096 - 0x018) (a % 4096) data mask = false)
    (heff : ∀ x : State, x = s.asOwner t m → writeEffect x a (newWord x a data (mask &&& BitVec.ofNat 32 rw))
      (data &&& mask &&& BitVec.ofNat 32 w1s).toNat sig = eff) : OwnerActs s t m c a eff := fun hdev hoff hload _ hy => by
  refine write_owner hc hown (writeReg_acts hrow ?_ hdev hoff hmac (fun _ => BitVec.and_zero) ?_)
  · rw [Nat.or_zero]
    exact hany
  · rw [hload, Option.getD_none, Nat.or_zero, heff _ rfl, hy]

/-- The same for a register whose word the effect does not ask for: a load of it in the same cycle does not matter. -/
theorem ownerSets_unlocked {c : Instr} {t : Nat} {m : Master} {a rw w1s : Nat} {data mask : Word} {sig : Option Bool} {y : State}
    (hc : WritesReg c t m a data mask sig) (hrow : HasTypes a rw w1s 0) (hany : BitVec.ofNat 32 rw ||| BitVec.ofNat 32 w1s ≠ 0#32)
    (hown : s.Owned t m) (hdev : (s.asOwner t m).dev ≠ dsHold) (hoff : (s.asOwner t m).pageOff (a / 4096) = false)
    (hmac : (a / 4096 = 0x018 ∨ a / 4096 = 0x019) → (s.asOwner t m).macLocked (a / 4096 - 0x018) (a % 4096) data mask = false)
    (heff : ∀ new : Word, writeEffect (s.asOwner t m) a new (data &&& mask &&& BitVec.ofNat 32 w1s).toNat sig = some y) :
    exec c s = .next ((s.at_ t).finish y.secAfter) := by
  refine write_owner hc hown (writeReg_acts hrow ?_ hdev hoff hmac (fun _ => BitVec.and_zero) (heff _))
  rw [Nat.or_zero]
  exact hany

theorem row_macsec : ∀ p : Fin 2, HasTypes (HS.MACSEC p).addr 0xFFFF000B 4 0 := by decide

theorem row_keyCtrl : ∀ p : Fin 2, HasTypes (HS.KEY_CTRL p).addr 0 1 0 := by decide

theorem clampWord_macsec (p : Fin 2) (v : Nat) : clampWord (HS.MACSEC p).addr v = v := by fin_cases p <;> rfl

theorem heldWord_macsec (x : State) (p : Fin 2) : x.heldWord (HS.MACSEC p).addr = x.reg (HS.MACSEC p).addr := by fin_cases p <;> rfl

theorem place_macsec : ∀ p : Fin 2, (HS.MACSEC p).addr / 4096 - 0x018 = p ∧ (HS.MACSEC p).addr % 4096 = 0x060 := by decide

theorem place_keyCtrl : ∀ p : Fin 2, (HS.KEY_CTRL p).addr / 4096 - 0x018 = p := by decide

theorem effect_macsec (x : State) (p : Fin 2) (new : Word) (k : Nat) :
    writeEffect x (HS.MACSEC p).addr new k none = some (x.macsecWritten p new.toNat (bitOf k 2)) := by fin_cases p <;> rfl

theorem effect_keyCtrl (x : State) (p : Fin 2) (new : Word) :
    writeEffect x (HS.KEY_CTRL p).addr new 1 none = some (x.keyLoad p) := by fin_cases p <;> rfl

/-- A page's register that starts something by one bit and has no bit of another type there. -/
abbrev HasBit (a bit : Nat) : Prop :=
  aliasOf a = a ∧ ∃ d, regRow a = some d ∧ d.rw &&& bit = 0 ∧ d.iw = 0 ∧ d.w1c = 0 ∧ d.w1s = bit ∧ d.sh = 0

theorem hasTypes_of_hasBit {a bit : Nat} (h : HasBit a bit) : ∃ rw, HasTypes a rw bit 0 ∧ rw &&& bit = 0 := by
  obtain ⟨ha, d, hd, hrw, hiw, hw1c, hw1s, hsh⟩ := h
  refine ⟨d.rw, ⟨ha, ?_⟩, hrw⟩
  rw [hd, Option.map_some, hiw, hw1c, hw1s, hsh]

theorem page_header {page ofs : Nat} (h : ofs < 4096) : (page * 4096 + ofs) / 4096 = page := by omega

theorem or_one_ne_zero (w : Word) {v : Word} (h : v ≠ 0#32) : w ||| v ≠ 0#32 := fun h0 => h (BitVec.or_eq_zero_iff.mp h0).2

theorem cntClr_place : ∀ code ∈ blocks.map BlockDef.code, ∀ e ∈ cntClr code, 0x040 ≤ e.1 ∧ e.1 < 4096 := by decide

theorem blockCode_mem {page : Nat} (h : blockCode page ≠ 0) : blockCode page ∈ blocks.map BlockDef.code := by
  rw [blockCode] at h ⊢
  cases hb : blockOf page with
  | none => exact absurd (by rw [hb]; rfl) h
  | some b => exact List.mem_map_of_mem (List.mem_of_find?_eq_some hb)

theorem cntClr_hostPort : ∀ page ∈ [0x018, 0x019], ∀ e ∈ cntClr (blockCode page), e.1 = 0x0B4 := by decide

section
variable {t : Nat} {m : Master} (hown : s.Owned t m)
include hown

theorem row_macsecLock (p : Fin 2) : OwnerActs s t m (.macsecLock t m p) (HS.MACSEC p).addr
    (some ((s.asOwner t m).macsecWritten p ((s.asOwner t m).reg (HS.MACSEC p).addr) true)) := by
  refine ownerActs_unlocked (data := 4) (mask := 4) (sig := none) (fun _ => rfl) (row_macsec p) (by decide) hown (fun _ => ?_) fun x hx => ?_
  · refine macLocked_apart ?_ fun _ => by decide
    rw [(place_macsec p).2]
    decide
  · rw [effect_macsec, show (4 : Word) &&& BitVec.ofNat 32 0xFFFF000B = 0#32 from by decide, newWord_zero _ (heldWord_macsec x p),
      clampWord_macsec, reg_word, hx]
    rfl

theorem row_macsecEnable (p : Fin 2) (hlock : (s.asOwner t m).on (HS.MACSEC_LOCK p) = false) : OwnerActs s t m (.macsecEnable t m p)
    (HS.MACSEC p).addr (some ((s.asOwner t m).macsecWritten p (withBits ((s.asOwner t m).reg (HS.MACSEC p).addr) 0 1 1) false)) := by
  refine ownerActs_unlocked (data := 1) (mask := 1) (sig := none) (fun _ => rfl) (row_macsec p) (by decide) hown (fun _ => ?_) fun x hx => ?_
  · rw [(place_macsec p).1]
    exact macLocked_unlocked hlock
  · rw [effect_macsec, show (1 : Word) &&& BitVec.ofNat 32 0xFFFF000B = 1#32 from by decide, newWord_one _ (heldWord_macsec x p),
      clampWord_macsec, BitVec.toNat_ofNat, Nat.mod_eq_of_lt (withBits_lt (by decide) (reg_lt x _)), hx]
    rfl

theorem row_keyLoad (p : Fin 2) (hlock : (s.asOwner t m).on (HS.MACSEC_LOCK p) = false) (hdev : (s.asOwner t m).dev ≠ dsHold)
    (hoff : (s.asOwner t m).pageOff ((HS.KEY_CTRL p).addr / 4096) = false) :
    exec (.keyLoad t m p) s = .next ((s.at_ t).finish ((s.asOwner t m).keyLoad p).secAfter) := by
  refine ownerSets_unlocked (a := (HS.KEY_CTRL p).addr) (data := 1) (mask := 1) (sig := none) (fun _ => rfl) (row_keyCtrl p) (by decide)
    hown hdev hoff (fun _ => ?_) fun new => effect_keyCtrl _ p new
  rw [place_keyCtrl p]
  exact macLocked_unlocked hlock

theorem row_imuEnable (hrun : (s.asOwner t m).blockRuns 0x020 = false) (hen : (s.asOwner t m).on (ING.IMU_CFG_EN 0) = false) :
    OwnerActs s t m (.imuEnable t m) (ING.IMU_CFG 0).addr (some ((s.asOwner t m).setReg (ING.IMU_CFG 0).addr
      (clampWord (ING.IMU_CFG 0).addr (withBits ((s.asOwner t m).reg (ING.IMU_CFG 0).addr) 0 1 1))).imuEnabled) := fun hdev hoff hload _ hy => by
  refine write_owner (data := 1) (mask := 1) (sig := none) (fun _ => rfl) hown
    (writeReg_acts (rw := 0) (w1s := 0) (iw := 0xFFFF07) (by decide) (by decide) hdev hoff (fun h => absurd h (by decide))
      (fun h => absurd (hrun.symm.trans h) Bool.false_ne_true) ?_)
  rw [hload, Option.getD_none]
  have hheld : (s.asOwner t m).heldWord (ING.IMU_CFG 0).addr = (s.asOwner t m).reg (ING.IMU_CFG 0).addr := rfl
  have hclamp (v : Nat) : clampWord (ING.IMU_CFG 0).addr v = v := rfl
  have hold : bitOf ((s.asOwner t m).reg (ING.IMU_CFG 0).addr) 0 = false := hen
  have heff (x : State) (new : Word) (k : Nat) : writeEffect x (ING.IMU_CFG 0).addr new k none =
    some (if bitOf new.toNat 0 && !bitOf (BitVec.ofNat 32 (x.heldWord (ING.IMU_CFG 0).addr)).toNat 0 then
      (x.setReg (ING.IMU_CFG 0).addr new.toNat).imuEnabled else x.setReg (ING.IMU_CFG 0).addr new.toNat) := rfl
  rw [heff, show (1 : Word) &&& BitVec.ofNat 32 (0 ||| 0xFFFF07) = 1#32 from by decide, newWord_one _ hheld, hheld, reg_word, hold, setReg_word,
    BitVec.toNat_ofNat, hclamp, Nat.mod_eq_of_lt (withBits_lt (by decide) (reg_lt _ _)), show (1 : Word).toNat = b2n true from rfl,
    bitOf_withBits_low, Bool.not_false, Bool.and_true, if_pos rfl]
  exact hy

theorem row_pgCommit {page : BitVec 12} (hbit : HasBit (page.toNat * 4096 + 0x024) 1) (hdev : (s.asOwner t m).dev ≠ dsHold)
    (hoff : (s.asOwner t m).pageOff page.toNat = false) {y : State} (hy : (s.asOwner t m).pgCommit page.toNat = some y) :
    exec (.pgCommit t m page) s = .next ((s.at_ t).finish y.secAfter) := by
  obtain ⟨rw, hrow, -⟩ := hasTypes_of_hasBit hbit
  have hofs : (page.toNat * 4096 + 0x024) % 4096 = 0x024 := by omega
  have hpage : (page.toNat * 4096 + 0x024) / 4096 = page.toNat := by omega
  refine ownerSets_unlocked (data := 1) (mask := 1) (sig := none) (fun _ => rfl) hrow (or_one_ne_zero _ (by decide)) hown hdev
    (by rwa [hpage]) (fun _ => ?_) fun new => ?_
  · rw [hofs]
    exact macLocked_apart (by decide) fun h => absurd h (by decide)
  · rw [writeEffect, hofs, hpage, if_pos (by decide)]
    exact hy

theorem row_fire {page : BitVec 12} (hbit : HasBit (page.toNat * 4096 + 0x020) 0x100)
    (hclamp : clampWord (page.toNat * 4096 + 0x020) ((s.asOwner t m).reg (page.toNat * 4096 + 0x020)) =
      (s.asOwner t m).reg (page.toNat * 4096 + 0x020)) : OwnerActs s t m (.fire t m page) (page.toNat * 4096 + 0x020)
    (((s.asOwner t m).setReg (page.toNat * 4096 + 0x020) ((s.asOwner t m).reg (page.toNat * 4096 + 0x020))).fireInj page.toNat) := by
  obtain ⟨rw, hrow, hrw⟩ := hasTypes_of_hasBit hbit
  have hofs : (page.toNat * 4096 + 0x020) % 4096 = 0x020 := by omega
  have hpage : (page.toNat * 4096 + 0x020) / 4096 = page.toNat := by omega
  have hmask : (0x100 : Word) &&& BitVec.ofNat 32 rw = 0#32 := by
    rw [BitVec.and_comm, show (0x100 : Word) = BitVec.ofNat 32 0x100 from rfl, ← BitVec.ofNat_and, hrw]
  have hheld (x : State) : x.heldWord (page.toNat * 4096 + 0x020) = x.reg (page.toNat * 4096 + 0x020) := by
    rw [State.heldWord, hofs, if_neg (by simp)]
  refine ownerActs_unlocked (data := 0x100) (mask := 0x100) (sig := none) (fun _ => rfl) hrow (or_one_ne_zero _ (by decide)) hown (fun _ => ?_)
    fun x hx => ?_
  · rw [hofs]
    exact macLocked_apart (by decide) fun h => absurd h (by decide)
  · rw [writeEffect, hmask, newWord_zero _ (hheld x), hx, hclamp, reg_word, hofs, hpage, if_pos (by decide)]
    rfl

theorem row_counterClear {page : BitVec 12} (hbit : HasBit (cntClrAddr page.toNat) 1) (hclr : (cntClr (blockCode page.toNat)).isSome = true)
    (hdev : (s.asOwner t m).dev ≠ dsHold) (hoff : (s.asOwner t m).pageOff page.toNat = false) :
    exec (.counterClear t m page) s = .next ((s.at_ t).finish ((s.asOwner t m).clearCounters page.toNat).secAfter) := by
  obtain ⟨rw, hrow, -⟩ := hasTypes_of_hasBit hbit
  obtain ⟨e, he⟩ := Option.isSome_iff_exists.mp hclr
  have haddr : cntClrAddr page.toNat = page.toNat * 4096 + e.1 := by rw [cntClrAddr, he]; rfl
  have hcode : blockCode page.toNat ≠ 0 := fun h0 => by
    rw [h0] at he
    exact absurd he.symm (Option.some_ne_none e)
  obtain ⟨hlow, hhigh⟩ := cntClr_place _ (blockCode_mem hcode) e he
  have hofs : cntClrAddr page.toNat % 4096 = e.1 := by omega
  have hpage : cntClrAddr page.toNat / 4096 = page.toNat := by omega
  refine ownerSets_unlocked (data := 1) (mask := 1) (sig := none) (fun _ => rfl) hrow (or_one_ne_zero _ (by decide)) hown hdev
    (by rwa [hpage]) (fun h => ?_) fun new => ?_
  · rw [hpage] at h
    have hB4 : e.1 = 0x0B4 := cntClr_hostPort page.toNat (by simpa using h) e he
    rw [hofs, hB4]
    exact macLocked_apart (by decide) fun h => absurd h (by decide)
  · rw [writeEffect, hofs, hpage, if_neg (by omega), State.blockWrite, he, Option.map_some, if_pos rfl]
    rfl

end

/-- Settles O40: every row is an `OwnerActs`; the rows that need more take their hypothesis. -/
theorem ownersWritesAct : Obligations.OwnersWritesAct := by
  refine ⟨?_, ?_⟩
  · intro s t m h p levels b c addr eff hown x keep en hmem hdev
    revert hdev
    show OwnerActs s t m c addr eff
    simp only [List.mem_cons, List.not_mem_nil, or_false, Prod.mk.injEq] at hmem
    rcases hmem with ⟨rfl, rfl, rfl⟩ | ⟨rfl, rfl, rfl⟩ | ⟨rfl, rfl, rfl⟩ | ⟨rfl, rfl, rfl⟩ | ⟨rfl, rfl, rfl⟩ | ⟨rfl, rfl, rfl⟩ |
      ⟨rfl, rfl, rfl⟩ | ⟨rfl, rfl, rfl⟩ | ⟨rfl, rfl, rfl⟩ | ⟨rfl, rfl, rfl⟩ | ⟨rfl, rfl, rfl⟩ | ⟨rfl, rfl, rfl⟩ | ⟨rfl, rfl, rfl⟩ |
      ⟨rfl, rfl, rfl⟩ | ⟨rfl, rfl, rfl⟩ | ⟨rfl, rfl, rfl⟩ | ⟨rfl, rfl, rfl⟩ | ⟨rfl, rfl, rfl⟩ | ⟨rfl, rfl, rfl⟩ | ⟨rfl, rfl, rfl⟩ |
      ⟨rfl, rfl, rfl⟩ | ⟨rfl, rfl, rfl⟩ | ⟨rfl, rfl, rfl⟩
    · exact row_stepAccept hown
    · exact row_snapshotGo hown
    · exact row_headPortEnable hown h
    · exact row_rechal hown h
    · exact row_trackerEnable hown h b
    · exact row_mapCommit hown levels
    · exact row_verify hown
    · exact row_command (n := 1) hown (fun _ => rfl) (by decide)
    · exact row_command (n := 2) hown (fun _ => rfl) (by decide)
    · exact row_command (n := 3) hown (fun _ => rfl) (by decide)
    · exact fun hdev hoff hload y hy => row_command (c := .goHold t m) (n := 4) hown (fun _ => rfl) (by decide) hdev hoff hload y ((if_neg hdev).trans hy)
    · exact row_macsecLock hown p
    · exact row_partnerLinkEnable hown b
    · exact row_pulse hown
    · exact row_flogPop hown
    · exact row_otp hown (n := 1) (fun _ => rfl) (by decide)
    · exact row_otp hown (n := 2) (fun _ => rfl) (by decide)
    · exact row_otp hown (n := 3) (fun _ => rfl) (by decide)
    · exact row_otp hown (n := 4) (fun _ => rfl) (by decide)
    · exact row_attGo hown
    · exact row_recover hown b
    · exact row_flashWr hown
    · exact row_outputEnable hown
  · intro s t m p page hown x pg hasBit hdev hoff hloads
    have hload {a : Nat} (ha : a ∈ [pg * 4096 + 0x020, (HS.MACSEC p).addr, (ING.IMU_CFG 0).addr]) := hloads a ha
    refine ⟨fun hbit y hy => row_pgCommit hown hbit hdev hoff hy, fun hbit hclr => row_counterClear hown hbit hclr hdev hoff,
      fun hbit hclamp y hy => ?_, fun hpg hlock => ⟨row_keyLoad hown p hlock hdev ?_, ?_⟩, fun hpg hruns hen => ?_⟩
    · exact row_fire hown hbit hclamp hdev (by rwa [page_header (by decide)]) (hload (by simp [pg])) y hy
    · rwa [HS.KEY_CTRL, page_header (by decide), ← hpg]
    · refine row_macsecEnable hown p hlock hdev ?_ (hload (by simp)) _ rfl
      rwa [HS.MACSEC, page_header (by decide), ← hpg]
    · refine row_imuEnable hown hruns hen hdev ?_ (hload (by simp)) _ rfl
      rwa [ING.IMU_CFG, page_header (by decide), ← hpg]

/-! ### A load and an event in one cycle -/

/-- A machine at its reset values whose hardware, in this cycle, has set the event LINK_DOWN of head port 0 and has loaded its register with
0 as well: the statement of O39 speaks of loads of the latency registers alone. -/
def loadedEvent : State :=
  { State.reset.set1 (HP.EVT_LINK_DOWN 0) with
    cyc := { sets := [((HP.EVT_LINK_DOWN 0).addr, 0xFFFFFFFF#32)], loads := [((HP.EVT_LINK_DOWN 0).addr, 0#32)] } }

theorem loadedEvent_lost : (loadedEvent.writeReg (HP.EVT_LINK_DOWN 0).addr 0 0 none).2.on (HP.EVT_LINK_DOWN 0) = false := by decide

/-- Refutes O39: in `loadedEvent` the word that the hardware loads into the event register in the same cycle replaces it, the event bit with
it; nothing in the statement keeps the register of the event from being loaded. -/
theorem not_registerWrites : ¬ Obligations.RegisterWrites := by
  unfold Obligations.RegisterWrites
  intro h
  obtain ⟨-, -, -, hcycle⟩ := h loadedEvent 0 0 0 none
  obtain ⟨-, hkept⟩ := (hcycle 0 (by decide) (by decide)).1 0xFFFFFFFF#32 (by decide) (by decide) (by decide)
  exact Bool.false_ne_true (loadedEvent_lost.symm.trans hkept)

end Sys2Proof.Proofs
end

section
/-! PROOFS. Ownership and notification (R320 to R324, R329): what a claim comes to, the claim that wins, and when a NOTIFY frame leaves. -/

namespace Sys2Proof.Proofs

open Sys2Proof.Machine Sys2Proof.Laws

variable {s u v : State}

/-! ### Claims -/

/-- The owner's own claim is granted again: its PRIO and its lease are set anew. -/
theorem claim_ownersOwn {c : Claim} (at_ : Nat) (hm : c.m ≠ 2) (hoffer : s.own.offer = none) (howner : s.own.owner = some c.m)
    (hlease : s.mono < s.own.leaseEnd) : s.claim c at_ = (.answer frOk s.own.token,
      s.ow (fun o => { o with prio := c.prio, leaseEnd := max o.leaseEnd (at_ + 200 * tickMs) })) := by
  simp [State.claim, leaseEnds_of_running hlease, offerLapses_of_none hoffer, hm, howner]

/-- A claim while another master owns the device, which has offered it to nobody, is refused. -/
theorem claim_refused {c : Claim} {o : Nat} (at_ : Nat) (hm : c.m ≠ 2) (hoffer : s.own.offer = none) (howner : s.own.owner = some o)
    (hother : o ≠ c.m) (hlease : s.mono < s.own.leaseEnd) : s.claim c at_ = (.answer frOwned 0, s.set1 SYS.EVT_CLAIM_REFUSED) := by
  simp [State.claim, leaseEnds_of_running hlease, offerLapses_of_none hoffer, hm, howner, hother, hoffer]

theorem winner_eq_none {l : List Claim} (h : winner l = none) : l = [] := by
  cases l with
  | nil => rfl
  | cons c cs =>
    rw [winner] at h
    split at h
    · exact absurd h (Option.some_ne_none c)
    · split at h <;> exact absurd h (Option.some_ne_none _)

/-- The winner is one of the claims, and no other has a lower PRIO. -/
theorem winner_lowest {l : List Claim} {w : Claim} (h : winner l = some w) : w ∈ l ∧ ∀ d ∈ l, w.prio ≤ d.prio := by
  induction l generalizing w with
  | nil => exact absurd h.symm (Option.some_ne_none w)
  | cons c cs ih =>
    rw [winner] at h
    split at h
    next hnone =>
      obtain rfl := Option.some.inj h
      rw [winner_eq_none hnone]
      exact ⟨List.mem_singleton.mpr rfl, fun d hd => by rw [List.mem_singleton.mp hd]⟩
    next d hd =>
      obtain ⟨hmem, hlow⟩ := ih hd
      split at h
      next hless =>
        obtain rfl := Option.some.inj h
        have hprio : c.prio ≤ d.prio := by
          simp only [Bool.or_eq_true, Bool.and_eq_true, decide_eq_true_eq] at hless
          omega
        exact ⟨List.mem_cons_self, List.forall_mem_cons.mpr ⟨le_refl _, fun e he => hprio.trans (hlow e he)⟩⟩
      next hnot =>
        obtain rfl := Option.some.inj h
        have hprio : d.prio ≤ c.prio := by
          simp only [Bool.or_eq_true, Bool.and_eq_true, decide_eq_true_eq] at hnot
          omega
        exact ⟨List.mem_cons_of_mem _ hmem, List.forall_mem_cons.mpr ⟨hprio, hlow⟩⟩

/-- An election with one claim, at the close of its window. -/
theorem electionCloses_single {c : Claim} {e : Nat} {ok lost : Bytes} (hwindow : s.own.window = some e) (hclaims : s.own.claims = [c])
    (hclose : e ≤ s.mono) (hrng : s.rngOk = true) :
    s.electionCloses ok lost =
      (let x := s.ow (fun o => { o with window := none, claims := [] })
       let y := (x.grant c.m c.prio x.mono).set1 SYS.EVT_OWNER_GRANTED
       y.claimAnswer c frOk y.own.token ok) := by
  have hguard : ¬((decide (s.mono < e) || !s.rngOk) = true) := by
    rw [hrng, decide_eq_false (Nat.not_lt.mpr hclose)]
    decide
  unfold State.electionCloses
  rw [hwindow]
  dsimp only
  rw [if_neg hguard, hclaims]
  dsimp only [winner]
  rw [List.foldl_cons, List.foldl_nil, if_pos rfl]

/-! ### Leases and offers that end -/

theorem leaseEnds_of_over (howned : s.own.owner.isSome = true) (hover : s.own.leaseEnd ≤ s.mono) :
    s.leaseEnds = s.ownerGone.raise SYS.EVT_OWNER_LOST 0 := by
  rw [State.leaseEnds, howned, decide_eq_true hover, Bool.and_true, if_pos rfl]

theorem offerLapses_of_over {m e : Nat} (hoffer : s.own.offer = some (m, e)) (hover : e ≤ s.mono) :
    s.offerLapses = s.ow (fun o => { o with offer := none }) := by simp [State.offerLapses, hoffer, hover]

theorem Ends.offer {z : State} (h : Ends z u) : u.own.offer = z.own.offer := by
  obtain ⟨hact, s0, -, rfl⟩ := h
  simp only [State.finish, settle_of_quiet _ hact]
  rfl

theorem offerLapse_completes {t m e : Nat} (hrun : s.Running t) (hoffer : s.own.offer = some (m, e)) (hover : e ≤ max s.mono t) :
    Completes (.handoverOfferLapse t) s (fun u => u.own.offer = none ∧ u.own.owner = s.own.owner ∧ u.own.token = s.own.token ∧
      u.regs = s.regs ∧ MemKept s u) :=
  completes_ends hrun (rfl : _ = execHandoverOfferLapse t s) (offerLapses_of_over (s := s.clock t) hoffer hover) hrun.2.1 fun _ he =>
    ⟨he.offer, he.owner, he.token, he.regs, he.memKept (memKept_of rfl rfl rfl rfl rfl rfl rfl rfl)⟩

theorem release_told (s : State) : s.release.own.owner = none ∧ s.release.own.token = 0 ∧ s.release.on SYS.EVT_RELEASED = true :=
  ⟨rfl, rfl, on_set1_self _ _ (by decide) rfl⟩

/-! ### Notifications -/

theorem notify_sent {t : Nat} {c : Fin 2} (hrun : s.Running t) (hdue : s.own.notifyDue.getD c false = true)
    (hover : (s.clock t).holdoffOver c = true) : exec (.notify t c) s = .next ((s.clock t).finish ((s.clock t).sendNotify c)) :=
  exec_run_clock hrun (rfl : _ = execNotify t c s) (when_true (by rw [clock_own, hdue, hover]; rfl))

theorem holdoffExpiry_sent {t : Nat} {c : Fin 2} (hrun : s.Running t) (hdue : s.own.notifyDue.getD c false = true)
    (hlast : (s.own.notifyAt.getD c none).isSome = true) (hover : (s.clock t).holdoffOver c = true) :
    exec (.holdoffExpiry t c) s = .next ((s.clock t).finish ((s.clock t).sendNotify c)) :=
  exec_run_clock hrun (rfl : _ = execHoldoffExpiry t c s) (when_true (by rw [clock_own, hdue, hlast, hover]; rfl))

/-- A client that is due no NOTIFY, or whose holdoff still runs, is sent none. -/
theorem notify_none {t : Nat} {c : Fin 2} (hrun : s.Running t) (h : s.own.notifyDue.getD c false = false ∨ (s.clock t).holdoffOver c = false) :
    Completes (.notify t c) s (fun u => u.outbox = s.outbox ∧ u.regs = s.regs ∧ MemKept s u) ∧
      Completes (.holdoffExpiry t c) s (fun u => u.outbox = s.outbox ∧ u.regs = s.regs ∧ MemKept s u) := by
  have hP : ∀ u, Ends (s.clock t) u → u.outbox = s.outbox ∧ u.regs = s.regs ∧ MemKept s u := fun u he =>
    ⟨he.outbox, he.regs, he.memKept (clock_onlyMem s t)⟩
  refine ⟨completes_ends hrun (rfl : _ = execNotify t c s) (when_false ?_) hrun.2.1 hP,
    completes_ends hrun (rfl : _ = execHoldoffExpiry t c s) (when_false ?_) hrun.2.1 hP⟩
  · rw [clock_own]
    rcases h with h | h <;> rw [h]
    · exact Bool.false_and _
    · exact Bool.and_false _
  · rw [clock_own]
    rcases h with h | h <;> rw [h]
    · rw [Bool.false_and, Bool.false_and]
    · exact Bool.and_false _

/-- Settles O44: that the owner's own claim sets PRIO (`claim_ownersOwn`) is assumption 51, the model's choice. -/
theorem ownershipAndNotification : Obligations.OwnershipAndNotification := by
  refine ⟨fun s t hrun => ⟨fun c at_ hm hoffer => ⟨fun hfree => ?_, fun o howner hlease => ⟨fun ho => ?_, fun ho => ?_⟩⟩, fun c w => winner_lowest,
    fun e c hwindow hclaims hclose hrng => ?_, fun howned hover => ?_, fun hruns => ?_, fun m e hoffer hover => offerLapse_completes hrun hoffer hover,
    (release_told s).1, (release_told s).2.1, (release_told s).2.2, fun m hm howner => handover_offered howner (fun h => by omega)⟩, ?_⟩
  · rw [claim_held at_ hfree hoffer (fun h => by omega)]
    exact ⟨rfl, rfl⟩
  · rw [claim_ownersOwn at_ (by omega) hoffer (ho ▸ howner) hlease]
    exact ⟨rfl, rfl⟩
  · exact claim_refused at_ (by omega) hoffer howner ho hlease
  · intro x y
    refine exec_run_eq hrun.1 (rfl : _ = execElectionClose t s) ?_
    rw [electionCloses_single (e := e) (c := c) (by rw [hrun.2.2]; exact hwindow) (by rw [hrun.2.2]; exact hclaims)
      (by rw [hrun.2.2]; exact hclose) hrng]
  · exact exec_run_eq hrun.1 (rfl : _ = execLeaseExpiry t s)
      (leaseEnds_of_over (by rw [hrun.2.2]; exact howned) (by rw [hrun.2.2]; exact hover))
  · exact exec_run_eq hrun.1 (rfl : _ = execLeaseExpiry t s) (leaseEnds_of_running (by rw [hrun.2.2]; exact hruns))
  · intro s t c hrun
    rw [hrun.2.2]
    intro x
    exact ⟨fun hdue hover => ⟨notify_sent hrun hdue hover, fun hlast => holdoffExpiry_sent hrun hdue hlast hover⟩, notify_none hrun⟩

end Sys2Proof.Proofs
end

section
/-! PROOFS. The Tile Sequencer (R143, R150 to R158, R201, R204, R205): what a fetch comes to, and what the queues and the sequencer do with
the descriptor that it gives. -/

namespace Sys2Proof.Proofs

open Sys2Proof.Machine Sys2Proof.Laws

variable {s u v : State}

/-! ### The descriptors that the queues execute -/

/-- A tile's operation with what it meets, out of reset, where its meaning is known. -/
theorem exec_softRun_eq {c : Instr} {t : Nat} {g : Fin 80} {x : Soft} {f : State → State} {z : State} (hr : s.released = true)
    (he : exec c s = softRun t g x f s) (hz : f ((s.at_ t).softOn g x) = z) : exec c s = .next ((s.at_ t).finish (z.softOff g)) :=
  exec_run_eq hr he (congrArg (fun u => State.softOff u g) hz)

/-- The command `c` is a step of the rows `mine` of tile `g`'s queues, with what it meets, from the state that `pre` prepares. -/
def QueueRow (c : Instr) (t : Nat) (g : Fin 80) (x : Soft) (pre : State → State) (mine : Bytes → Bool) (body : State → QEnt → DRes) : Prop :=
  ∀ s, exec c s = softRun t g x (fun s => (pre s).descStep g mine body) s

theorem exec_queueRow {c : Instr} {t : Nat} {g : Fin 80} {x : Soft} {pre : State → State} {mine : Bytes → Bool} {body : State → QEnt → DRes}
    {y : State} (hc : QueueRow c t g x pre mine body) (hr : s.released = true)
    (hy : (pre ((s.at_ t).softOn g x)).descStep g mine body = y) : exec c s = .next ((s.at_ t).finish (y.softOff g)) :=
  exec_softRun_eq hr (hc s) hy

/-- With nothing queued the next descriptor of the program is issued. -/
theorem descStep_issueNext {g : Nat} {mine : Bytes → Bool} {body : State → QEnt → DRes} (hruns : s.tileRuns g = true)
    (hqueue : (s.tile g).queue = []) : s.descStep g mine body = s.issueNext g mine body := by
  simp [State.descStep, hruns, hqueue]

/-- A fetch that gives no descriptor leaves what it has made of the state. -/
theorem stops_of_fetch {g : Nat} {y : State} {mine : Bytes → Bool} {body : State → QEnt → DRes} {seq : State → QEnt → State}
    (hruns : s.tileRuns g = true) (hqueue : (s.tile g).queue = []) (hwait : (s.tile g).wait = none) (hfetch : s.fetch g = (y, none)) :
    s.descStep g mine body = y ∧ s.seqStep g mine seq = y := by
  refine ⟨?_, ?_⟩
  · rw [descStep_issueNext hruns hqueue]
    simp [State.issueNext, hwait, hfetch]
  · simp [State.seqStep, hruns, hwait, hfetch]

/-- What issuing a descriptor at once comes to, by the outcome of its execution. -/
def issuedRes (g : Nat) (e : QEnt) : DRes → State
  | .stop s err => s.tileStop g e (err.event g)
  | .halt s => s
  | r => ((applyRes g e r).issued g).tileShow g

theorem descStep_of_fetch {g : Nat} {y : State} {e : QEnt} {mine : Bytes → Bool} {body : State → QEnt → DRes} (hruns : s.tileRuns g = true)
    (hqueue : (s.tile g).queue = []) (hwait : (s.tile g).wait = none) (hfetch : s.fetch g = (y, some e)) (hempty : (y.tile g).queue = [])
    (hmine : mine e.desc = true) : s.descStep g mine body = issuedRes g e (y.execOr g e body) := by
  have hfence : y.fenceOk g e = true := by simp [State.fenceOk, hempty]
  rw [descStep_issueNext hruns hqueue, State.issueNext, hwait, hfetch]
  simp only [Option.isSome_none, Bool.false_eq_true, if_false, hmine, hfence, hempty, List.filter_nil, List.length_nil, Bool.not_true,
    Bool.or_self, if_true]
  cases y.execOr g e body <;> rfl

/-- The clause of one row: what its command does with the descriptor fetched. -/
theorem queueRow_runs {c : Instr} {t : Nat} {g : Fin 80} {x : Soft} {pre : State → State} {mine : Bytes → Bool} {body : State → QEnt → DRes}
    (hc : QueueRow c t g x pre mine body) (hr : s.released = true) {y : State} {e : QEnt}
    (hruns : (pre ((s.at_ t).softOn g x)).tileRuns g = true) (hqueue : ((pre ((s.at_ t).softOn g x)).tile g).queue = [])
    (hwait : ((pre ((s.at_ t).softOn g x)).tile g).wait = none) (hfetch : (pre ((s.at_ t).softOn g x)).fetch g = (y, some e))
    (hempty : (y.tile g).queue = []) (hmine : mine e.desc = true) :
    exec c s = .next ((s.at_ t).finish ((issuedRes g e (y.execOr g e body)).softOff g)) :=
  exec_queueRow hc hr (descStep_of_fetch hruns hqueue hwait hfetch hempty hmine)

theorem execOr_parity {g : Nat} {e : QEnt} {body : State → QEnt → DRes} {s1 : State} (h : (if s.tagged g e then s.parity g else none) = some s1) :
    s.execOr g e body = .halt s1 := by rw [State.execOr, h]

theorem execOr_body {g : Nat} {e : QEnt} {body : State → QEnt → DRes} (h : (if s.tagged g e then s.parity g else none) = none) :
    s.execOr g e body = body s e := by rw [State.execOr, h]

/-! ### A fetch that stops the program -/

/-- What a fetch comes to where its read fails. -/
theorem fetch_of_ue {g : Nat} {y : State} (hmeet : s.meet g ((s.get (TILE.PROG_START g) + (s.tile g).next) * 64) 64 false = (y, true)) :
    s.fetch g = (y, none) := by simp [State.fetch, hmeet]

/-- The descriptor that is next, as a queue entry. -/
def nextEnt (s : State) (g : Nat) : QEnt :=
  { n := (s.tile g).issues, idx := (s.tile g).next, desc := s.descAt g (s.tile g).next, loops := (s.tile g).loops,
    q := queueOf (s.descAt g (s.tile g).next) }

section
variable {g : Nat} {y : State} (hmeet : s.meet g ((s.get (TILE.PROG_START g) + (s.tile g).next) * 64) 64 false = (y, false))
include hmeet

theorem fetch_of_injSeq (hinj : (s.tile g).injSeq = true) :
    s.fetch g = ((y.setTile g (fun x => { x with injSeq := false })).tileStop g (nextEnt s g) (TILE.EVT_SEQ_ERR g) true, none) := by
  simp [State.fetch, hmeet, hinj, nextEnt]

theorem fetch_of_badSeq (hinj : (s.tile g).injSeq = false) (hseq : dSeq (s.descAt g (s.tile g).next) ≠ (s.tile g).next) :
    s.fetch g = (y.tileStop g (nextEnt s g) (TILE.EVT_SEQ_ERR g), none) := by
  simp [State.fetch, hmeet, hinj, hseq, nextEnt]

theorem fetch_of_badKind (hinj : (s.tile g).injSeq = false) (hseq : dSeq (s.descAt g (s.tile g).next) = (s.tile g).next)
    (hkind : dKind (s.descAt g (s.tile g).next) = 0 ∨ 8 < dKind (s.descAt g (s.tile g).next)) :
    s.fetch g = (y.tileStop g (nextEnt s g) (TILE.EVT_BAD_DESC g), none) := by
  simp [State.fetch, hmeet, hinj, hseq, hkind, nextEnt]

end

/-- Settles O28: a row is `QueueRow`, and its clause `queueRow_runs`; a fetch that gives no descriptor stops in `stops_of_fetch`. That a
descriptor executes within one command is assumption 10, and what a descriptor that waits holds back assumption 72: the model's choices. -/
theorem descriptorsRun : Obligations.DescriptorsRun := by
  refine ⟨?_, ?_⟩
  · intro s t g x c start mine body hrun z so hrow y e hruns hqueue hwait hfetch hempty hmine par
    have hmain : exec c s = .next (z.finish ((issuedRes g e (y.execOr g e body)).softOff g)) := by
      simp only [List.mem_cons, List.not_mem_nil, or_false, Prod.mk.injEq] at hrow
      rcases hrow with ⟨rfl, rfl, rfl, rfl⟩ | ⟨rfl, rfl, rfl, rfl⟩ | ⟨rfl, rfl, rfl, rfl⟩ | ⟨rfl, rfl, rfl, rfl⟩ | ⟨rfl, rfl, rfl, rfl⟩ |
        ⟨rfl, rfl, rfl, rfl⟩ | ⟨rfl, rfl, rfl, rfl⟩ | ⟨rfl, rfl, rfl, rfl⟩ | ⟨rfl, rfl, rfl, rfl⟩ | ⟨rfl, rfl, rfl, rfl⟩ |
        ⟨rfl, rfl, rfl, rfl⟩ | ⟨rfl, rfl, rfl, rfl⟩ | ⟨rfl, rfl, rfl, rfl⟩ | ⟨rfl, rfl, rfl, rfl⟩ | ⟨rfl, rfl, rfl, rfl⟩ |
        ⟨rfl, rfl, rfl, rfl⟩
      case inr.inr.inr.inr.inr.inr.inr.inr.inr.inr.inr.inr.inr.inl | inr.inr.inr.inr.inr.inr.inr.inr.inr.inr.inr.inr.inr.inr.inl =>
        exact queueRow_runs (pre := fun s => s.tgeErr (g / 40) x.tge) (fun _ => rfl) hrun.1 hruns hqueue hwait hfetch hempty hmine
      all_goals exact queueRow_runs (pre := id) (fun _ => rfl) hrun.1 hruns hqueue hwait hfetch hempty hmine
    refine ⟨fun s1 hpar => ?_, fun hpar => ⟨fun s1 hres => ?_, fun s1 w ph ops acc hres => ?_, fun s1 err hres => ?_, fun s1 hres => ?_⟩⟩
    · rw [hmain, execOr_parity hpar]
      rfl
    all_goals
      rw [hmain, execOr_body hpar, hres]
      rfl
  · intro s y ue g mine body seq hruns k b e stops hqueue hwait hmeet
    refine ⟨fun hue => ?_, fun hue hinj => ?_, fun hue hinj hseq => ?_, fun hue hinj hseq hkind => ?_⟩
    all_goals subst hue
    · exact stops_of_fetch hruns hqueue hwait (fetch_of_ue hmeet)
    · exact stops_of_fetch hruns hqueue hwait (fetch_of_injSeq hmeet hinj)
    · exact stops_of_fetch hruns hqueue hwait (fetch_of_badSeq hmeet hinj hseq)
    · exact stops_of_fetch hruns hqueue hwait (fetch_of_badKind hmeet hinj hseq hkind)

/-! ### The descriptors that the sequencer executes -/

theorem seqRow_runs {c : Instr} {t : Nat} {g : Fin 80} {x : Soft} {mine : Bytes → Bool} {body : State → QEnt → State}
    (hc : ∀ s, exec c s = softRun t g x (fun s => s.seqStep g mine body) s) (hr : s.released = true) {y : State} {e : QEnt}
    (hruns : ((s.at_ t).softOn g x).tileRuns g = true) (hwait : (((s.at_ t).softOn g x).tile g).wait = none)
    (hfetch : ((s.at_ t).softOn g x).fetch g = (y, some e)) (hmine : mine e.desc = true) (hfence : y.fenceOk g e = true) :
    exec c s = .next ((s.at_ t).finish (((body y e).tileShow g).softOff g)) :=
  exec_softRun_eq hr (hc s) ((seqStep_of_fetch _ _ _ _ _ _ hruns hwait hfetch hmine hfence))

section
variable {g : Nat} {e : QEnt}

theorem sync_of_error {er : AccErr} {full : Bool} (h : s.syncLines g e = .error er) :
    s.syncWait g e full = s.tileStop g e (er.event g) ∧ s.syncSet g e full = s.tileStop g e (er.event g) := by
  simp [State.syncWait, State.syncSet, h]

variable {ls : List Nat} (h : s.syncLines g e = .ok ls)
include h

theorem sync_of_parity {y : State} {full : Bool} (hpar : s.parity g = some y) : s.syncWait g e full = y ∧ s.syncSet g e full = y := by
  simp [State.syncWait, State.syncSet, h, hpar]

theorem syncWait_goesOn {full : Bool} (hpar : s.parity g = none) (hall : ∀ l ∈ ls, s.full g l = full) : s.syncWait g e full = s.issued g := by
  have hnone : ls.find? (fun l => s.full g l ≠ full) = none := List.find?_eq_none.mpr fun l hl => by simp [hall l hl]
  unfold State.syncWait
  rw [h]
  dsimp only
  rw [hpar, hnone]

theorem syncWait_waits {full : Bool} {l : Nat} (hpar : s.parity g = none) (hfind : ls.find? (fun l => s.full g l ≠ full) = some l) :
    s.syncWait g e full = s.setTile g (fun x => { x with wait := some { tagWait s l 4 full with sync := true, lines := ls } }) := by
  unfold State.syncWait
  rw [h]
  dsimp only
  rw [hpar, hfind]

theorem syncSet_turns (hpar : s.parity g = none) :
    s.syncSet g e true = (s.fillLines g ls false).issued g ∧ s.syncSet g e false = (s.emptyLines g ls).issued g := by
  simp [State.syncSet, h, hpar]

end

/-- The loop of a LOOP descriptor entered. -/
def loopEntered (s : State) (g : Nat) (e : QEnt) : State :=
  (s.setTile g (fun x => { x with loops :=
    { start := x.next, body := dU8 e.desc 6, count := dU16 e.desc 4, j := 0, adv := loopAdv e.desc } :: x.loops })).issued g

theorem loopEnter_plain {g : Nat} {e : QEnt} (h : bitOf (dU8 e.desc 7) 0 = false) : s.loopEnter g e = loopEntered s g e := by
  simp [State.loopEnter, loopEntered, h]

section
variable {g : Nat} {e : QEnt} {o : Opnd} {y : State} (htest : bitOf (dU8 e.desc 7) 0 = true)
  (hopnd : (s.refs g e [(8, false)]).bind (fun l => needAt l 0) = .ok o) (hfits : o.fits (if bitOf (dU8 e.desc 7) 1 then 4 else 2) = true)
  (hmeet : s.opMeet g o 0 (if bitOf (dU8 e.desc 7) 1 then 4 else 2) = (y, false))
include htest hopnd hfits hmeet

theorem loopEnter_tested (h : leNat (y.opRead g o 0 (if bitOf (dU8 e.desc 7) 1 then 4 else 2)) ≠ 0) :
    s.loopEnter g e = loopEntered y g e := by
  simp only [State.loopEnter, htest, hopnd, hfits, hmeet, h, loopEntered, Bool.not_true, Bool.false_eq_true, if_false, ne_eq,
    not_false_eq_true, if_true]

theorem loopEnter_skips (h : leNat (y.opRead g o 0 (if bitOf (dU8 e.desc 7) 1 then 4 else 2)) = 0) :
    s.loopEnter g e = y.setTile g (fun x => let (l, p) := loopNext x.loops (x.next + 1 + dU8 e.desc 6)
      { x with loops := l, next := p, issues := x.issues + 1 }) := by
  simp only [State.loopEnter, htest, hopnd, hfits, hmeet, h, Bool.not_true, Bool.false_eq_true, if_false, ne_eq, not_true_eq_false]

end

theorem tile_setTile_self {g : Nat} (f : TileSt → TileSt) (h : g < s.tiles.length) : (s.setTile g f).tile g = f (s.tile g) := by
  rw [State.tile, setTile_tiles, State.tile, List.getD_eq_getElem?_getD, List.getD_eq_getElem?_getD, List.getElem?_modify_eq,
    List.getElem?_eq_getElem h]
  rfl

/-- Settles O29: a row is a step of `seqStep`; what its operation does is said operation by operation. -/
theorem sequencerRuns : Obligations.SequencerRuns := by
  refine ⟨?_, fun s g e full => ⟨fun ls hls => ⟨fun y hpar => sync_of_parity hls hpar, fun hpar => ⟨syncWait_goesOn hls hpar,
    fun l hl => syncWait_waits hls hpar hl, syncSet_turns hls hpar⟩⟩, fun er her => sync_of_error her, ?_⟩⟩
  · intro s t g x c mine body hrun z so hrow y e hruns hwait hfetch hmine hfence
    have hc : ∀ s, exec c s = softRun t g x (fun s => s.seqStep g mine body) s := by
      simp only [List.mem_cons, List.not_mem_nil, or_false, Prod.mk.injEq] at hrow
      rcases hrow with ⟨rfl, rfl, rfl⟩ | ⟨rfl, rfl, rfl⟩ | ⟨rfl, rfl, rfl⟩ | ⟨rfl, rfl, rfl⟩ | ⟨rfl, rfl, rfl⟩ | ⟨rfl, rfl, rfl⟩
      all_goals exact fun _ => rfl
    exact seqRow_runs hc hrun.1 hruns hwait hfetch hmine hfence
  · intro enter n
    refine ⟨loopEnter_plain, fun htest o y hopnd hfits hmeet => ⟨fun h => loopEnter_tested htest hopnd hfits hmeet h, fun h hg => ?_⟩⟩
    rw [loopEnter_skips htest hopnd hfits hmeet h, tile_setTile_self _ hg]

/-! ### Waits and budgets that end -/

/-- The work in progress on a tile is past its budget and slack and not marked yet. -/
def lateGuard (s : State) (g : Nat) : Bool :=
  s.tileRuns g && (s.tile g).busy && !(s.tile g).lateM && decide ((s.budget g).1 + (s.budget g).2 < s.tileCount g)

theorem markLate_due {t : Nat} {g : Fin 80} (hr : s.released = true) (hruns : (s.at_ t).tileRuns g = true) (hbusy : ((s.at_ t).tile g).busy = true)
    (hmark : ((s.at_ t).tile g).lateM = false) (hpast : ((s.at_ t).budget g).1 + ((s.at_ t).budget g).2 < (s.at_ t).tileCount g) :
    exec (.late t g) s = .next ((s.at_ t).finish ((s.at_ t).markLate g)) := by
  refine exec_run_eq hr (rfl : _ = execLate t g s) (when_true (?_ : lateGuard (s.at_ t) g = true))
  rw [lateGuard, hruns, hbusy, hmark, decide_eq_true hpast]
  rfl

theorem markLate_notDue {t : Nat} {g : Fin 80} (hr : s.released = true)
    (h : ((s.at_ t).tile g).lateM = true ∨ (s.at_ t).tileCount g ≤ ((s.at_ t).budget g).1 + ((s.at_ t).budget g).2) :
    exec (.late t g) s = .next ((s.at_ t).finish (s.at_ t)) := by
  refine exec_run_eq hr (rfl : _ = execLate t g s) (when_false (?_ : lateGuard (s.at_ t) g = false))
  rcases h with h | h
  · rw [lateGuard, h, Bool.not_true, Bool.and_false, Bool.false_and]
  · rw [lateGuard, decide_eq_false (Nat.not_lt.mpr h), Bool.and_false]

theorem dev_of_tileRuns {g : Nat} (h : s.tileRuns g = true) : (s.dev = dsNoon || s.dev = dsDusk) = true := (Bool.and_eq_true_iff.mp h).1

theorem tagTo_due {t : Nat} {g : Fin 80} {w : TWait} (hr : s.released = true) (hruns : (s.at_ t).tileRuns g = true)
    (hqueue : ((s.at_ t).tile g).queue = []) (hlong : (s.at_ t).waitLong g w = true)
    (hw : (((s.at_ t).tile g).wait = some w ∧ w.kind ≠ 2) ∨ (((s.at_ t).tile g).wait = none ∧ ((s.at_ t).tile g).xwaits.head? = some w)) :
    exec (.tagTo t g) s = .next ((s.at_ t).finish (((s.at_ t).tagInfo g w).raise (TILE.SPD_EVT_TAG_TO g) 2 (2 ^ (s.at_ t).tilePart g))) := by
  refine exec_run_eq hr (rfl : _ = execTagTo t g s) ?_
  have hdev := dev_of_tileRuns hruns
  rcases hw with ⟨hw, hkind⟩ | ⟨hw, hhead⟩
  · simp only [hruns, hqueue, hw, if_true, Option.filter_some, decide_eq_true hkind, Option.toList_some, List.filterMap_nil, List.filter_nil,
      List.append_nil, List.singleton_append, List.find?_cons, hlong]
    exact when_true hdev
  · obtain ⟨l, hl⟩ := List.head?_eq_some_iff.mp hhead
    simp only [hruns, hqueue, hw, if_true, Option.filter_none, Option.toList_none, List.filterMap_nil, List.filter_nil,
      List.nil_append, hl, List.find?_cons, hlong]
    exact when_true hdev

theorem barTo_due {t : Nat} {g : Fin 80} {w : TWait} (hr : s.released = true) (hruns : (s.at_ t).tileRuns g = true)
    (hlong : (s.at_ t).waitLong g w = true) (hw : ((s.at_ t).tile g).wait = some w) (hkind : w.kind = 2) :
    exec (.barTo t g) s = .next ((s.at_ t).finish (((s.at_ t).tagInfo g w).raise (TILE.SPD_EVT_BAR_TO g) 2 (2 ^ (s.at_ t).tilePart g))) := by
  refine exec_run_eq hr (rfl : _ = execBarTo t g s) ?_
  simp only [hw]
  refine when_true ?_
  rw [hruns, hlong, decide_eq_true hkind]
  rfl

/-- Settles O32: each clause is a guard of the model with its parts known. -/
theorem budgetsAndTimeouts : Obligations.BudgetsAndTimeouts := fun _ _ _ hrun hruns =>
  ⟨markLate_due hrun.1 hruns, markLate_notDue hrun.1, exec_hang_of_reached hrun.1 hruns, fun _ hqueue hlong =>
    ⟨tagTo_due hrun.1 hruns hqueue hlong, barTo_due hrun.1 hruns hlong⟩⟩

theorem waits_of_line {w : TWait} (hk : w.kind ≤ 1) (q : Bool) : ((some w).any (fun w => decide (w.kind ≤ 1)) || q) = true := by
  rw [Option.any_some, decide_eq_true hk, Bool.true_or]

section
variable {t : Nat} {g : Fin 80} {x : Soft} {w : TWait} (hr : s.released = true) (hruns : ((s.at_ t).softOn g x).tileRuns g = true)
  (hwait : (((s.at_ t).softOn g x).tile g).wait = some w) (hkind : w.kind ≤ 1)
include hr hruns hwait hkind

theorem tagWait_parity {y : State} (hpar : ((s.at_ t).softOn g x).parity g = some y) :
    exec (.tagWaitSatisfied t g x) s = .next ((s.at_ t).finish (y.softOff g)) := by
  refine exec_softRun_eq hr (rfl : _ = execTagWaitSatisfied t g s x) ((when_true hruns).trans ?_)
  simp only [hwait, waits_of_line hkind, if_true, hpar]

theorem tagWait_goesOn (hqueue : (((s.at_ t).softOn g x).tile g).queue = []) (hpar : ((s.at_ t).softOn g x).parity g = none)
    (hlines : ∀ l ∈ w.lines, ((s.at_ t).softOn g x).full g l = decide (w.kind = 0)) :
    exec (.tagWaitSatisfied t g x) s = .next ((s.at_ t).finish
      ((((((s.at_ t).softOn g x).setTile g (fun x => { x with wait := none })).issued g).tileShow g).softOff g)) := by
  refine exec_softRun_eq hr (rfl : _ = execTagWaitSatisfied t g s x) ((when_true hruns).trans ?_)
  have hsame : ((s.at_ t).softOn g x).setTile g (fun k => { k with queue := k.queue.map (fun e => e.rewait (((s.at_ t).softOn g x).waitOver g)) }) =
      (s.at_ t).softOn g x := setTile_same _ _ _ (by rw [hqueue, List.map_nil, ← hqueue])
  have hnone : w.lines.find? (fun l => ((s.at_ t).softOn g x).full g l ≠ decide (w.kind = 0)) = none :=
    List.find?_eq_none.mpr fun l hl => by simp [hlines l hl]
  simp only [hwait, waits_of_line hkind, if_true, hpar, hsame, hkind, hnone]

end

/-- A stage all of whose tiles have reached one barrier for one wedge goes on. -/
theorem barrier_goesOn {t : Nat} {st : Fin 19} (hr : s.released = true) (hsome : (s.at_ t).stageTiles st ≠ [])
    (hall : ∀ a ∈ (s.at_ t).stageTiles st, (s.at_ t).tileRuns a = true ∧ ((s.at_ t).tile a).bar.isSome = true ∧
      (∀ b ∈ (s.at_ t).stageTiles st, ((s.at_ t).tile a).bar = ((s.at_ t).tile b).bar ∧ ((s.at_ t).tile a).doneN = ((s.at_ t).tile b).doneN)) :
    exec (.barrierComplete t st) s = .next ((s.at_ t).finish (((s.at_ t).stageTiles st).foldl (fun u a =>
        ((u.setTile a (fun x => { x with bar := none, wait := none })).issued a).tileShow a) (s.at_ t))) := by
  refine exec_run_eq hr (rfl : _ = execBarrierComplete t st s) ?_
  cases hts : (s.at_ t).stageTiles st with
  | nil => exact absurd hts hsome
  | cons g0 gs =>
    refine when_true (List.all_eq_true.mpr fun a ha => ?_)
    obtain ⟨hruns, hbar, hsame⟩ := hall a (hts ▸ ha)
    obtain ⟨hb, hd⟩ := hsame g0 (hts ▸ List.mem_cons_self)
    rw [hbar, decide_eq_true hb, decide_eq_true hd, hruns]
    rfl

/-- Settles O30: the wait of a tile and the barrier of a stage, each with its guard met. -/
theorem waitsEnd : Obligations.WaitsEnd := fun _ _ _ _ hrun =>
  ⟨fun _ hruns hqueue hwait hkind => ⟨fun _ hpar => tagWait_parity hrun.1 hruns hwait hkind hpar,
    fun hpar hlines => tagWait_goesOn hrun.1 hruns hwait hkind hqueue hpar hlines⟩, fun _ hsome hall => barrier_goesOn hrun.1 hsome hall⟩

end Sys2Proof.Proofs
end

section
/-! PROOFS. ACCEPT and DONE of a tile (R143, R154 to R160, R167). -/

namespace Sys2Proof.Proofs

open Sys2Proof.Machine Sys2Proof.Laws

variable {s u v : State}

/-! ### ACCEPT -/

section
variable {t : Nat} {g : Fin 80} {x : Soft} {y : State} {e : QEnt} (hr : s.released = true)
  (hdev : ((s.at_ t).softOn g x).dev = dsNoon ∨ ((s.at_ t).softOn g x).dev = dsDusk)
  (hlow : 1 ≤ ((s.at_ t).softOn g x).get (TILE.STAT_STATE g)) (hhigh : ((s.at_ t).softOn g x).get (TILE.STAT_STATE g) ≤ 3)
  (hfree : (((s.at_ t).softOn g x).tile g).busy = false) (hwait : (((s.at_ t).softOn g x).tile g).wait = none)
  (hfetch : ((s.at_ t).softOn g x).fetch g = (y, some e)) (hkind : isAccept e.desc = true) (hfence : y.fenceOk g e = true)

/-- What the ACCEPT fetched comes to. -/
def acceptStep (y : State) (g : Nat) : State :=
  if y.get (TILE.ROLE_ROLE g) = 2 then
    match (y.tile g).cols with
    | [] => y
    | c :: cs => y.accepted g 0 0 0 (y.get (TILE.ADMIT_NUM g)) (fun x => { x with cols := cs, cur := some c })
  else if y.get (TILE.ROLE_ROLE g) = 1 then
    match y.acceptReady g with
    | none => y
    | some j => y.accepted g (if j.golden then 3 else 1) (b2n j.golden) j.w j.admNo id
  else y

include hr hdev hlow hhigh hfree hwait hfetch hkind hfence

theorem exec_wedgeAccept : exec (.wedgeAccept t g x) s = .next ((s.at_ t).finish ((acceptStep y g).softOff g)) := by
  refine exec_softRun_eq hr (rfl : _ = execWedgeAccept t g s x) ((when_true ?_).trans ?_)
  · rw [hfree, hwait, decide_eq_true hlow, decide_eq_true hhigh]
    rcases hdev with h | h <;> rw [h] <;> rfl
  · simp only [hfetch, hkind, hfence, Bool.not_true, Bool.or_self, Bool.false_eq_true, if_false]
    unfold acceptStep
    cases (y.tile g).cols <;> cases y.acceptReady g <;> rfl

end

theorem acceptStep_stage {g : Nat} (hrole : s.get (TILE.ROLE_ROLE g) = 1) : acceptStep s g = match s.acceptReady g with
    | none => s
    | some j => s.accepted g (if j.golden then 3 else 1) (b2n j.golden) j.w j.admNo id := by
  rw [acceptStep, if_neg (by omega), if_pos hrole]

theorem acceptStep_column {g : Nat} (hrole : s.get (TILE.ROLE_ROLE g) = 2) : acceptStep s g = match (s.tile g).cols with
    | [] => s
    | c :: cs => s.accepted g 0 0 0 (s.get (TILE.ADMIT_NUM g)) (fun x => { x with cols := cs, cur := some c }) := by
  rw [acceptStep, if_pos hrole]

/-! ### DONE within the budget -/

/-- The counts that a DONE shows. -/
def wedgeCounted (y : State) (g : Nat) : State :=
  (((((y.put (TILE.LAST_CYC_CYC g) (satU 24 (y.tileCount g))).putMax (TILE.MAX_CYC_CYC g) (y.tileCount g)).bump (TILE.WEDGE_CNT g)).put
    (TILE.MXE_ISSUED g) (satU 32 (y.tile g).issued)).put (TILE.MXE_USEFUL g) (satU 32 (y.tile g).useful)).put (TILE.STAT_GOLD g) 0

/-- The program after a DONE: with END at its first descriptor, else past it. -/
def wedgeMoved (y : State) (g : Nat) (e : QEnt) : State :=
  if dEnd e.desc then (wedgeCounted y g).setTile g (fun x => { x with loops := [], next := 0 }) else (wedgeCounted y g).issued g

/-- The stage tile shown at its ACCEPT or running on. -/
def wedgeShown (y : State) (g : Nat) (e : QEnt) : State :=
  (wedgeMoved y g e).put (TILE.STAT_STATE g)
    (if dEnd e.desc || isAccept ((wedgeMoved y g e).descAt g ((wedgeMoved y g e).tile g).next) then 1 else 2)

/-- The stage tile free for its next ACCEPT. -/
def wedgeFreed (y : State) (g : Nat) (e : QEnt) : State :=
  (wedgeShown y g e).setTile g (fun x =>
    { x with blocks := if (wedgeShown y g e).get (TILE.ROLE_STAGE g) = (wedgeShown y g e).lastStage then x.blocks ++ [x.doneN] else x.blocks,
             doneN := x.doneN + 1, busy := false, bar := none, wait := none })

theorem wedgeCounted_onlyRegs (y : State) (g : Nat) : OnlyRegs y (wedgeCounted y g) :=
  .put (.put (.put (.bump (.putMax (.put (.refl y) _ _) _ _) _) _ _) _ _) _ _

theorem leaves_done : ∀ g : Fin 80, ∀ f ∈ [TILE.LAST_CYC_CYC g, TILE.WEDGE_CNT g, TILE.STAT_GOLD g, TILE.MXE_ISSUED g, TILE.ROLE_ROLE g,
    TILE.PROG_START g], Leaves (TILE.PC_IDX g) f ∧ Leaves (TILE.STAT_STATE g) f := by decide

theorem leaves_counts : ∀ g : Fin 80,
    (∀ f ∈ [TILE.LAST_CYC_CYC g, TILE.WEDGE_CNT g, TILE.MXE_ISSUED g, TILE.ROLE_ROLE g, TILE.PROG_START g], Leaves (TILE.STAT_GOLD g) f) ∧
    (∀ f ∈ [TILE.LAST_CYC_CYC g, TILE.WEDGE_CNT g, TILE.MXE_ISSUED g, TILE.ROLE_ROLE g, TILE.PROG_START g], Leaves (TILE.MXE_USEFUL g) f) ∧
    (∀ f ∈ [TILE.LAST_CYC_CYC g, TILE.WEDGE_CNT g, TILE.ROLE_ROLE g, TILE.PROG_START g], Leaves (TILE.MXE_ISSUED g) f) ∧
    (∀ f ∈ [TILE.LAST_CYC_CYC g, TILE.ROLE_ROLE g, TILE.PROG_START g], Leaves (TILE.WEDGE_CNT g) f) ∧
    (∀ f ∈ [TILE.LAST_CYC_CYC g, TILE.WEDGE_CNT g, TILE.ROLE_ROLE g, TILE.PROG_START g], Leaves (TILE.MAX_CYC_CYC g) f) ∧
    (∀ f ∈ [TILE.WEDGE_CNT g, TILE.ROLE_ROLE g, TILE.PROG_START g], Leaves (TILE.LAST_CYC_CYC g) f) := by decide

section
variable (y : State) (g : Fin 80)

theorem wedgeCounted_counts :
    (wedgeCounted y g).get (TILE.LAST_CYC_CYC g) = satU 24 (y.tileCount g) ∧
    (wedgeCounted y g).get (TILE.WEDGE_CNT g) = satU 32 (y.get (TILE.WEDGE_CNT g) + 1) ∧
    (wedgeCounted y g).get (TILE.STAT_GOLD g) = 0 ∧ (wedgeCounted y g).get (TILE.MXE_ISSUED g) = satU 32 (y.tile g).issued := by
  obtain ⟨hgold, huseful, hissued, hwedge, hmax, hlast⟩ := leaves_counts g
  refine ⟨?_, ?_, ?_, ?_⟩ <;> unfold wedgeCounted
  · rw [get_put_other _ (hgold _ (by simp)), get_put_other _ (huseful _ (by simp)), get_put_other _ (hissued _ (by simp)),
      get_bump_other _ (hwedge _ (by simp)), get_putMax_other _ (hmax _ (by simp))]
    exact get_put_of_lt (show 0 + 24 ≤ 32 by decide) (satU_lt 24 _)
  · rw [get_put_other _ (hgold _ (by simp)), get_put_other _ (huseful _ (by simp)), get_put_other _ (hissued _ (by simp)),
      get_bump_self _ _ (show 0 + 32 ≤ 32 by decide), get_putMax_other _ (hmax _ (by simp)), get_put_other _ (hlast _ (by simp))]
    rfl
  · exact get_put_of_lt (show 8 + 1 ≤ 32 by decide) (show 0 < 2 ^ 1 by decide)
  · rw [get_put_other _ (hgold _ (by simp)), get_put_other _ (huseful _ (by simp))]
    exact get_put_of_lt (show 0 + 32 ≤ 32 by decide) (satU_lt 32 _)

theorem wedgeCounted_other {f : Fld} (hf : f ∈ [TILE.ROLE_ROLE g, TILE.PROG_START g]) : (wedgeCounted y g).get f = y.get f := by
  obtain ⟨hgold, huseful, hissued, hwedge, hmax, hlast⟩ := leaves_counts g
  unfold wedgeCounted
  rw [get_put_other _ (hgold _ (by simp at hf; simp [hf])), get_put_other _ (huseful _ (by simp at hf; simp [hf])),
    get_put_other _ (hissued _ (by simp at hf; simp [hf])), get_bump_other _ (hwedge _ (by simp at hf; simp [hf])),
    get_putMax_other _ (hmax _ (by simp at hf; simp [hf])), get_put_other _ (hlast _ (by simp at hf; simp [hf]))]

end

theorem tileShow_onlyRegs (s : State) (g : Nat) : OnlyRegs s (s.tileShow g) := by
  unfold State.tileShow
  dsimp only
  split
  · exact .put (.put (.refl s) _ _) _ _
  · exact .put (.refl s) _ _

theorem tileShow_get_other {g : Nat} {f : Fld} (hpc : Leaves (TILE.PC_IDX g) f) (hst : Leaves (TILE.STAT_STATE g) f) :
    (s.tileShow g).get f = s.get f := by
  unfold State.tileShow
  dsimp only
  split
  · rw [get_put_other _ hst, get_put_other _ hpc]
  · rw [get_put_other _ hpc]

/-- A tile that waits for nothing shows itself running, or where it is not running as it stands. -/
theorem tileShow_state_free (g : Fin 80) (hwait : (s.tile g).wait = none) (hqueue : (s.tile g).queue = []) {n : Nat}
    (hn : s.get (TILE.STAT_STATE g) = n) (h12 : n = 1 ∨ n = 2) : (s.tileShow g).get (TILE.STAT_STATE g) = n := by
  have hpc : Leaves (TILE.PC_IDX g) (TILE.STAT_STATE g) := (by decide : ∀ g : Fin 80, Leaves (TILE.PC_IDX g) (TILE.STAT_STATE g)) g
  unfold State.tileShow
  simp only [hwait, hqueue, Option.isSome_none, List.any_nil, Bool.or_self, Bool.false_eq_true, if_false, get_put_other _ hpc, hn]
  rcases h12 with rfl | rfl
  · exact (get_put_other _ hpc _).trans hn
  · exact get_put_of_lt (show 0 + 3 ≤ 32 by decide) (show 2 < 2 ^ 3 by decide)

theorem softOff_get (s : State) (g : Nat) (f : Fld) : (s.softOff g).get f = s.get f := rfl

theorem softOff_tile {g : Nat} (h : g < s.tiles.length) : (s.softOff g).tile g = { s.tile g with soft := none, softTag := false } :=
  tile_setTile_self (s := s) _ h

theorem setTile_memKept (s : State) (g : Nat) (f : TileSt → TileSt) : MemKept s (s.setTile g f) := memKept_of rfl rfl rfl rfl rfl rfl rfl rfl

theorem softOff_memKept (s : State) (g : Nat) : MemKept s (s.softOff g) := memKept_of rfl rfl rfl rfl rfl rfl rfl rfl

section
variable {y : State} {g : Fin 80} {e : QEnt} (hg : g.val < y.tiles.length)

theorem wedgeCounted_tile (y : State) (g i : Nat) : (wedgeCounted y g).tile i = y.tile i := tile_congr (wedgeCounted_onlyRegs y g).tiles i

theorem wedgeMoved_get (f : Fld) : (wedgeMoved y g e).get f = (wedgeCounted y g).get f := by
  unfold wedgeMoved
  split
  · exact setTile_get _ _ _ _
  · exact setTile_get _ _ _ _

theorem wedgeMoved_spd : (wedgeMoved y g e).spd = y.spd := by
  have h : (wedgeCounted y g).spd = y.spd := by rw [wedgeCounted_onlyRegs y g]
  unfold wedgeMoved
  split
  · exact (setTile_spd _ _ _).trans h
  · exact (setTile_spd _ _ _).trans h

theorem wedgeMoved_descAt (i : Nat) : (wedgeMoved y g e).descAt g i = y.descAt g i := by
  rw [State.descAt, State.spdBytes, wedgeMoved_spd, wedgeMoved_get, wedgeCounted_other y g (by simp), ← State.spdBytes, ← State.descAt]

include hg

theorem wedgeMoved_tile : (wedgeMoved y g e).tile g =
    if dEnd e.desc then { y.tile g with loops := [], next := 0 }
    else { y.tile g with loops := (loopNext (y.tile g).loops ((y.tile g).next + 1)).1, next := (loopNext (y.tile g).loops ((y.tile g).next + 1)).2,
                         issues := (y.tile g).issues + 1 } := by
  have hlen : g.val < (wedgeCounted y g).tiles.length := by rwa [(wedgeCounted_onlyRegs y g).tiles]
  unfold wedgeMoved
  split
  · rw [tile_setTile_self _ hlen, wedgeCounted_tile]
  · rw [State.issued, tile_setTile_self _ hlen, wedgeCounted_tile]

theorem wedgeMoved_length : g.val < (wedgeMoved y g e).tiles.length := by
  have hlen : g.val < (wedgeCounted y g).tiles.length := by rwa [(wedgeCounted_onlyRegs y g).tiles]
  unfold wedgeMoved
  split
  · rwa [setTile_tiles, List.length_modify]
  · rwa [State.issued, setTile_tiles, List.length_modify]

end

/-- The body of DONE, the DONE of `execWedgeDone`. -/
def doneBody (g : Nat) (s : State) (e : QEnt) : State :=
  if !(s.tile g).queue.isEmpty then s
  else
    let n := s.tileCount g
    let s := if (s.budget g).1 + (s.budget g).2 < n then (if (s.tile g).lateM then s else s.markLate g)
      else if (s.budget g).1 < n then (s.bump (TILE.OVERRUN_CNT g)).budgetEvt g (TILE.EVT_OVERRUN g) else s
    let x := s.tile g
    let s := ((s.put (TILE.LAST_CYC_CYC g) (satU 24 n)).putMax (TILE.MAX_CYC_CYC g) n).bump (TILE.WEDGE_CNT g)
    let s := ((s.put (TILE.MXE_ISSUED g) (satU 32 x.issued)).put (TILE.MXE_USEFUL g) (satU 32 x.useful)).put (TILE.STAT_GOLD g) 0
    let s := if dEnd e.desc then s.setTile g (fun x => { x with loops := [], next := 0 }) else s.issued g
    let s := s.put (TILE.STAT_STATE g) (if dEnd e.desc || isAccept (s.descAt g (s.tile g).next) then 1 else 2)
    if s.get (TILE.ROLE_ROLE g) = 2 then s.setTile g (fun x => { x with cur := none, busy := false, bar := none, wait := none })
    else s.setTile g (fun x => { x with
      blocks := if s.get (TILE.ROLE_STAGE g) = s.lastStage then x.blocks ++ [x.doneN] else x.blocks,
      doneN := x.doneN + 1, busy := false, bar := none, wait := none })

theorem exec_wedgeDone_row (t : Nat) (g : Fin 80) (x : Soft) (s : State) :
    exec (.wedgeDone t g x) s = softRun t g x (fun s => s.seqStep g (fun b => dKind b = 7 && dU8 b 4 = 1) (doneBody g)) s := rfl

theorem wedgeShown_role (y : State) (g : Fin 80) (e : QEnt) : (wedgeShown y g e).get (TILE.ROLE_ROLE g) = y.get (TILE.ROLE_ROLE g) := by
  rw [wedgeShown, get_put_other _ ((leaves_done g _ (by simp)).2), wedgeMoved_get, wedgeCounted_other y g (by simp)]

/-- A DONE within its budget on a stage tile. -/
theorem doneBody_within {y : State} {g : Fin 80} {e : QEnt} (hqueue : (y.tile g).queue = []) (hcount : y.tileCount g ≤ (y.budget g).1)
    (hrole : y.get (TILE.ROLE_ROLE g) = 1) : doneBody g y e = wedgeFreed y g e := by
  have hshown : (wedgeShown y g e).get (TILE.ROLE_ROLE g) ≠ 2 := by
    rw [wedgeShown_role, hrole]
    decide
  unfold doneBody
  rw [hqueue, List.isEmpty_nil, Bool.not_true, if_neg Bool.false_ne_true]
  dsimp only
  rw [if_neg (show ¬(y.budget g).1 + (y.budget g).2 < y.tileCount g by omega), if_neg (show ¬(y.budget g).1 < y.tileCount g by omega)]
  exact if_neg hshown

section
variable (y : State) (g : Fin 80) (e : QEnt)

theorem wedgeFreed_get (f : Fld) : (wedgeFreed y g e).get f = (wedgeShown y g e).get f := setTile_get _ _ _ _

/-- The state to whose reported faults the end of the command attends. -/
def wedgeDone : State := ((wedgeFreed y g e).tileShow g).softOff g

theorem wedgeDone_counts {f : Fld} (hst : Leaves (TILE.STAT_STATE g) f) (hpc : Leaves (TILE.PC_IDX g) f) :
    (wedgeDone y g e).get f = (wedgeCounted y g).get f := by
  rw [wedgeDone, softOff_get, tileShow_get_other hpc hst, wedgeFreed_get, wedgeShown, get_put_other _ hst, wedgeMoved_get]

/-- The tile after a DONE. -/
theorem wedgeFreed_tile (hg : g.val < y.tiles.length) : (wedgeFreed y g e).tile g = { (wedgeMoved y g e).tile g with
    blocks := if (wedgeShown y g e).get (TILE.ROLE_STAGE g) = (wedgeShown y g e).lastStage
      then ((wedgeMoved y g e).tile g).blocks ++ [((wedgeMoved y g e).tile g).doneN] else ((wedgeMoved y g e).tile g).blocks,
    doneN := ((wedgeMoved y g e).tile g).doneN + 1, busy := false, bar := none, wait := none } := by
  have htile : (wedgeShown y g e).tile g = (wedgeMoved y g e).tile g := tile_congr (put_tiles _ _ _) _
  rw [wedgeFreed, tile_setTile_self _ (by rw [wedgeShown, put_tiles]; exact wedgeMoved_length hg), htile]

theorem wedgeFreed_length (hg : g.val < y.tiles.length) : g.val < ((wedgeFreed y g e).tileShow g).tiles.length := by
  rw [(tileShow_onlyRegs _ _).tiles, wedgeFreed, setTile_tiles, List.length_modify, wedgeShown, put_tiles]
  exact wedgeMoved_length hg

/-- The tile at the end of the command. -/
theorem wedgeDone_tile (hg : g.val < y.tiles.length) : (wedgeDone y g e).tile g =
    { (wedgeFreed y g e).tile g with soft := none, softTag := false } := by
  rw [wedgeDone, softOff_tile (wedgeFreed_length y g e hg), tile_congr (tileShow_onlyRegs _ _).tiles]

theorem wedgeDone_memKept : MemKept y (wedgeDone y g e) := by
  have hmoved : MemKept (wedgeCounted y g) (wedgeMoved y g e) := by
    unfold wedgeMoved
    split
    · exact setTile_memKept _ _ _
    · exact setTile_memKept _ _ _
  have hshown : MemKept (wedgeMoved y g e) (wedgeFreed y g e) :=
    memKept_trans ((OnlyRegs.refl _).put _ _).memKept (setTile_memKept _ _ _)
  exact memKept_trans (wedgeCounted_onlyRegs y g).memKept (memKept_trans hmoved (memKept_trans hshown
    (memKept_trans (tileShow_onlyRegs _ _).memKept (softOff_memKept _ _))))

end

/-- The state that DONE shows of a tile: at its ACCEPT (1) or running (2). -/
theorem wedgeDone_state {y : State} {g : Fin 80} {e : QEnt} (hqueue : (y.tile g).queue = []) (hg : g.val < y.tiles.length) {n : Nat}
    (hn : (if dEnd e.desc || isAccept ((wedgeMoved y g e).descAt g ((wedgeMoved y g e).tile g).next) then 1 else 2) = n)
    (h12 : n = 1 ∨ n = 2) : (wedgeDone y g e).get (TILE.STAT_STATE g) = n := by
  have hfreed := wedgeFreed_tile y g e hg
  have hmoved := wedgeMoved_tile (e := e) hg
  rw [wedgeDone, softOff_get]
  refine tileShow_state_free g (by rw [hfreed]) ?_ ?_ h12
  · rw [hfreed, hmoved]
    split <;> exact hqueue
  · rw [wedgeFreed_get, wedgeShown, hn]
    exact get_put_of_lt (show 0 + 3 ≤ 32 by decide) (show n < 8 by omega)

/-- What DONE leaves of a stage tile within its budget: the counts shown, the tile free, and where its program stands. -/
theorem wedgeDone_leaves {y : State} {g : Fin 80} {e : QEnt} (hqueue : (y.tile g).queue = []) (hg : g.val < y.tiles.length) {w : State}
    (hw : w = wedgeDone y g e) :
    w.get (TILE.LAST_CYC_CYC g) = satU 24 (y.tileCount g) ∧ w.get (TILE.WEDGE_CNT g) = satU 32 (y.get (TILE.WEDGE_CNT g) + 1) ∧
      w.get (TILE.STAT_GOLD g) = 0 ∧ w.get (TILE.MXE_ISSUED g) = satU 32 (y.tile g).issued ∧ (w.tile g).doneN = (y.tile g).doneN + 1 ∧
      (w.tile g).busy = false ∧ (w.tile g).wait = none ∧ MemKept y w ∧
      (dEnd e.desc = true → w.get (TILE.STAT_STATE g) = 1 ∧ (w.tile g).next = 0 ∧ (w.tile g).loops = []) ∧
      (dEnd e.desc = false → (w.tile g).next = (loopNext (y.tile g).loops ((y.tile g).next + 1)).2 ∧
        (w.tile g).loops = (loopNext (y.tile g).loops ((y.tile g).next + 1)).1 ∧
        w.get (TILE.STAT_STATE g) = if isAccept (y.descAt g (w.tile g).next) then 1 else 2) := by
  obtain ⟨hlast, hwedge, hgold, hissued⟩ := wedgeCounted_counts y g
  have hcount {f : Fld} (hf : f ∈ [TILE.LAST_CYC_CYC g, TILE.WEDGE_CNT g, TILE.STAT_GOLD g, TILE.MXE_ISSUED g, TILE.ROLE_ROLE g,
      TILE.PROG_START g]) : w.get f = (wedgeCounted y g).get f := by
    rw [hw]
    exact wedgeDone_counts y g e (leaves_done g f hf).2 (leaves_done g f hf).1
  have htile : w.tile g = { (wedgeFreed y g e).tile g with soft := none, softTag := false } := by rw [hw, wedgeDone_tile y g e hg]
  have hfreed := wedgeFreed_tile y g e hg
  have hmoved := wedgeMoved_tile (e := e) hg
  refine ⟨(hcount (by simp)).trans hlast, (hcount (by simp)).trans hwedge, (hcount (by simp)).trans hgold, (hcount (by simp)).trans hissued,
    ?_, ?_, ?_, hw ▸ wedgeDone_memKept y g e, fun hend => ?_, fun hend => ?_⟩
  · rw [htile, hfreed, hmoved]
    split <;> rfl
  · rw [htile, hfreed]
  · rw [htile, hfreed]
  · rw [if_pos hend] at hmoved
    refine ⟨hw ▸ wedgeDone_state hqueue hg (by rw [hend, Bool.true_or, if_pos rfl]) (.inl rfl), ?_, ?_⟩
    · rw [htile, hfreed, hmoved]
    · rw [htile, hfreed, hmoved]
  · rw [if_neg (by simp [hend])] at hmoved
    have hnext : (w.tile g).next = ((wedgeMoved y g e).tile g).next := by rw [htile, hfreed]
    refine ⟨?_, ?_, ?_⟩
    · rw [htile, hfreed, hmoved]
    · rw [htile, hfreed, hmoved]
    · rw [hnext, hw]
      refine wedgeDone_state hqueue hg (by rw [hend, Bool.false_or, wedgeMoved_descAt]) ?_
      split
      · exact .inl rfl
      · exact .inr rfl

/-- Settles O31: ACCEPT is `exec_wedgeAccept`, DONE within its budget `wedgeDone_leaves`. -/
theorem tilesTakeWedges : Obligations.TilesTakeWedges := by
  refine ⟨?_, ?_⟩
  · intro s t g x hrun hdev z so hsame hlow hhigh hfree hwait y e hfetch hkind hfence
    have hmain := exec_wedgeAccept hrun.1 (by rwa [← hsame] at hdev) hlow hhigh hfree hwait hfetch hkind hfence
    refine ⟨fun hrole j hj => ?_, fun hrole hnone => ?_, fun hrole hcols => ?_, fun hrole c cs hcols => ?_⟩
    · rw [hmain, acceptStep_stage hrole, hj]
    · rw [hmain, acceptStep_stage hrole, hnone]
    · rw [hmain, acceptStep_column hrole, hcols]
    · rw [hmain, acceptStep_column hrole, hcols]
  · intro s t g x hrun z so hruns hwait y e hfetch hkind hop hqueue hcount hrole hg k
    have hmine : (decide (dKind e.desc = 7) && decide (dU8 e.desc 4 = 1)) = true := by rw [decide_eq_true hkind, decide_eq_true hop]; rfl
    have hfence : y.fenceOk g e = true := by simp [State.fenceOk, hqueue]
    refine ⟨_, seqRow_runs (exec_wedgeDone_row t g x) hrun.1 hruns hwait hfetch hmine hfence, ?_⟩
    exact wedgeDone_leaves hqueue hg (by rw [doneBody_within hqueue hcount hrole, wedgeDone])

end Sys2Proof.Proofs
end

section
/-! PROOFS. Arrivals at a tile (R166, R201 to R203, R209, R211, R212) and the scrubber of its scratchpad (R192, R197 to R199, R377). -/

namespace Sys2Proof.Proofs

open Sys2Proof.Machine Sys2Proof.Laws

variable {s u v : State}

/-! ### Windows -/

theorem filled_same {b : Bytes} {n : Nat} (h : n = b.length) : s.filled b n = (b, s) := by
  rw [State.filled, h, Nat.sub_self, show ceilDiv 0 4 = 0 from rfl, State.randoms]
  dsimp only
  rw [List.take_zero, List.append_nil]

theorem padTo_whole {n : Nat} (h : n % 8 = 0) : padTo 8 n = n := by
  rw [padTo]
  omega

theorem winStore_whole {g : Nat} {p : Piece} (h : p.data.length % 8 = 0) : s.winStore g p =
    if s.get (WIN.ATTR_TAGM g p.win) = 0 then s.spdStore g (s.get (WIN.BASE_ADDR g p.win) + p.ofs) p.data
    else (s.spdStore g (s.get (WIN.BASE_ADDR g p.win) + p.ofs) p.data).fillLines g
      (linesEnd (s.get (WIN.BASE_ADDR g p.win) + p.ofs) p.data.length) false := by
  rw [State.winStore, filled_same (padTo_whole h)]

section
variable {g : Nat} {p : Piece} {rest : List Piece} (hwin : (s.tile g).win = p :: rest)
include hwin

/-- The window of a tile with its oldest piece taken off. -/
abbrev winPopped (s : State) (g : Nat) (rest : List Piece) : State := s.setTile g (fun x => { x with win := rest })

theorem winNext_discarded (hrej : (s.tile g).rej.contains (p.src, p.xfer) = true) : s.winNext g = winPopped s g rest := by
  unfold State.winNext
  simp only [hwin, hrej, if_true]

variable (hrej : (s.tile g).rej.contains (p.src, p.xfer) = false)
include hrej

theorem winNext_rejected (hreason : s.winReason g p ≠ 0) : s.winNext g = (winPopped s g rest).winReject g p (s.winReason g p) := by
  unfold State.winNext
  simp only [hwin, hrej, Bool.false_eq_true, if_false, if_pos hreason]

variable (hreason : s.winReason g p = 0)
include hreason

theorem winNext_untagged (htag : s.get (WIN.ATTR_TAGM g p.win) = 0) : s.winNext g = (winPopped s g rest).winStore g p := by
  unfold State.winNext
  simp only [hwin, hrej, Bool.false_eq_true, if_false, hreason, ne_eq, not_true_eq_false, htag, decide_false, Bool.false_and]

theorem winNext_parity (htag : s.get (WIN.ATTR_TAGM g p.win) ≠ 0) {u : State} (hpar : s.parity g = some u) : s.winNext g = u := by
  unfold State.winNext
  simp only [hwin, hrej, Bool.false_eq_true, if_false, hreason, ne_eq, not_true_eq_false, not_false_eq_true, htag, if_true, hpar]

theorem winNext_empty (htag : s.get (WIN.ATTR_TAGM g p.win) ≠ 0) (hpar : s.parity g = none)
    (hlines : ∀ l ∈ linesOf (s.get (WIN.BASE_ADDR g p.win) + p.ofs) p.data.length, s.full g l = false) :
    s.winNext g = (winPopped s g rest).winStore g p := by
  have hany : (linesOf (s.get (WIN.BASE_ADDR g p.win) + p.ofs) p.data.length).any (fun l => s.full g l) = false :=
    List.any_eq_false.mpr fun l hl => by simp [hlines l hl]
  unfold State.winNext
  simp only [hwin, hrej, Bool.false_eq_true, if_false, hreason, ne_eq, not_true_eq_false, not_false_eq_true, htag, if_true, decide_true,
    Bool.true_and, hpar, hany]

theorem winNext_full (htag : s.get (WIN.ATTR_TAGM g p.win) ≠ 0) (hpar : s.parity g = none)
    (hlines : ∃ l ∈ linesOf (s.get (WIN.BASE_ADDR g p.win) + p.ofs) p.data.length, s.full g l = true) : s.winNext g = s := by
  have hany : (linesOf (s.get (WIN.BASE_ADDR g p.win) + p.ofs) p.data.length).any (fun l => s.full g l) = true :=
    List.any_eq_true.mpr hlines
  unfold State.winNext
  simp only [hwin, hrej, Bool.false_eq_true, if_false, hreason, ne_eq, not_true_eq_false, not_false_eq_true, htag, if_true, decide_true,
    Bool.true_and, hpar, hany]

end

/-! ### Rings -/

section
variable {g : Nat} {k : RingBlk} {rest : List RingBlk} (hxin : (s.tile g).xin = k :: rest)
include hxin

/-- The tile with its oldest ring block taken off, and the sender no longer held for it. -/
abbrev ringPopped (u : State) (g : Nat) (rest : List RingBlk) : State := (u.setTile g (fun x => { x with xin := rest })).holdOver (prevDie g) 6 g

theorem ringArrive_parity {u : State} (hpar : s.parity g = some u) : s.ringArrive g = u := by
  unfold State.ringArrive
  simp only [hxin, hpar]

variable (hpar : s.parity g = none)
include hpar

theorem ringArrive_sum (hsum : k.sum = true) {u : State} (hland : s.landSum g k = some u) : s.ringArrive g = ringPopped u g rest := by
  unfold State.ringArrive
  simp only [hxin, hpar, hsum, if_true, hland]

variable (hsum : k.sum = false)
include hsum

theorem ringArrive_stop {er : AccErr} (hland : s.landAt g k = .error er) : s.ringArrive g = (ringPopped s g rest).arrivalStop g k.part er := by
  unfold State.ringArrive
  simp only [hxin, hpar, hsum, Bool.false_eq_true, if_false, hland]

/-- The piece written where its lines are empty, which turn full. -/
abbrev ringLanded (s : State) (g : Nat) (k : RingBlk) (rest : List RingBlk) (o : Opnd) : State :=
  ((((ringPopped s g rest).holdOver g 4 (nextDie g)).holdOver g 9 (nextDie g)).wordWrite g o 0 k.el).fillLines g (o.ends (padTo 8 k.el.length)) true

variable {o : Opnd} (hland : s.landAt g k = .ok o) (hfree : s.landWait g k = none)
include hland hfree

theorem ringArrive_last (hhop : 3 ≤ k.hop) : s.ringArrive g = ringLanded s g k rest o := by
  unfold State.ringArrive
  simp only [hxin, hpar, hsum, Bool.false_eq_true, if_false, hland, hfree, if_neg (Nat.not_lt.mpr hhop)]

theorem ringArrive_on (hhop : k.hop < 3) (hroom : s.ringNoRoom g = none) (hnext : s.landWait (nextDie g) { k with hop := k.hop + 1 } = none) :
    s.ringArrive g = (ringLanded s g k rest o).ringSend g { k with hop := k.hop + 1 } := by
  have hpiece : ¬k.sum = true := by simp [hsum]
  unfold State.ringArrive
  simp only [hxin, hpar, if_neg hpiece, hland, hfree, hhop, if_true, hroom, hnext, Option.orElse_none, Option.map_none]

end

/-- Settles O33: the model's `winNext` and `ringArrive`, branch by branch. -/
theorem arrivalsLand : Obligations.ArrivalsLand := by
  intro s t g x hrun z so win ring
  have hwinOf {u : State} (h : so.winNext g = u) : win u := exec_softRun_eq hrun.1 (rfl : _ = execWindowWrite t g s x) h
  have hringOf {u : State} (h : so.ringArrive g = u) : ring u := exec_softRun_eq hrun.1 (rfl : _ = execRingArrival t g s x) h
  refine ⟨fun p rest hwin => ?_, fun k rest hxin => ?_⟩
  · intro y tagged a
    refine ⟨fun hrej => hwinOf (winNext_discarded hwin hrej), fun hrej => ⟨fun hreason => hwinOf (winNext_rejected hwin hrej hreason),
      fun hreason htag => hwinOf (winNext_untagged hwin hrej hreason (not_not.mp htag)),
      fun hreason htag u hpar => hwinOf (winNext_parity hwin hrej hreason htag hpar),
      fun hreason htag hpar hlines => hwinOf (winNext_empty hwin hrej hreason htag hpar hlines),
      fun hreason htag hpar hlines => hwinOf (winNext_full hwin hrej hreason htag hpar hlines)⟩, fun hlen => ?_⟩
    have hget (f : Fld) : y.get f = so.get f := setTile_get _ _ _ _
    rw [winStore_whole hlen, hget, hget, ite_not]
  · intro pop next
    refine ⟨fun u hpar => hringOf (ringArrive_parity hxin hpar), fun hpar hsum u hland => hringOf (ringArrive_sum hxin hpar hsum hland),
      fun hpar hsum er hland => hringOf (ringArrive_stop hxin hpar hsum hland), fun hpar hsum o hland hfree => ⟨fun hhop =>
      hringOf (ringArrive_last hxin hpar hsum hland hfree hhop), fun hhop hroom hnext =>
      hringOf (ringArrive_on hxin hpar hsum hland hfree hhop hroom hnext)⟩⟩

/-! ### The scrubber -/

/-- The served write-back of the word `a` of a tile's queue. -/
def ceqServed (u : State) (g a : Nat) (ecc : EccRes) : State :=
  match ecc with
  | .clean => u.setCeq g ((u.tile g).ceq.filter (fun x => x ≠ a))
  | .corrected => (((u.setCeq g ((u.tile g).ceq.filter (fun x => x ≠ a))).bump (TILE.SPD_CE_CNT g)).eccInfo g a false).raise (TILE.SPD_EVT_CE g) 1
  | .uncorrectable => (u.setCeq g ((u.tile g).ceq.filter (fun x => x ≠ a))).spdUe g a false

theorem writeBack_first {g a : Nat} {pick : Nat → Bool} (ecc : EccRes) (h : (s.tile g).ceq.find? pick = some a) :
    s.writeBack g pick ecc = ceqServed s g a ecc := by
  cases ecc <;> simp only [State.writeBack, ceqServed, h] <;> rfl

theorem sweepDue_of {g : Nat} (hint : s.get MS.SCRUB_SPD_INT ≤ tileCycles (s.mono - (s.tile g).sweepAt)) (hallowed : s.msAllowed 11 = true)
    (hruns : ∀ a ∈ s.ms.run, a.code ≠ 9) : s.sweepDue g = true := by
  have hany : s.ms.run.any (fun a => a.code = 9) = false := List.any_eq_false.mpr fun a ha => by simp [hruns a ha]
  rw [State.sweepDue, decide_eq_true hint, hallowed, hany]
  rfl

/-- The sweep of a tile moved on to its next line. -/
def sweptOn (u : State) (g : Nat) : State := u.setTile g (fun x => { x with scrubLine := (x.scrubLine + 1) % 2048, sweepAt := u.mono })

theorem sweepLine_read {g grp word : Nat} {ecc : EccRes} (h : grp < s.get (TILE.SPD_SIZE_GROUPS g)) : s.sweepLine g grp word ecc =
    (sweptOn s g).scrRead g (grp * 2 ^ 20 + (s.tile g).scrubLine * 512 + word % 64 * 8) ecc := by
  have hget : (sweptOn s g).get (TILE.SPD_SIZE_GROUPS g) = s.get (TILE.SPD_SIZE_GROUPS g) := setTile_get _ _ _ _
  exact if_pos (hget.symm ▸ h)

theorem sweepLine_past {g grp word : Nat} {ecc : EccRes} (h : s.get (TILE.SPD_SIZE_GROUPS g) ≤ grp) : s.sweepLine g grp word ecc = sweptOn s g := by
  have hget : (sweptOn s g).get (TILE.SPD_SIZE_GROUPS g) = s.get (TILE.SPD_SIZE_GROUPS g) := setTile_get _ _ _ _
  have hpast : ¬grp < (sweptOn s g).get (TILE.SPD_SIZE_GROUPS g) := hget.symm ▸ Nat.not_lt.mpr h
  exact if_neg hpast

section
variable {t : Nat} {g : Fin 80} (hr : s.released = true) (hpower : (s.at_ t).tilePowered g = true)
include hr hpower

theorem exec_scrubSweepLine {grp : Fin 3} {word : Nat} {ecc : EccRes} (hdue : (s.at_ t).sweepDue g = true) :
    exec (.scrubSweepLine t g grp word ecc) s = .next ((s.at_ t).finish
      (if ((s.at_ t).tile g).ceq.isEmpty then (s.at_ t).sweepLine g grp word ecc else (s.at_ t).writeBack g (fun _ => true) ecc)) :=
  exec_run_eq hr (rfl : _ = execScrubSweepLine t g grp word ecc s) (when_true (by rw [hpower, hdue]; rfl))

theorem exec_scrubWriteBack {ecc : EccRes} : exec (.scrubWriteBack t g ecc) s = .next ((s.at_ t).finish
    ((s.at_ t).writeBack g (fun _ => true) ecc)) :=
  exec_run_eq hr (rfl : _ = execScrubWriteBack t g ecc s) (when_true hpower)

theorem exec_forcedScrubSlot {grp : Fin 3} {word : Nat} {ecc : EccRes} (hgrp : grp.val < (s.at_ t).get (TILE.SPD_SIZE_GROUPS g))
    (hpending : ((s.at_ t).tile g).ceq.any (fun a => a / 2 ^ 20 = grp.val) = true ∨ (s.at_ t).on (TILE.SPD_STAT_SWEEP g) = true ∨
      (s.at_ t).sweepDue g = true) :
    exec (.forcedScrubSlot t g grp word ecc) s = .next ((s.at_ t).finish
      (if ((s.at_ t).tile g).ceq.any (fun a => a / 2 ^ 20 = grp.val) then
          ((s.at_ t).bump (TILE.SPD_SCRUB_FORCE_CNT g)).writeBack g (fun a => a / 2 ^ 20 = grp.val) ecc
        else if (s.at_ t).on (TILE.SPD_STAT_SWEEP g) then ((s.at_ t).bump (TILE.SPD_SCRUB_FORCE_CNT g)).overflowLine g grp word ecc
        else ((s.at_ t).bump (TILE.SPD_SCRUB_FORCE_CNT g)).sweepLine g grp word ecc)) := by
  refine exec_run_eq hr (rfl : _ = execForcedScrubSlot t g grp s word ecc) (when_true ?_)
  rw [hpower, decide_eq_true hgrp, Bool.true_and, Bool.true_and]
  rcases hpending with h | h | h <;> simp only [h, Bool.true_or, Bool.or_true]

theorem exec_overflowSweepDone {errs : List (Nat × EccRes)} (hsweep : (s.at_ t).on (TILE.SPD_STAT_SWEEP g) = true) :
    exec (.overflowSweepDone t g errs) s = .next ((s.at_ t).finish ((s.at_ t).overflowSweep g
      (errs.filter (fun e => decide (((s.at_ t).tile g).ovfLine ≤ e.1 % 2 ^ 20 / 512) && decide (e.1 < (s.at_ t).spdSize g))))) :=
  exec_run_eq hr (rfl : _ = execOverflowSweepDone t g s errs) (when_true (by rw [hpower, hsweep]; rfl))

end

/-- An overflow sweep whose reads meet no error. -/
theorem overflowSweep_clean (g : Nat) {errs : List (Nat × EccRes)} (h : ∀ e ∈ errs, e.2 = .clean) :
    s.overflowSweep g errs = (s.put (TILE.SPD_STAT_SWEEP g) 0).bump (TILE.SPD_SCRUB_SWEEP_CNT g) := by
  induction errs with
  | nil => rfl
  | cons e es ih =>
    obtain ⟨a, r⟩ := e
    obtain ⟨hr, hes⟩ := List.forall_mem_cons.mp h
    obtain rfl : r = .clean := hr
    exact ih hes

theorem leaves_sweep : ∀ g : Fin 80, Leaves (TILE.SPD_SCRUB_SWEEP_CNT g) (TILE.SPD_STAT_SWEEP g) ∧
    Leaves (TILE.SPD_STAT_SWEEP g) (TILE.SPD_SCRUB_SWEEP_CNT g) := by decide

theorem overflowSweep_completes {t : Nat} {g : Fin 80} {errs : List (Nat × EccRes)} (hrun : s.Running t)
    (hpower : (s.at_ t).tilePowered g = true) (hsweep : (s.at_ t).on (TILE.SPD_STAT_SWEEP g) = true) (hclean : ∀ e ∈ errs, e.2 = .clean) :
    Completes (.overflowSweepDone t g errs) s (fun u => u.get (TILE.SPD_STAT_SWEEP g) = 0 ∧
        u.get (TILE.SPD_SCRUB_SWEEP_CNT g) = satU 32 (s.get (TILE.SPD_SCRUB_SWEEP_CNT g) + 1) ∧
        RegsBut [(TILE.SPD_STAT g).addr, (TILE.SPD_SCRUB_SWEEP_CNT g).addr] s u ∧ MemKept s u ∧ u.tiles = s.tiles) := by
  obtain ⟨hcnt, hstat⟩ := leaves_sweep g
  rw [hrun.2.2] at hpower hsweep
  have honly : OnlyRegs (s.clock t) (((s.clock t).put (TILE.SPD_STAT_SWEEP g) 0).bump (TILE.SPD_SCRUB_SWEEP_CNT g)) := .bump (.put (.refl _) _ _) _
  refine completes_ends (z := ((s.clock t).put (TILE.SPD_STAT_SWEEP g) 0).bump (TILE.SPD_SCRUB_SWEEP_CNT g)) hrun
    (rfl : _ = execOverflowSweepDone t g s errs) ((when_true (by rw [hpower, hsweep]; rfl)).trans
      (overflowSweep_clean g fun e he => hclean e (List.mem_of_mem_filter he))) hrun.2.1 fun u he =>
    ⟨(he.get _).trans ?_, (he.get _).trans ?_, he.regsBut ?_, he.memKept (memKept_trans (clock_onlyMem s t) honly.memKept),
      he.tiles.trans honly.tiles⟩
  · rw [get_bump_other _ hcnt]
    exact get_put_of_lt (show 1 + 1 ≤ 32 by decide) (show 0 < 2 ^ 1 by decide)
  · rw [get_bump_self _ _ (show 0 + 32 ≤ 32 by decide), get_put_other _ hstat]
    rfl
  · exact regsBut_bump (by simp) (regsBut_put _ (by simp [TILE.SPD_STAT, TILE.SPD_STAT_SWEEP]) (regsBut_clock _ s t))

/-! ### A corrected error counts once -/

theorem leaves_ceCnt : ∀ g : Nat, ∀ f ∈ [TILE.SPD_ECC_INFO_ADDR g, TILE.SPD_ECC_INFO_UE g, TILE.SPD_ECC_INFO_VALID g, TILE.SPD_STAT_CEQ_OCC g,
    TILE.SPD_STAT_SWEEP g], Leaves f (TILE.SPD_CE_CNT g) := by
  intro g f hf
  simp only [List.mem_cons, List.not_mem_nil, or_false] at hf
  rcases hf with rfl | rfl | rfl | rfl | rfl
  all_goals exact ⟨by dsimp only [TILE.SPD_ECC_INFO_ADDR, TILE.SPD_ECC_INFO_UE, TILE.SPD_ECC_INFO_VALID, TILE.SPD_STAT_CEQ_OCC,
    TILE.SPD_STAT_SWEEP]; omega, .inl (by dsimp only [TILE.SPD_ECC_INFO_ADDR, TILE.SPD_ECC_INFO_UE, TILE.SPD_ECC_INFO_VALID,
    TILE.SPD_STAT_CEQ_OCC, TILE.SPD_STAT_SWEEP, TILE.SPD_CE_CNT]; omega)⟩

theorem ceCnt_kept (g : Nat) : (TILE.SPD_CE_CNT g).addr ≠ (TILE.SPD_EVT_CE g).addr ∧ (TILE.SPD_CE_CNT g).addr ≠ (TILE.SPD_EVT_CEQ_OVF g).addr ∧
    (TILE.SPD_CE_CNT g).addr ∉ reportRegs ((TILE.SPD_EVT_CE g).addr / 4096) ∧
    (TILE.SPD_CE_CNT g).addr ∉ reportRegs ((TILE.SPD_EVT_CEQ_OVF g).addr / 4096) := by
  dsimp only [reportRegs, TILE.SPD_CE_CNT, TILE.SPD_EVT_CE, TILE.SPD_EVT_CEQ_OVF, SI.STAT, SI.EVT, PG.FAULT]
  simp only [List.mem_cons, List.not_mem_nil, or_false, not_or]
  omega

theorem spdCe_counts (g a : Nat) : (s.spdCe g a false).get (TILE.SPD_CE_CNT g) = satU 32 (s.get (TILE.SPD_CE_CNT g) + 1) := by
  have hleaves := leaves_ceCnt g
  obtain ⟨hce, hovf, hceLog, hovfLog⟩ := ceCnt_kept g
  have hcount : ((((s.bump (TILE.SPD_CE_CNT g)).eccInfo g a false).raise (TILE.SPD_EVT_CE g) 1 0 false).get (TILE.SPD_CE_CNT g)) =
      satU 32 (s.get (TILE.SPD_CE_CNT g) + 1) := by
    rw [raise_get _ _ _ _ _ _ hce hceLog, State.eccInfo, get_set1_other _ (hleaves _ (by simp)), get_put_other _ (hleaves _ (by simp)),
      get_put_other _ (hleaves _ (by simp))]
    exact get_bump_self _ _ (show 0 + 32 ≤ 32 by decide)
  unfold State.spdCe
  dsimp only
  split
  · exact hcount
  · split
    · rw [get_put_other _ (hleaves _ (by simp)), setTile_get, hcount]
    · rw [raise_get _ _ _ _ _ _ hovf hovfLog, get_set1_other _ (hleaves _ (by simp)), get_put_other _ (hleaves _ (by simp)), setTile_get, hcount]

theorem scrRead_corrected (s : State) (g a : Nat) : s.scrRead g a .corrected = s.spdCe g a false := rfl

theorem leaves_forced : ∀ g : Fin 80, Leaves (TILE.SPD_SCRUB_FORCE_CNT g) (TILE.SPD_SIZE_GROUPS g) := by decide

/-- Settles O34: the scrubber's commands with their guards met; which of its works takes whose turn is assumption 77. -/
theorem scrubberWorks : Obligations.ScrubberWorks := by
  intro s t g grp word ecc hrun z k due read swept served slot hpower
  have hserved (u : State) (a : Nat) (hq : (u.tile g).ceq = k.ceq) : ceqServed u g a ecc = served u a := by
    cases ecc <;> simp only [ceqServed, hq] <;> rfl
  have hz : z = s.clock t := hrun.2.2
  have hget (f : Fld) : z.get f = s.get f := by rw [hz, clock_get]
  have hon (f : Fld) : z.on f = s.on f := by rw [hz, clock_on]
  have hdueOf (h : due) : z.sweepDue g = true := sweepDue_of (by rw [hget]; exact h.1) h.2.1 (by rw [hz]; exact h.2.2)
  refine ⟨fun hdue hempty => ⟨fun hgrp => ?_, fun hgrp => ?_⟩, fun a q hceq => ⟨?_, fun hdue => ?_⟩,
    fun hgrp => ⟨fun a hfind => ?_, fun hnone hsweep => ?_, fun hnone hsweep hdue => ?_⟩, fun hsweep errs => ⟨?_, fun hclean => ?_⟩, fun a => ⟨?_, rfl⟩⟩
  · have hmain := exec_scrubSweepLine (grp := grp) (word := word) (ecc := ecc) hrun.1 hpower (hdueOf hdue)
    rwa [if_pos (by rw [hempty]; rfl), sweepLine_read (by rw [hget]; exact hgrp)] at hmain
  · have hmain := exec_scrubSweepLine (grp := grp) (word := word) (ecc := ecc) hrun.1 hpower (hdueOf hdue)
    rwa [if_pos (by rw [hempty]; rfl), sweepLine_past (by rw [hget]; exact hgrp)] at hmain
  · rw [exec_scrubWriteBack hrun.1 hpower, writeBack_first (a := a) ecc (by rw [hceq]; rfl), hserved _ a rfl]
  · rw [exec_scrubSweepLine hrun.1 hpower (hdueOf hdue), if_neg (by rw [hceq]; exact Bool.false_ne_true), writeBack_first (a := a) ecc (by rw [hceq]; rfl), hserved _ a rfl]
  · have hany : k.ceq.any (fun a => a / 2 ^ 20 = grp.val) = true :=
      List.any_eq_true.mpr ⟨a, List.mem_of_find?_eq_some hfind, List.find?_some (p := fun a => decide (a / 2 ^ 20 = grp.val)) hfind⟩
    rw [exec_forcedScrubSlot hrun.1 hpower (by rw [hget]; exact hgrp) (.inl hany), if_pos hany,
      writeBack_first (a := a) ecc (by rw [tile_congr (((OnlyRegs.refl _).bump _).tiles)]; exact hfind),
      hserved _ a (by rw [tile_congr (((OnlyRegs.refl _).bump _).tiles)])]
  · have hany : ¬k.ceq.any (fun a => a / 2 ^ 20 = grp.val) = true := by
      rw [Bool.not_eq_true]
      exact List.any_eq_false.mpr fun a ha => by simpa using hnone a ha
    rw [exec_forcedScrubSlot hrun.1 hpower (by rw [hget]; exact hgrp) (.inr (.inl (by rw [hon]; exact hsweep))), if_neg hany,
      if_pos (by rw [hon]; exact hsweep), State.overflowLine, tile_congr (((OnlyRegs.refl _).bump _).tiles)]
  · have hany : ¬k.ceq.any (fun a => a / 2 ^ 20 = grp.val) = true := by
      rw [Bool.not_eq_true]
      exact List.any_eq_false.mpr fun a ha => by simpa using hnone a ha
    have hslot : grp.val < slot.get (TILE.SPD_SIZE_GROUPS g) := by
      rw [get_bump_other _ (leaves_forced g), hget]
      exact hgrp
    rw [exec_forcedScrubSlot hrun.1 hpower (by rw [hget]; exact hgrp) (.inr (.inr (hdueOf hdue))), if_neg hany,
      if_neg (by rw [hon, hsweep]; exact Bool.false_ne_true), sweepLine_read hslot, tile_congr (((OnlyRegs.refl _).bump _).tiles)]
    rfl
  · exact exec_overflowSweepDone hrun.1 hpower (by rw [hon]; exact hsweep)
  · exact overflowSweep_completes hrun hpower (by rw [hon]; exact hsweep) hclean
  · rw [scrRead_corrected]
    exact spdCe_counts g a

end Sys2Proof.Proofs
end

section
/-! PROOFS. The identity of heads (R88 to R94): a challenge sent, answered, timed out, and the outcome shown. -/

namespace Sys2Proof.Proofs

open Sys2Proof.Machine Sys2Proof.Laws

variable {s u v : State}

/-! ### A challenge sent -/

theorem randoms_state (s : State) (n : Nat) : (s.randoms n).2 = { s with free := s.free + n } := by
  induction n generalizing s with
  | zero => rfl
  | succ n ih =>
    rw [State.randoms]
    refine (ih s.random.2).trans ?_
    rw [State.random, Nat.add_assoc, Nat.add_comm 1 n]

theorem hd_setHd_self {h : Nat} (f : HeadSt → HeadSt) (hh : h < s.heads.length) : (s.setHd h f).hd h = f (s.hd h) := by
  rw [State.hd, setHd_heads, getD_modify_self _ _ _ _ hh, State.hd]

/-- The sequence number of a head's next challenge. -/
def chalSeq (s : State) (h : Nat) : Nat := ((s.hd h).seq + 1) % 2 ^ 32

/-- Its nonce, drawn from the random source. -/
def chalNonce (s : State) : Bytes := (s.randoms 8).1.flatMap (leBytes 4)

/-- A head's state when a challenge that is no further attempt has been sent. -/
def chalHead (s : State) (h : Nat) (x : HeadSt) : HeadSt :=
  { x with seq := chalSeq s h, nonce := chalNonce s, sentAt := some s.mono, lastChal := some s.mono, retryAt := none, tries := 0, segs := [],
           segCnt := 0, checking := false, chalDue := false }

/-- The state with the challenge noted, before it is shown. -/
def chalNoted (s : State) (h : Nat) : State := ({ s with free := s.free + 8 } : State).setHd h (chalHead s h)

/-- The registers that a challenge shows. -/
def chalShown (s : State) (h : Nat) : State :=
  (if s.get (HP.STAT_ID_STATE h) = idTrusted then chalNoted s h else (chalNoted s h).put (HP.STAT_ID_STATE h) idChallenging).clr (HP.ID_CTRL_RECHAL h)

/-- The datagram of a challenge. -/
def chalDatagram (s : State) (h : Fin 8) (ip : Nat) : Emit :=
  .udp (.head h) (s.hd h).mac ip (s.get (HP.UDP_CTL_PORT h)) (s.get (HP.UDP_CTL_PORT h)) {}
    ([1, 0, 0, 0] ++ leBytes 4 (chalSeq s h) ++ chalNonce s ++ leBytes 8 (lowBits 64 s.snsNs))

theorem chalNoted_get (s : State) (h : Nat) (f : Fld) : (chalNoted s h).get f = s.get f := rfl

theorem chalNoted_hd {h : Nat} (hh : h < s.heads.length) : (chalNoted s h).hd h = chalHead s h (s.hd h) :=
  hd_setHd_self (s := { s with free := s.free + 8 }) _ hh

theorem chalShown_onlyRegs (s : State) (h : Nat) : OnlyRegs (chalNoted s h) (chalShown s h) :=
  .clr (.ite (.refl _) (.put (.refl _) _ _)) _

theorem leaves_challenge : ∀ h : Fin 8, Leaves (HP.ID_CTRL_RECHAL h) (HP.STAT_ID_STATE h) ∧ Leaves (HP.ID_CTRL_RECHAL h) (HP.UDP_CTL_PORT h) ∧
    Leaves (HP.STAT_ID_STATE h) (HP.UDP_CTL_PORT h) := by decide

theorem chalShown_port (s : State) (h : Fin 8) : (chalShown s h).get (HP.UDP_CTL_PORT h) = s.get (HP.UDP_CTL_PORT h) := by
  obtain ⟨-, hclr, hput⟩ := leaves_challenge h
  rw [chalShown, get_clr_other _ hclr]
  split
  · rfl
  · rw [get_put_other _ hput, chalNoted_get]

theorem chalShown_state (s : State) (h : Fin 8) : (chalShown s h).get (HP.STAT_ID_STATE h) =
    if s.get (HP.STAT_ID_STATE h) = idTrusted then idTrusted else idChallenging := by
  obtain ⟨hclr, -, -⟩ := leaves_challenge h
  rw [chalShown, get_clr_other _ hclr]
  split
  next htrusted => exact htrusted
  next => exact get_put_of_lt (show 4 + 3 ≤ 32 by decide) (show idChallenging < 2 ^ 3 by decide)

theorem sendChallenge_sent {h : Fin 8} {ip : Nat} (haddr : s.headAddr h = some ip) (hlink : s.on (HP.STAT_LINK h) = true)
    (hip : s.get (HP.IPV4_ADDR h) ≠ 0) (hrng : s.rngOk = true) (hh : h.val < s.heads.length) :
    s.sendChallenge h false = (chalShown s h).emit (chalDatagram s h ip) := by
  have hrandoms : s.randoms 8 = ((s.randoms 8).1, { s with free := s.free + 8 }) := Prod.ext rfl (randoms_state s 8)
  have honly := chalShown_onlyRegs s h
  have hmac : ((chalShown s h).hd h).mac = (s.hd h).mac := by rw [hd_congr honly.heads, chalNoted_hd hh]; rfl
  have hsns : (chalShown s h).snsNs = s.snsNs := by rw [State.snsNs, State.sns, honly.time, honly.mono]; rfl
  have hguard : ¬(!(s.on (HP.STAT_LINK h) && s.get (HP.IPV4_ADDR h) ≠ 0 && s.rngOk)) = true := by
    rw [hlink, decide_eq_true hip, hrng]
    decide
  unfold State.sendChallenge
  rw [haddr]
  dsimp only
  rw [if_neg hguard, hrandoms, chalDatagram, ← chalShown_port s h, ← hmac, ← hsns]
  rfl

theorem Ends.free {z : State} (h : Ends z u) : u.free = z.free := by
  obtain ⟨hact, s0, -, rfl⟩ := h
  simp only [State.finish, settle_of_quiet _ hact]
  rfl

/-- What every challenge sent does. -/
def ChalSent (s : State) (h : Fin 8) (ip : Nat) (u : State) : Prop :=
  u.outbox = s.outbox ++ [chalDatagram s h ip] ∧ u.free = s.free + 8 ∧ MemKept s u ∧ RegsBut [(HP.STAT h).addr, (HP.ID_CTRL h).addr] s u ∧
    u.hd h = chalHead s h (s.hd h) ∧
    u.get (HP.STAT_ID_STATE h) = if s.get (HP.STAT_ID_STATE h) = idTrusted then idTrusted else idChallenging

theorem chalSent_of_ends {h : Fin 8} {ip : Nat} (hh : h.val < s.heads.length) (he : Ends ((chalShown s h).emit (chalDatagram s h ip)) u) :
    ChalSent s h ip u := by
  have honly := chalShown_onlyRegs s h
  refine ⟨he.outbox.trans ?_, he.free.trans ?_, he.memKept ?_, he.regsBut ?_, (hd_congr he.heads h).trans ?_, (he.get _).trans ?_⟩
  · rw [emit_outbox, honly.outbox]
    rfl
  · rw [emit_free, honly]
    rfl
  · exact memKept_trans (v := (chalShown s h).emit (chalDatagram s h ip))
      (memKept_trans (u := chalNoted s h) (memKept_of rfl rfl rfl rfl rfl rfl rfl rfl) honly.memKept) (memKept_of rfl rfl rfl rfl rfl rfl rfl rfl)
  · refine regsBut_trans (u := chalShown s h) ?_ fun _ _ => rfl
    have hclr (w : State) (hw : RegsBut [(HP.STAT h).addr, (HP.ID_CTRL h).addr] s w) :
        RegsBut [(HP.STAT h).addr, (HP.ID_CTRL h).addr] s (w.clr (HP.ID_CTRL_RECHAL h)) :=
      regsBut_put _ (by simp [HP.ID_CTRL, HP.ID_CTRL_RECHAL]) hw
    refine hclr _ ?_
    split
    · exact fun _ _ => rfl
    · exact regsBut_put _ (by simp [HP.STAT, HP.STAT_ID_STATE]) fun _ _ => rfl
  · rw [hd_congr (emit_heads _ _), hd_congr honly.heads, chalNoted_hd hh]
  · rw [emit_get]
    exact chalShown_state s h


/-! ### The commands that send, time out and answer -/

/-- A retry is due. -/
def retryDue (s : State) (h : Nat) : Bool :=
  match (s.hd h).retryAt with
  | none => false
  | some a => decide (a ≤ s.mono)

theorem challengeSend_meaning {h : Fin 8} (hdue : (s.hd h).chalDue = true) :
    (s.when ((s.hd h).chalDue || s.on (HP.ID_CTRL_RECHAL h) || retryDue s h) fun s' =>
      s'.sendChallenge h (retryDue s h && !(s.hd h).chalDue && !s.on (HP.ID_CTRL_RECHAL h))) = s.sendChallenge h false := by
  rw [when_true (by rw [hdue]; rfl), hdue, Bool.not_true, Bool.and_false, Bool.false_and]

/-- The periodic challenge is due. -/
def periodOver (s : State) (h : Nat) (p : Nat) : Bool :=
  match (s.hd h).lastChal with
  | none => false
  | some a => decide (a + p * tickS ≤ s.mono)

theorem rechallenge_meaning {h : Fin 8} {a : Nat} (htrusted : s.get (HP.STAT_ID_STATE h) = idTrusted)
    (hperiod : s.get (HP.LIFE_CFG_PERIOD_S h) ≠ 0) (hlast : (s.hd h).lastChal = some a)
    (hover : a + s.get (HP.LIFE_CFG_PERIOD_S h) * tickS ≤ s.mono) (hsent : (s.hd h).sentAt = none) (hcheck : (s.hd h).checking = false) :
    (s.when (s.get (HP.STAT_ID_STATE h) = idTrusted && s.get (HP.LIFE_CFG_PERIOD_S h) ≠ 0 &&
      periodOver s h (s.get (HP.LIFE_CFG_PERIOD_S h)) && (s.hd h).sentAt.isNone && !(s.hd h).checking) fun s =>
        s.sendChallenge h false) = s.sendChallenge h false := by
  have hdue : periodOver s h (s.get (HP.LIFE_CFG_PERIOD_S h)) = true := by
    rw [periodOver, hlast]
    exact decide_eq_true hover
  refine when_true ?_
  rw [decide_eq_true htrusted, decide_eq_true hperiod, hdue, hsent, hcheck]
  rfl

theorem challenge_completes {t : Nat} {h : Fin 8} {ip : Nat} {c : Instr} {f : State → State} {P : State → Prop} (hrun : s.Running t)
    (he : exec c s = run t f s) (hf : f (s.clock t) = (s.clock t).sendChallenge h false) (haddr : s.headAddr h = some ip)
    (hlink : s.on (HP.STAT_LINK h) = true) (hip : s.get (HP.IPV4_ADDR h) ≠ 0) (hrng : s.rngOk = true) (hh : h.val < s.heads.length)
    (hP : ∀ u, ChalSent (s.clock t) h ip u → P u) : Completes c s P := by
  have hsent : (s.clock t).sendChallenge h false = _ := sendChallenge_sent (s := s.clock t) (ip := ip) haddr hlink hip hrng hh
  refine completes_ends hrun he (hf.trans hsent) ?_ fun u hu => hP u (chalSent_of_ends (s := s.clock t) hh hu)
  rw [emit_safety, (chalShown_onlyRegs _ h).safety]
  exact hrun.2.1

/-- The attempt of `a` is over with no answer to it being checked. -/
theorem challengeTimeout_meaning {h : Fin 8} {a : Nat} (hsent : (s.hd h).sentAt = some a) (hcheck : (s.hd h).checking = false)
    (hover : a + 100 * tickMs ≤ s.mono) :
    (match (s.hd h).sentAt with
      | none => s
      | some a => s.when (decide (a + 100 * tickMs ≤ s.mono) && !(s.hd h).checking) fun s =>
          if (s.hd h).tries < 3 then s.setHd h (fun x => { x with sentAt := none, retryAt := some (a + tickS), segs := [] })
          else s.idOutcome h idFailed) =
      if (s.hd h).tries < 3 then s.setHd h (fun x => { x with sentAt := none, retryAt := some (a + tickS), segs := [] })
      else s.idOutcome h idFailed := by
  rw [hsent]
  exact when_true (by rw [decide_eq_true hover, hcheck]; rfl)

/-- An answer is outstanding. -/
def attemptLive (s : State) (h : Nat) : Bool :=
  match (s.hd h).sentAt with
  | none => false
  | some a => decide (s.mono < a + 100 * tickMs)

theorem attemptLive_of {h a : Nat} (hsent : (s.hd h).sentAt = some a) (hlive : s.mono < a + 100 * tickMs) : attemptLive s h = true := by
  rw [attemptLive, hsent]
  exact decide_eq_true hlive

/-- Settles O19: a challenge that is sent notes what it drew and shows the head as challenged; its timeout and its answer change the head alone. -/
theorem challenges : Obligations.Challenges := by
  unfold Obligations.Challenges
  refine ⟨?_, ?_, ?_⟩
  · intro s t h ip hrun x seq port nonce sent haddr hlink hip hrng hh
    have hx : x = s.clock t := hrun.2.2
    have hsent {u : State} (hu : ChalSent (s.clock t) h ip u) : sent u := by
      obtain ⟨hout, hfree, hmem, hregs, -, -⟩ := hu
      dsimp only [sent, nonce]
      rw [hx]
      exact ⟨hout, hfree, memKept_trans (clock_onlyMem s t) hmem, hregs⟩
    refine ⟨fun hdue => ?_, fun a htrusted hperiod hlast hover hnone hcheck => ?_⟩
    · refine challenge_completes hrun (rfl : _ = execChallengeSend t h s) (challengeSend_meaning (s := s.clock t) hdue) haddr hlink hip hrng hh
        fun u hu => ⟨hsent hu, ?_⟩
      obtain ⟨-, -, -, -, hhd, hstate⟩ := hu
      rw [hhd]
      dsimp only [nonce]
      rw [hx]
      exact ⟨rfl, rfl, rfl, rfl, fun hno => hstate.trans (if_neg hno)⟩
    · rw [hx] at hover
      refine challenge_completes hrun (rfl : _ = execRechallengePeriod t h s)
        (rechallenge_meaning (s := s.clock t) htrusted hperiod hlast hover hnone hcheck) haddr hlink hip hrng hh fun u hu => ⟨hsent hu, ?_⟩
      obtain ⟨-, -, -, -, hhd, hstate⟩ := hu
      rw [hhd]
      exact ⟨rfl, hstate.trans (if_pos htrusted)⟩
  · intro s t a h hrun hsent hcheck hover
    have hmeaning := challengeTimeout_meaning (s := s.clock t) hsent hcheck hover
    refine ⟨fun htries => ?_, fun htries => ?_⟩
    · refine completes_ends hrun (rfl : _ = execChallengeTimeout t h s) (hmeaning.trans (if_pos htries)) hrun.2.1 fun u hu =>
        ⟨hu.regs, hu.outbox, hu.memKept ?_, hu.heads⟩
      exact memKept_of rfl rfl rfl rfl rfl rfl rfl rfl
    · rw [hrun.2.2]
      exact exec_run_clock hrun (rfl : _ = execChallengeTimeout t h s) (hmeaning.trans (if_neg (Nat.not_lt.2 htries)))
  · intro s t a h d hrun hlink hdst htaken hsent hlive hcheck hlo hhi hkind hidx hseq
    refine completes_ends hrun (rfl : _ = execAnswerSegmentRx t h d s) (when_true (?_ : _ = true)) hrun.2.1 fun u hu =>
      ⟨hu.regs, hu.outbox, hu.memKept ?_, hu.heads⟩
    · show (s.on (HP.STAT_LINK h) && d.dstUdp = s.get (HP.UDP_CTL_PORT h) && attemptLive (s.clock t) h && !(s.hd h).checking &&
        frameTaken d false && decide (8 ≤ d.payload.length) && decide (d.payload.length ≤ 1400) && fieldB d.payload 0 1 = 2 &&
        decide (fieldB d.payload 1 1 < fieldB d.payload 2 1) && fieldB d.payload 4 4 = (s.hd h).seq) = true
      rw [hlink, decide_eq_true hdst, attemptLive_of (s := s.clock t) hsent hlive, hcheck, htaken, decide_eq_true hlo, decide_eq_true hhi,
        decide_eq_true hkind, decide_eq_true hidx, decide_eq_true hseq]
      rfl
    · exact memKept_of rfl rfl rfl rfl rfl rfl rfl rfl

/-! ### The outcome of a challenge -/

theorem noWedge_congr (hdev : u.dev = s.dev) (hseen : u.safety.wedgeSeen = s.safety.wedgeSeen) : u.noWedge = s.noWedge := by
  rw [State.noWedge, State.noWedge, hdev, hseen]

theorem quarNow_of_wedge (h : s.noWedge = false) : s.quarNow = s := by rw [State.quarNow, h, if_neg Bool.false_ne_true]

theorem due_wedgeSeen (s : State) (cls cause : Nat) : (s.due cls cause).safety.wedgeSeen = s.safety.wedgeSeen := by
  rw [State.due]
  split <;> rfl

theorem report_wedgeSeen (s : State) (cls page event parts admNo : Nat) (inj : Bool) :
    (s.report cls page event parts admNo inj).safety.wedgeSeen = s.safety.wedgeSeen := by
  unfold State.report
  split
  · rfl
  · dsimp only
    rw [due_wedgeSeen, State.pgFault, (OnlyRegs.addCnt (.set1 (.putMax (.set1If (.putMax (.refl _) _ _) _ _) _ _) _) _ _).safety]
    rfl

theorem raise_wedgeSeen (s : State) (f : Fld) (cls : Nat) : (s.raise f cls).safety.wedgeSeen = s.safety.wedgeSeen := by
  rw [State.raise, report_wedgeSeen, set1_safety]

/-- A head's challenge ended. -/
def attemptEnded (x : HeadSt) : HeadSt := { x with sentAt := none, retryAt := none, checking := false, segs := [] }

/-- The outcome `o` reported, a head's challenge ended. -/
def outcomeTold (s : State) (h o : Nat) : State :=
  if o = idTrusted then
    if s.get (HP.STAT_ID_STATE h) = idTrusted then s.setHd h attemptEnded else (s.setHd h attemptEnded).raise (HP.EVT_ID_OK h) 0
  else (s.setHd h attemptEnded).raise (HP.EVT_ID_FAIL h) 0

theorem idReport_apart : ∀ h : Fin 8, ∀ f ∈ [HP.EVT_ID_OK h, HP.EVT_ID_FAIL h],
    f.addr ∉ reportRegs (f.addr / 4096) ∧ f.lo + f.w ≤ 32 ∧ f.w = 1 ∧ Leaves (HP.STAT_ID_STATE h) f ∧
      (∀ g ∈ [SYS.STATE_STATE, HP.STAT_ID_STATE h], g.addr ≠ f.addr ∧ g.addr ∉ reportRegs (f.addr / 4096)) ∧
      Leaves (HP.STAT_ID_STATE h) SYS.STATE_STATE := by decide

/-- What a report of an outcome keeps. -/
theorem raise_idEvent {h : Fin 8} {f : Fld} (hf : f ∈ [HP.EVT_ID_OK h, HP.EVT_ID_FAIL h]) (s : State) :
    (s.raise f 0).get (HP.STAT_ID_STATE h) = s.get (HP.STAT_ID_STATE h) ∧ (s.raise f 0).noWedge = s.noWedge ∧ (s.raise f 0).on f = true := by
  obtain ⟨hrep, hlo, hw, -, hother, -⟩ := idReport_apart h f hf
  have hget {g : Fld} (hg : g ∈ [SYS.STATE_STATE, HP.STAT_ID_STATE h]) : (s.raise f 0).get g = s.get g :=
    raise_get s 0 0 false f g (hother g hg).1 (hother g hg).2
  exact ⟨hget (by simp), noWedge_congr (hget (by simp)) (raise_wedgeSeen s f 0), raise_on_self 0 0 false hlo hw hrep⟩

theorem outcomeTold_keeps (s : State) (h : Fin 8) (o : Nat) :
    (outcomeTold s h o).get (HP.STAT_ID_STATE h) = s.get (HP.STAT_ID_STATE h) ∧ (outcomeTold s h o).noWedge = s.noWedge ∧
      (outcomeTold s h o).heads = (s.setHd h attemptEnded).heads := by
  have hok := raise_idEvent (h := h) (f := HP.EVT_ID_OK h) (by simp) (s.setHd h attemptEnded)
  have hfail := raise_idEvent (h := h) (f := HP.EVT_ID_FAIL h) (by simp) (s.setHd h attemptEnded)
  unfold outcomeTold
  split
  · split
    · exact ⟨rfl, rfl, rfl⟩
    · exact ⟨hok.1, hok.2.1, raise_heads _ _ _ _ _⟩
  · exact ⟨hfail.1, hfail.2.1, raise_heads _ _ _ _ _⟩

theorem outcomeTold_event (s : State) (h : Fin 8) (o : Nat) :
    (o = idTrusted → s.get (HP.STAT_ID_STATE h) ≠ idTrusted → (outcomeTold s h o).on (HP.EVT_ID_OK h) = true) ∧
      (o ≠ idTrusted → (outcomeTold s h o).on (HP.EVT_ID_FAIL h) = true) := by
  unfold outcomeTold
  refine ⟨fun ho hstate => ?_, fun ho => ?_⟩
  · rw [if_pos ho, if_neg hstate]
    exact (raise_idEvent (h := h) (by simp) _).2.2
  · rw [if_neg ho]
    exact (raise_idEvent (h := h) (by simp) _).2.2

/-- A TRUSTED head's outcome is pending. -/
def idPending (o : Nat) (x : HeadSt) : HeadSt := { x with idDue := some o }

/-- Another head's quarantine is pending. -/
def quarPending (o : Nat) (x : HeadSt) : HeadSt := { x with quarDue := some (o ≠ idTrusted) }

/-- While a wedge is being processed a TRUSTED head's outcome is pending, any other's is shown. -/
theorem idOutcome_of_wedge (h : Fin 8) (o : Nat) (hw : s.noWedge = false) : s.idOutcome h o =
    if s.get (HP.STAT_ID_STATE h) = idTrusted then (outcomeTold s h o).setHd h (idPending o)
    else ((outcomeTold s h o).put (HP.STAT_ID_STATE h) o).setHd h (quarPending o) := by
  obtain ⟨-, htold, -⟩ := outcomeTold_keeps s h o
  have hleaves : Leaves (HP.STAT_ID_STATE h) SYS.STATE_STATE := (idReport_apart h _ (List.mem_cons_self ..)).2.2.2.2.2
  have hpend : ((outcomeTold s h o).setHd h (idPending o)).quarNow = (outcomeTold s h o).setHd h (idPending o) :=
    quarNow_of_wedge (htold.trans hw)
  have hput : (((outcomeTold s h o).put (HP.STAT_ID_STATE h) o).setHd h (quarPending o)).quarNow =
      ((outcomeTold s h o).put (HP.STAT_ID_STATE h) o).setHd h (quarPending o) :=
    quarNow_of_wedge ((noWedge_congr (get_put_other _ hleaves o) rfl).trans (htold.trans hw))
  rw [← hpend, ← hput]
  rfl

/-- What an outcome does while a wedge is being processed. -/
def OutcomeNoted (s : State) (h : Fin 8) (o : Nat) : Prop :=
  (s.get (HP.STAT_ID_STATE h) ≠ idTrusted → (s.idOutcome h o).get (HP.STAT_ID_STATE h) = o ∧
    ((s.idOutcome h o).hd h).quarDue = some (decide (o ≠ idTrusted))) ∧
  (s.get (HP.STAT_ID_STATE h) = idTrusted → (s.idOutcome h o).get (HP.STAT_ID_STATE h) = idTrusted ∧
    ((s.idOutcome h o).hd h).idDue = some o) ∧
  ((s.idOutcome h o).hd h).sentAt = none ∧ ((s.idOutcome h o).hd h).checking = false ∧
  (o = idTrusted → s.get (HP.STAT_ID_STATE h) ≠ idTrusted → (s.idOutcome h o).on (HP.EVT_ID_OK h)) ∧
  (o ≠ idTrusted → (s.idOutcome h o).on (HP.EVT_ID_FAIL h))

theorem outcomeNoted {h : Fin 8} {o : Nat} (ho : o < 8) (hw : s.noWedge = false) (hh : h.val < s.heads.length) : OutcomeNoted s h o := by
  obtain ⟨hstate, -, hheads⟩ := outcomeTold_keeps s h o
  obtain ⟨hok, hfail⟩ := outcomeTold_event s h o
  have hlen : h.val < (outcomeTold s h o).heads.length := by rw [hheads, setHd_heads, List.length_modify]; exact hh
  have hended : (outcomeTold s h o).hd h = attemptEnded (s.hd h) := (hd_congr hheads h).trans (hd_setHd_self _ hh)
  by_cases hwas : s.get (HP.STAT_ID_STATE h) = idTrusted
  · have hto : s.idOutcome h o = (outcomeTold s h o).setHd h (idPending o) := (idOutcome_of_wedge h o hw).trans (if_pos hwas)
    have hhd : (s.idOutcome h o).hd h = idPending o (attemptEnded (s.hd h)) := by rw [hto, hd_setHd_self _ hlen, hended]
    unfold OutcomeNoted
    rw [hhd, hto]
    exact ⟨fun hno => absurd hwas hno, fun _ => ⟨hstate.trans hwas, rfl⟩, rfl, rfl, hok, hfail⟩
  · have hto : s.idOutcome h o = ((outcomeTold s h o).put (HP.STAT_ID_STATE h) o).setHd h (quarPending o) :=
      (idOutcome_of_wedge h o hw).trans (if_neg hwas)
    have hhd : (s.idOutcome h o).hd h = quarPending o (attemptEnded (s.hd h)) := by
      rw [hto, hd_setHd_self _ (by rw [put_heads]; exact hlen), hd_congr (put_heads _ _ _), hended]
    have hevt {f : Fld} (hf : f ∈ [HP.EVT_ID_OK h, HP.EVT_ID_FAIL h]) :
        ((outcomeTold s h o).put (HP.STAT_ID_STATE h) o).on f = (outcomeTold s h o).on f :=
      on_put_other _ (idReport_apart h f hf).2.2.2.1 o
    unfold OutcomeNoted
    rw [hhd, hto]
    have hshown : ((outcomeTold s h o).put (HP.STAT_ID_STATE h) o).get (HP.STAT_ID_STATE h) = o :=
      get_put_of_lt (show 4 + 3 ≤ 32 by decide) ho
    refine ⟨fun _ => ⟨hshown, rfl⟩, fun hyes => absurd hyes hwas, rfl, rfl, fun h1 h2 => ?_, fun h1 => ?_⟩
    · exact (hevt (by simp)).trans (hok h1 h2)
    · exact (hevt (by simp)).trans (hfail h1)

/-! ### The answer checked -/

/-- The answer passes what R90 asks of it. -/
def answerOk (s : State) (h : Nat) (sigOk : Bool) : Bool :=
  (s.hd h).body.length = 7948 && fieldB (s.hd h).body 0 2 = 1 && sliceB (s.hd h).body 60 32 = (s.hd h).nonce && sigOk &&
    decide (s.get (HP.LIFE_HRS h) ≤ fieldB (s.hd h).body 56 4)

/-- The hours of an answer recorded, with the head's wear reported where it is reached. -/
def hoursNoted (s : State) (h rated hrs : Nat) (worn ended : Bool) : State :=
  let s := (s.put (HP.LIFE_RATED h) rated).put (HP.LIFE_HRS h) hrs
  let s := if worn && !s.on (HP.STAT_WORN h) then s.raise (HP.EVT_HEAD_WORN h) 0 else s
  let s := if ended && !s.on (HP.STAT_LIFE_END h) then s.raise (HP.EVT_HEAD_LIFE_END h) 0 else s
  (s.put (HP.STAT_WORN h) (b2n worn)).put (HP.STAT_LIFE_END h) (b2n ended)

/-- The key's digest is the enrolled one. -/
def keyEnrolled (s : State) (h : Nat) (digest : Bytes) : Bool :=
  s.on (HP.ID_CTRL_ENROL_VALID h) && (List.range 8).flatMap (fun j => leBytes 4 (s.get (HP.ENROL h j))) = digest

/-- What HEAD_CHECK_DONE does to an answer that is to be checked. -/
def answerChecked (s : State) (h : Nat) (sigOk : Bool) (digest : Bytes) : State :=
  if !answerOk s h sigOk then s.idOutcome h idFailed
  else
    let rated := fieldB (s.hd h).body 52 4
    let hrs := fieldB (s.hd h).body 56 4
    let y := hoursNoted s h rated hrs (decide (rated * 9 ≤ hrs * 10)) (decide (rated ≤ hrs))
    y.idOutcome h (if keyEnrolled y h digest then idTrusted else idUnenrolled)

theorem exec_headCheckDone (s : State) (t : Nat) (h : Fin 8) (sigOk : Bool) (digest : Bytes) : exec (.headCheckDone t h sigOk digest) s =
    run t (fun s => s.when ((s.hd h).checking && digest = sha256 (sliceB (s.hd h).body 4 32)) fun s => answerChecked s h sigOk digest) s := rfl

theorem hoursNoted_fresh (s : State) (h rated hrs : Nat) : hoursNoted s h rated hrs false false =
    (((s.put (HP.LIFE_RATED h) rated).put (HP.LIFE_HRS h) hrs).put (HP.STAT_WORN h) 0).put (HP.STAT_LIFE_END h) 0 := rfl

theorem leaves_hours : ∀ h : Fin 8, ∀ f ∈ [HP.LIFE_RATED h, HP.LIFE_HRS h, HP.STAT_WORN h, HP.STAT_LIFE_END h],
    Leaves f (HP.ID_CTRL_ENROL_VALID h) ∧ ∀ j ∈ List.range 8, Leaves f (HP.ENROL h j) := by decide

theorem keyEnrolled_hoursNoted (s : State) (h : Fin 8) (rated hrs : Nat) (digest : Bytes) :
    keyEnrolled (hoursNoted s h rated hrs false false) h digest = keyEnrolled s h digest := by
  have hget {g : Fld} (hg : ∀ f ∈ [HP.LIFE_RATED h, HP.LIFE_HRS h, HP.STAT_WORN h, HP.STAT_LIFE_END h], Leaves f g) :
      (hoursNoted s h rated hrs false false).get g = s.get g := by
    rw [hoursNoted_fresh, get_put_other _ (hg _ (by simp)), get_put_other _ (hg _ (by simp)), get_put_other _ (hg _ (by simp)),
      get_put_other _ (hg _ (by simp))]
  have hkey : (List.range 8).flatMap (fun j => leBytes 4 ((hoursNoted s h rated hrs false false).get (HP.ENROL h j))) =
      (List.range 8).flatMap (fun j => leBytes 4 (s.get (HP.ENROL h j))) := by
    have henrol : ∀ j ∈ List.range 8, (hoursNoted s h rated hrs false false).get (HP.ENROL h j) = s.get (HP.ENROL h j) :=
      fun j hj => hget fun f hf => (leaves_hours h f hf).2 j hj
    rw [List.flatMap_def, List.flatMap_def, List.map_congr_left fun j hj => congrArg (leBytes 4) (henrol j hj)]
  rw [keyEnrolled, on_of_get (hget (g := HP.ID_CTRL_ENROL_VALID h) fun f hf => (leaves_hours h f hf).1), hkey, keyEnrolled]

theorem answerOk_iff (s : State) (h : Nat) (sigOk : Bool) : answerOk s h sigOk = true ↔ (s.hd h).body.length = 7948 ∧
    fieldB (s.hd h).body 0 2 = 1 ∧ sliceB (s.hd h).body 60 32 = (s.hd h).nonce ∧ sigOk = true ∧
      s.get (HP.LIFE_HRS h) ≤ fieldB (s.hd h).body 56 4 := by
  rw [answerOk]
  simp only [Bool.and_eq_true, decide_eq_true_eq, and_assoc]

theorem answerChecked_failed {h : Nat} {sigOk : Bool} (digest : Bytes) (hok : ¬ answerOk s h sigOk = true) :
    answerChecked s h sigOk digest = s.idOutcome h idFailed := by
  rw [answerChecked, Bool.eq_false_of_not_eq_true hok]
  rfl

theorem answerChecked_fresh {h : Fin 8} {sigOk : Bool} (digest : Bytes) (hok : answerOk s h sigOk = true)
    (hfresh : fieldB (s.hd h).body 52 4 * 9 > fieldB (s.hd h).body 56 4 * 10) : answerChecked s h sigOk digest =
      (hoursNoted s h (fieldB (s.hd h).body 52 4) (fieldB (s.hd h).body 56 4) false false).idOutcome h
        (if keyEnrolled s h digest = true then idTrusted else idUnenrolled) := by
  have hworn : decide (fieldB (s.hd h).body 52 4 * 9 ≤ fieldB (s.hd h).body 56 4 * 10) = false := decide_eq_false (by omega)
  have hended : decide (fieldB (s.hd h).body 52 4 ≤ fieldB (s.hd h).body 56 4) = false := decide_eq_false (by omega)
  rw [answerChecked, hok, Bool.not_true, if_neg Bool.false_ne_true]
  dsimp only
  rw [hworn, hended, keyEnrolled_hoursNoted]

theorem keyEnrolled_iff (s : State) (h : Nat) (digest : Bytes) : keyEnrolled s h digest = true ↔
    s.on (HP.ID_CTRL_ENROL_VALID h) = true ∧ (List.range 8).flatMap (fun j => leBytes 4 (s.get (HP.ENROL h j))) = digest := by
  rw [keyEnrolled, Bool.and_eq_true, decide_eq_true_iff]

/-! ### The intensity drift -/

/-- The sums of the revolution taken. -/
def sumsTaken (x : HeadSt) : HeadSt := { x with intSum := 0, intN := 0 }

/-- The drift filter with `ratio` entered, in units of 2^-16 of the register's last place (assumption 46). -/
def driftEntered (ratio : Nat) : Option Nat → Nat
  | none => ratio
  | some f => ((f : Int) + ((ratio : Int) - f) / 256).toNat

/-- The filter's state and the register after `f`. -/
def driftShown (s : State) (h f : Nat) : State :=
  ((s.setHd h sumsTaken).setHd h fun x => { x with intFilt := some f }).put (HP.INT_DRIFT_RATIO h) (satU 16 (f / 2 ^ 16))

/-- Whether a filtered value is off the reference by more than `lim` percent. -/
def driftOff (lim v : Nat) : Bool := decide (lim * 2 ^ 24 < ((v : Int) - 2 ^ 24).natAbs * 100)

/-- Whether the filter was off before. -/
def driftWas (lim : Nat) : Option Nat → Bool
  | none => false
  | some f => driftOff lim f

/-- The filter's new value from the sums of a revolution. -/
def driftNew (s : State) (h : Nat) : Nat :=
  driftEntered ((s.hd h).intSum * 2 ^ 32 / ((s.hd h).intN * s.get (HP.INT_REF_MEAN h))) (s.hd h).intFilt

/-- The revolution's mean filtered, with the event where the drift passes its limit. -/
def driftFiltered (s : State) (h : Nat) : State :=
  if driftOff (s.get (HP.LIFE_CFG_DRIFT_LIM h)) (driftNew s h) && !driftWas (s.get (HP.LIFE_CFG_DRIFT_LIM h)) (s.hd h).intFilt then
    (driftShown s h (driftNew s h)).raise (HP.EVT_INT_DRIFT h) 0
  else driftShown s h (driftNew s h)

theorem intDrift_meaning (s : State) (t : Nat) (h : Fin 8) : exec (.intDrift t h) s = run t (fun s =>
    if s.get (HP.INT_REF_MEAN h) ≠ 0 && (s.setHd h sumsTaken).hasTwilight h && (s.hd h).intN ≠ 0 then driftFiltered s h
    else s.setHd h sumsTaken) s := by
  refine (rfl : _ = execIntDrift t h s).trans (congrArg (run t · s) (funext fun s => ?_))
  by_cases hc : (s.get (HP.INT_REF_MEAN h) ≠ 0 && (s.setHd h sumsTaken).hasTwilight h && (s.hd h).intN ≠ 0) = true
  · refine (when_true hc).trans (Eq.trans ?_ (if_pos hc).symm)
    unfold driftFiltered driftNew
    cases (s.hd h).intFilt <;> rfl
  · exact (when_false (Bool.eq_false_of_not_eq_true hc)).trans (if_neg hc).symm

theorem drift_apart : ∀ h : Fin 8, (HP.INT_DRIFT_RATIO h).addr ≠ (HP.EVT_INT_DRIFT h).addr ∧
    (HP.INT_DRIFT_RATIO h).addr ∉ reportRegs ((HP.EVT_INT_DRIFT h).addr / 4096) := by decide

theorem driftFiltered_cases (s : State) (h : Nat) :
    (driftFiltered s h = driftShown s h (driftNew s h) ∨ driftFiltered s h = (driftShown s h (driftNew s h)).raise (HP.EVT_INT_DRIFT h) 0) := by
  unfold driftFiltered
  split
  · exact .inr rfl
  · exact .inl rfl

/-- What the filter does to the head and its register. -/
def Drifted (s : State) (h : Nat) (u : State) : Prop :=
  u.get (HP.INT_DRIFT_RATIO h) = satU 16 (driftNew s h / 2 ^ 16) ∧ u.outbox = s.outbox ∧ MemKept s u ∧
    u.heads = s.heads.modify h (fun y => { y with intSum := 0, intN := 0, intFilt := some (driftNew s h) }) ∧ u.safety.act = s.safety.act

theorem driftShown_drifted (s : State) (h : Nat) : Drifted s h (driftShown s h (driftNew s h)) := by
  refine ⟨get_put_of_lt (show 0 + 16 ≤ 32 by decide) (satU_lt _ _), rfl, memKept_of rfl rfl rfl rfl rfl rfl rfl rfl, ?_, rfl⟩
  rw [driftShown, put_heads, setHd_heads, setHd_heads, List.modify_modify_eq]
  rfl

theorem driftFiltered_drifted (s : State) (h : Fin 8) : Drifted s h (driftFiltered s h) := by
  obtain ⟨hreg, hout, hmem, hheads, hact⟩ := driftShown_drifted s h
  obtain ⟨hne, hrep⟩ := drift_apart h
  rcases driftFiltered_cases s h with hz | hz
  · rw [hz]
    exact ⟨hreg, hout, hmem, hheads, hact⟩
  · rw [hz]
    exact ⟨(raise_get _ _ _ _ _ _ hne hrep).trans hreg, (raise_outbox _ _ _ _ _).trans hout,
      memKept_trans hmem (OnlyRegsSafety.memKept (raise_only _ _ _ _ _)), (raise_heads _ _ _ _ _).trans hheads,
      (raise_act_low _ _ _ _ _ (by decide)).trans hact⟩

/-- Settles O20: the answer's check, the outcome with a wedge being processed, and the filter, whose sixteen further bits are the model's choice
(assumption 46). -/
theorem headIdentity : Obligations.HeadIdentity := by
  unfold Obligations.HeadIdentity
  refine ⟨?_, fun s h o ho hw hh => outcomeNoted ho hw hh, ?_⟩
  · intro s t h sigOk hrun hcheck x b ok c
    have hx : x = s.clock t := hrun.2.2
    have hexec : exec c s = .next (x.finish (answerChecked x h sigOk (sha256 (sliceB b 4 32)))) := by
      refine exec_run_eq hrun.1 (exec_headCheckDone s t h sigOk _) ?_
      rw [hrun.2.2, hx]
      refine when_true ?_
      have hb : ((s.clock t).hd h).body = b := rfl
      have hc : ((s.clock t).hd h).checking = true := hcheck
      rw [hb, hc, decide_eq_true rfl]
      rfl
    have hok : answerOk x h sigOk = true ↔ ok := by rw [hx]; exact answerOk_iff (s.clock t) h sigOk
    refine ⟨fun hbad => ?_, fun hgood hfresh => ?_⟩
    · rw [hexec, answerChecked_failed _ fun h => hbad (hok.1 h)]
    · have hbody : (x.hd h).body = b := by rw [hx]; rfl
      rw [hexec, answerChecked_fresh _ (hok.2 hgood) (by rw [hbody]; exact hfresh), hbody]
      rw [← hoursNoted_fresh]
      have hkey : keyEnrolled x h (sha256 (sliceB b 4 32)) = true ↔ s.on (HP.ID_CTRL_ENROL_VALID h) = true ∧
          (List.range 8).flatMap (fun j => leBytes 4 (s.get (HP.ENROL h j))) = sha256 (sliceB b 4 32) := by
        rw [hx]
        exact keyEnrolled_iff s h (sha256 (sliceB b 4 32))
      rw [if_congr hkey rfl rfl]
  · intro s t h hrun
    refine ⟨fun hmean => ?_, fun htwi hmean hn => ?_⟩
    · refine completes_ends hrun (intDrift_meaning s t h) (if_neg ?_) hrun.2.1 fun u hu => ⟨hu.regs, hu.outbox, hu.memKept ?_, hu.heads⟩
      · have : (s.clock t).get (HP.INT_REF_MEAN h) = 0 := hmean
        rw [this, decide_eq_false (by decide), Bool.false_and, Bool.false_and]
        decide
      · exact memKept_of rfl rfl rfl rfl rfl rfl rfl rfl
    · intro ratio f
      have hf : driftNew (s.clock t) h = f := by
        show driftEntered ratio (s.hd h).intFilt = f
        dsimp only [f]
        cases (s.hd h).intFilt <;> rfl
      obtain ⟨hreg, hout, hmem, hheads, hact⟩ := driftFiltered_drifted (s.clock t) h
      rw [hf] at hreg hheads
      refine completes_ends hrun (intDrift_meaning s t h) (if_pos ?_) (hact.trans hrun.2.1) fun u hu =>
        ⟨(hu.get _).trans hreg, hu.outbox.trans hout, hu.memKept (memKept_trans (clock_onlyMem s t) hmem), hu.heads.trans hheads⟩
      show (decide (s.get (HP.INT_REF_MEAN h) ≠ 0) && s.hasTwilight h && decide ((s.hd h).intN ≠ 0)) = true
      rw [decide_eq_true hmean, htwi, decide_eq_true hn]
      rfl

end Sys2Proof.Proofs
end

section
/-! PROOFS. Host links, address resolution and the answers of a port (R58, R76, R296, R297, R306), host poses and the inertial unit. -/

namespace Sys2Proof.Proofs

open Sys2Proof.Machine Sys2Proof.Laws

variable {s u v : State}

/-! ### A frame that a host port receives and one that it sends, without MACsec -/

theorem leaves_rxCnt : ∀ p : Fin 2, ∀ g ∈ [HS.STAT_PROTECT p, HS.CTRL_VLAN_EN p, HS.VLAN_PCP p, HS.VLAN_VID p, HS.IPV4_ADDR p, OUT.DST_ADDR p,
    ING.POSE_UDP_PORT 0, ING.CTRL_POSE_SRC 0, SYS.STATE_STATE], Leaves (HS.RX_CNT p) g := by decide

theorem rxCnt_get {p : Fin 2} {g : Fld} (hg : g ∈ [HS.STAT_PROTECT p, HS.CTRL_VLAN_EN p, HS.VLAN_PCP p, HS.VLAN_VID p, HS.IPV4_ADDR p,
    OUT.DST_ADDR p, ING.POSE_UDP_PORT 0, ING.CTRL_POSE_SRC 0, SYS.STATE_STATE]) (s : State) : (s.bump (HS.RX_CNT p)).get g = s.get g :=
  get_bump_other _ (leaves_rxCnt p g hg)

theorem hostRx_plain {p : Fin 2} {sec : SecInfo} (f : State → State) (hlink : s.on (HS.STAT_LINK p) = true) (hsec : s.secOn p = false)
    (hplain : sec.protected_ = false) : s.hostRx p sec f = f (s.bump (HS.RX_CNT p)) := by
  have hsec' : (s.bump (HS.RX_CNT p)).secOn p = false := (on_of_get (rxCnt_get (by simp) s)).trans hsec
  unfold State.hostRx
  rw [hlink]
  dsimp only
  rw [hsec', hplain]
  rfl

/-- A port busy with a frame of `n` bytes. -/
def portBusy (s : State) (p n : Nat) (x : HostPort) : HostPort := { x with busyUntil := max x.busyUntil s.mono + s.wireTicks p n }

theorem hostTx_plain {p : Fin 2} (n : Nat) (f : Wrap → Emit) (hsec : s.secOn p = false) :
    s.hostTx p false n f = (s.setHost p (portBusy s p n)).emit (f { vlan := s.vlanTag p }) := by
  have hspent : s.txSpent p = false := by rw [State.txSpent, hsec, Bool.false_and]
  have hspent' : ((s.setHost p (portBusy s p n)).emit (f { vlan := s.vlanTag p })).txSpent p = false := by
    have : ((s.setHost p (portBusy s p n)).emit (f { vlan := s.vlanTag p })).secOn p = false := hsec
    rw [State.txSpent, this, Bool.false_and]
  have htake : s.takePn p = (none, s) := by
    rw [State.takePn, hsec]
    rfl
  unfold State.hostTx
  rw [hspent, Bool.and_false, if_neg Bool.false_ne_true, htake]
  exact if_neg fun h => Bool.false_ne_true (hspent'.symm.trans h)

theorem vlanTag_rxCnt (s : State) (p : Fin 2) : (s.bump (HS.RX_CNT p)).vlanTag p = s.vlanTag p := by
  rw [State.vlanTag, on_of_get (rxCnt_get (by simp) s), rxCnt_get (by simp) s, rxCnt_get (by simp) s, State.vlanTag]

theorem secOn_rxCnt (s : State) (p : Fin 2) : (s.bump (HS.RX_CNT p)).secOn p = s.secOn p := on_of_get (rxCnt_get (by simp) s)

theorem host_setHost_self {p : Nat} (f : HostPort → HostPort) (hp : p < s.hosts.length) : (s.setHost p f).host p = f (s.host p) := by
  rw [State.host, setHost_hosts, getD_modify_self _ _ _ _ hp, State.host]

theorem memKept_sent (s : State) (p : Nat) (f : HostPort → HostPort) (e : Emit) : MemKept s ((s.setHost p f).emit e) :=
  memKept_of rfl rfl rfl rfl rfl rfl rfl rfl

/-- What the end of a command leaves of a frame that answers one received on a host port. -/
theorem hostAnswer_ends {p : Fin 2} {n : Nat} {e : Emit}
    (he : Ends (((s.bump (HS.RX_CNT p)).setHost p (portBusy (s.bump (HS.RX_CNT p)) p n)).emit e) u) :
    u.outbox = s.outbox ++ [e] ∧ u.get (HS.RX_CNT p) = satU 32 (s.get (HS.RX_CNT p) + 1) ∧ RegsBut [(HS.RX_CNT p).addr] s u ∧ MemKept s u := by
  have honly : OnlyRegs s (s.bump (HS.RX_CNT p)) := .bump (.refl s) _
  refine ⟨he.outbox.trans ?_, (he.get _).trans ?_, he.regsBut ?_, he.memKept (memKept_trans honly.memKept (memKept_sent _ p _ e))⟩
  · rw [emit_outbox, setHost_outbox, honly.outbox]
  · rw [emit_get, setHost_get]
    exact get_bump_self s (HS.RX_CNT p) (show 0 + 32 ≤ 32 by decide)
  · intro a ha
    rw [emit_reg, setHost_reg]
    exact regsBut_bump (List.mem_singleton_self _) (regsBut_refl _ s) a ha

/-- A frame received on a host port and answered with `e`, sent as `n` bytes. -/
theorem hostAnswer_completes {t : Nat} {p : Fin 2} {sec : SecInfo} {c : Instr} {g : State → Bool} {n : Nat} {e : State → Wrap → Emit}
    {P : State → Prop} (hrun : s.Running t)
    (he : exec c s = run t (fun s => s.hostRx p sec (fun s => s.when (g s) (fun s => s.hostTx p false n (e s)))) s)
    (hlink : s.on (HS.STAT_LINK p) = true) (hsec : s.secOn p = false) (hplain : sec.protected_ = false)
    (hg : g ((s.clock t).bump (HS.RX_CNT p)) = true)
    (hP : ∀ u, u.outbox = s.outbox ++ [e ((s.clock t).bump (HS.RX_CNT p)) { vlan := s.vlanTag p }] ∧
      u.get (HS.RX_CNT p) = satU 32 (s.get (HS.RX_CNT p) + 1) ∧ RegsBut [(HS.RX_CNT p).addr] s u ∧ MemKept s u → P u) : Completes c s P := by
  refine completes_ends hrun he ((hostRx_plain (s := s.clock t) _ hlink hsec hplain).trans ((when_true hg).trans
    (hostTx_plain n _ ((secOn_rxCnt _ p).trans hsec)))) ?_ fun u hu => hP u ?_
  · rw [emit_safety, setHost_safety, (OnlyRegs.bump (.refl (s.clock t)) (HS.RX_CNT p)).safety]
    exact hrun.2.1
  · rw [vlanTag_rxCnt] at hu
    obtain ⟨hout, hcnt, hregs, hmem⟩ := hostAnswer_ends hu
    exact ⟨hout, hcnt, hregs, memKept_trans (clock_onlyMem s t) hmem⟩

/-- A request repeated (R296). -/
theorem arpAsk_plain {p : Fin 2} (hsec : s.secOn p = false) : s.arpAsk p =
    (((s.setHost p (fun x => { x with arpAt := s.mono })).setHost p (portBusy s p arpLen)).emit
      (.arpReq (.host p) (s.get (OUT.DST_ADDR p)) { vlan := s.vlanTag p })) :=
  hostTx_plain (s := s.setHost p (fun x => { x with arpAt := s.mono })) arpLen _ hsec

/-- A guard of two conditions and a third that is decided. -/
theorem guard_true {a b : Bool} {q : Prop} [Decidable q] (ha : a = true) (hb : b = true) (hq : q) : (a && b && decide q) = true := by
  rw [ha, hb, decide_eq_true hq]
  rfl

/-- Settles O21: each command of the port with its guard met. -/
theorem hostLinkAndArp : Obligations.HostLinkAndArp := by
  unfold Obligations.HostLinkAndArp
  refine ⟨?_, ?_⟩
  · intro s t p hrun x k
    have hx : x = s.clock t := hrun.2.2
    refine ⟨fun hen hlink hoff => ?_, fun hlink => ?_, fun hask hlink hat => ⟨?_, fun hsec => ?_⟩, fun harp hask hat => ?_, fun harp hask hat => ?_,
      fun a sec hlink hsec hplain hask hip htarget => ?_⟩
    · refine exec_run_eq hrun.1 (rfl : _ = execHostLinkUp t p s) (when_true ?_)
      rw [hrun.2.2]
      show (s.on (HS.CTRL_EN p) && !s.on (HS.STAT_LINK p) && !(s.host p).off) = true
      rw [hen, hlink, show (s.host p).off = false from hoff]
      rfl
    · refine exec_run_eq hrun.1 (rfl : _ = execHostLinkDown t p s) ?_
      have hlink' : (s.at_ t).on (HS.STAT_LINK p) = true := by rw [hrun.2.2]; exact hlink
      rw [State.hostDown, hlink', Bool.not_true, if_neg Bool.false_ne_true]
    · refine exec_run_eq hrun.1 (rfl : _ = execArpRetry t p s) (when_true ?_)
      rw [hx] at hat
      rw [hrun.2.2]
      exact guard_true hask hlink hat
    · rw [hx] at hat ⊢
      refine completes_ends hrun (rfl : _ = execArpRetry t p s) ((when_true ?_).trans (arpAsk_plain (s := s.clock t) hsec)) hrun.2.1 fun u hu => ?_
      · exact guard_true hask hlink hat
      · refine ⟨hu.regs, hu.memKept (memKept_of rfl rfl rfl rfl rfl rfl rfl rfl), hu.outbox, fun hp => ?_⟩
        rw [host_congr hu.hosts, host_congr (emit_hosts _ _), host_setHost_self _ (by rw [setHost_hosts, List.length_modify]; exact hp),
          host_setHost_self (s := s.clock t) _ hp]
        exact ⟨rfl, rfl⟩
    · refine exec_run_eq hrun.1 (rfl : _ = execArpRefresh t p s) (when_true ?_)
      rw [hx] at hat
      rw [hrun.2.2]
      exact guard_true harp (congrArg Bool.not hask) hat
    · refine exec_run_eq hrun.1 (rfl : _ = execArpRefreshTimeout t p s) (when_true ?_)
      rw [hx] at hat
      rw [hrun.2.2]
      exact guard_true harp hask hat
    · refine exec_run_eq hrun.1 (rfl : _ = execArpReplyRx t p a sec s) ((hostRx_plain _ ?_ ?_ hplain).trans (when_true ?_))
      · rw [hrun.2.2]; exact hlink
      · rw [hrun.2.2]; exact hsec
      · have hhosts : (((s.at_ t).bump (HS.RX_CNT p)).host p).arpRun = true := by
          rw [host_congr (OnlyRegs.bump (.refl _) _).hosts, hrun.2.2]
          exact hask
        rw [hhosts, rxCnt_get (by simp), rxCnt_get (by simp), hrun.2.2, clock_get, clock_get, decide_eq_true hip, decide_eq_true htarget]
        rfl
  · intro s t a d sec hrun
    refine ⟨fun h hup => ⟨fun hip htarget => ?_, fun htarget => ?_⟩, fun p hlink hsec hplain => ?_⟩
    · refine completes_ends hrun (rfl : _ = execArpRequestRx t (.head h) a sec s) (when_true ?_) hrun.2.1 fun u hu =>
        ⟨hu.outbox, hu.regs, hu.memKept (memKept_of rfl rfl rfl rfl rfl rfl rfl rfl)⟩
      show (s.portUp (.head h) && decide (s.get (HP.IPV4_ADDR h) ≠ 0) && decide (a.targetIp = s.get (HP.IPV4_ADDR h))) = true
      rw [hup, decide_eq_true hip, decide_eq_true htarget]
      rfl
    · refine completes_ends hrun (rfl : _ = execArpRequestRx t (.head h) a sec s) (when_false ?_) hrun.2.1 fun u hu => ⟨hu.outbox, hu.regs⟩
      show (s.portUp (.head h) && decide (s.get (HP.IPV4_ADDR h) ≠ 0) && decide (a.targetIp = s.get (HP.IPV4_ADDR h))) = false
      rw [decide_eq_false htarget, Bool.and_false]
    · intro w
      refine ⟨fun hip htarget => ?_, fun hdst htaken => ?_⟩
      · refine hostAnswer_completes hrun (rfl : _ = execArpRequestRx t (.host p) a sec s) hlink hsec hplain ?_ fun u hu => ?_
        · rw [rxCnt_get (by simp), clock_get, decide_eq_true hip, decide_eq_true htarget]
          rfl
        · obtain ⟨hout, -, hregs, hmem⟩ := hu
          exact ⟨hout, hregs, hmem⟩
      · refine hostAnswer_completes hrun (rfl : _ = execIcmpEchoRx t p d sec s) hlink hsec hplain ?_ fun u hu => hu
        rw [rxCnt_get (by simp), clock_get, hplain, htaken, decide_eq_true hdst]
        rfl

/-! ### A point packet -/

theorem OnlyRegs.ing (h : OnlyRegs s u) : u.ing = s.ing := by rw [h]
theorem OnlyRegs.pose (h : OnlyRegs s u) : u.pose = s.pose := by rw [h]

theorem leaves_mapErr : ∀ h : Fin 8, Leaves (HP.RX_PKT h) (HP.STAT_MAP_ERR h) ∧ Leaves (HP.RX_PKT h) (HP.DROP_PARSE h) := by decide

theorem ingestPacket_mapErr {h : Fin 8} (herr : s.on (HP.STAT_MAP_ERR h) = true) (p : Bytes) (i j : Int) (a : Nat) :
    s.ingestPacket h p i j a = (s.bump (HP.RX_PKT h)).bump (HP.DROP_PARSE h) := by
  have herr' : (s.bump (HP.RX_PKT h)).on (HP.STAT_MAP_ERR h) = true := (on_bump_other s (leaves_mapErr h).1).trans herr
  rw [State.ingestPacket, herr', if_pos rfl]

/-- Settles O22: the packet's guard met, and a map that is in error. -/
theorem pointPacketIngested : Obligations.PointPacketIngested := by
  intro s t h d hrun hlink hdev htaken hdst x lat ing y
  refine ⟨?_, fun herr p i j a => ?_⟩
  · have hlat : (s.at_ t).get (TS.ING_LAT_LAT (portPage (.head h))) = lat := by rw [hrun.2.2]; rfl
    refine exec_run_eq hrun.1 (rfl : _ = execPointPacket t h d s) ((when_true ?_).trans ?_)
    · rw [hrun.2.2]
      show (s.on (HP.STAT_LINK h) && decide (s.dev ≠ dsHold) && frameTaken d false && decide (d.dstUdp = s.get (HP.UDP_PT_PORT h))) = true
      rw [hlink, decide_eq_true hdev, htaken, decide_eq_true hdst]
      rfl
    · dsimp only [y, ing]
      rw [← hlat]
      rfl
  · obtain ⟨-, hdrop⟩ := leaves_mapErr h
    rw [ingestPacket_mapErr herr]
    refine ⟨regsBut_bump (by simp) (regsBut_bump (by simp) (regsBut_refl _ s)), ?_, OnlyRegs.ing (.bump (.bump (.refl s) _) _)⟩
    rw [get_bump_self _ (HP.DROP_PARSE h) (show 0 + 32 ≤ 32 by decide), get_bump_other s hdrop]
    rfl

/-! ### Pose records -/

/-- A refused record on one engine's page. -/
def badStep (s : State) (order : Bool) (i : Nat) : State := (s.bump (ING.POSE_BAD_CNT i)).set1If (!order) (ING.EVT_POSE_BAD i)

theorem leaves_poseBad : ∀ u v : Fin 2, Leaves (ING.EVT_POSE_BAD u) (ING.POSE_BAD_CNT v) ∧ Leaves (ING.POSE_BAD_CNT u) (ING.EVT_POSE_BAD v) ∧
    (u ≠ v → Leaves (ING.POSE_BAD_CNT u) (ING.POSE_BAD_CNT v) ∧ Leaves (ING.EVT_POSE_BAD u) (ING.EVT_POSE_BAD v)) := by decide

theorem badStep_onlyRegs (s : State) (order : Bool) (i : Nat) : OnlyRegs s (badStep s order i) := .set1If (.bump (.refl s) _) _ _

theorem badStep_other (order : Bool) {i j : Fin 2} (hij : i ≠ j) : (badStep s order i).get (ING.POSE_BAD_CNT j) = s.get (ING.POSE_BAD_CNT j) ∧
    (badStep s order i).get (ING.EVT_POSE_BAD j) = s.get (ING.EVT_POSE_BAD j) := by
  obtain ⟨hec, hce, hne⟩ := leaves_poseBad i j
  obtain ⟨hcc, hee⟩ := hne hij
  exact ⟨by rw [badStep, get_set1If_other _ hec, get_bump_other _ hcc], by rw [badStep, get_set1If_other _ hee, get_bump_other _ hce]⟩

/-- What a refused record leaves on a page. -/
def BadShown (s u : State) (order : Bool) (i : Fin 2) : Prop :=
  u.get (ING.POSE_BAD_CNT i) = satU 32 (s.get (ING.POSE_BAD_CNT i) + 1) ∧ (order = false → u.on (ING.EVT_POSE_BAD i) = true) ∧
    (order = true → u.get (ING.EVT_POSE_BAD i) = s.get (ING.EVT_POSE_BAD i))

theorem badStep_same (s : State) (order : Bool) (i : Fin 2) : BadShown s (badStep s order i) order i := by
  obtain ⟨hec, hce, -⟩ := leaves_poseBad i i
  refine ⟨?_, fun h => ?_, fun h => ?_⟩
  · rw [badStep, get_set1If_other _ hec]
    exact get_bump_self s _ (show 0 + 32 ≤ 32 by decide)
  · rw [badStep, h]
    exact on_set1_self _ _ (show 2 + 1 ≤ 32 by decide) rfl
  · rw [badStep, h]
    exact get_bump_other s hce

/-- A refused record is counted on both pages, and an event of both unless its order alone is wrong. -/
theorem poseBad_shown (s : State) (order : Bool) (i : Fin 2) : BadShown s (s.poseBad order) order i := by
  have heq : s.poseBad order = badStep (badStep s order (0 : Fin 2)) order (1 : Fin 2) := rfl
  have hfirst := badStep_same s order 0
  have hsecond := badStep_same (badStep s order (0 : Fin 2)) order 1
  rw [heq]
  match i with
  | 0 =>
    obtain ⟨hcnt, hevt⟩ := badStep_other (s := badStep s order (0 : Fin 2)) order (show (1 : Fin 2) ≠ 0 by decide)
    unfold BadShown
    rw [hcnt, hevt, on_of_get hevt]
    exact hfirst
  | 1 =>
    obtain ⟨hcnt, hevt⟩ := badStep_other (s := s) order (show (0 : Fin 2) ≠ 1 by decide)
    unfold BadShown at hsecond ⊢
    rw [hcnt, hevt] at hsecond
    exact hsecond

theorem poseBad_onlyRegs (s : State) (order : Bool) : OnlyRegs s (s.poseBad order) :=
  (badStep_onlyRegs s order 0).trans (badStep_onlyRegs (badStep s order 0) order 1)

/-- A time that is not after the last sample. -/
def poseLate (s : State) (t : Int) : Bool :=
  match s.pose.poses.getLast? with
  | none => false
  | some p => decide (t ≤ p.t)

theorem poseSample_some (s : State) (t : Int) (r : PoseRec) (act : Nat) : s.poseSample (some t) r act =
    if !r.ok then s.poseBad false else if poseLate s t then s.poseBad true else s.acceptPose t r act := rfl

theorem poseLate_of {p : Pose} {t : Int} (hlast : s.pose.poses.getLast? = some p) (ht : t ≤ p.t) : poseLate s t = true := by
  rw [poseLate, hlast]
  exact decide_eq_true ht

theorem poseLate_of_after {t : Int} (h : ∀ p, s.pose.poses.getLast? = some p → p.t < t) : poseLate s t = false := by
  unfold poseLate
  cases hlast : s.pose.poses.getLast? with
  | none => rfl
  | some p => exact decide_eq_false (Int.not_le.2 (h p hlast))

/-- A record that is refused, for its time, for itself, or for its order alone. -/
theorem poseSample_refused {tm : Option Int} {r : PoseRec} (act : Nat)
    (h : tm = none ∨ r.ok = false ∨ ∃ p t, s.pose.poses.getLast? = some p ∧ tm = some t ∧ t ≤ p.t) :
    s.poseSample tm r act = s.poseBad (tm.isSome && r.ok) := by
  cases tm with
  | none => rfl
  | some t =>
    rw [poseSample_some]
    cases hok : r.ok with
    | false => rfl
    | true =>
      obtain ⟨p, t', hlast, ht, hle⟩ := (h.resolve_left nofun).resolve_left (by rw [hok]; decide)
      rw [Option.some.inj ht, poseLate_of hlast hle]
      rfl

/-- Settles O23: a record of the port handed over with its time, and the refused ones counted. -/
theorem hostPoses : Obligations.HostPoses := by
  refine ⟨?_, fun s tm r act h => ?_⟩
  · intro s t p d sec hrun hlink hsec hplain hdev htaken hdst hsrc x
    have hget {g : Fld} (hg : g ∈ [HS.STAT_PROTECT p, HS.CTRL_VLAN_EN p, HS.VLAN_PCP p, HS.VLAN_VID p, HS.IPV4_ADDR p, OUT.DST_ADDR p,
        ING.POSE_UDP_PORT 0, ING.CTRL_POSE_SRC 0, SYS.STATE_STATE]) : x.get g = s.get g := by
      rw [show x = (s.clock t).bump (HS.RX_CNT p) from congrArg (State.bump · (HS.RX_CNT p)) hrun.2.2, rxCnt_get hg, clock_get]
    have hsrc' : x.poseSrc = 0 := by
      rw [State.poseSrc, hget (by simp)]
      exact hsrc
    refine exec_run_eq hrun.1 (rfl : _ = execPoseFrame t p d sec s) ((hostRx_plain _ ?_ ?_ hplain).trans (when_true (s := x) ?_))
    · rw [hrun.2.2]; exact hlink
    · rw [hrun.2.2]; exact hsec
    · show (decide (x.dev ≠ dsHold) && frameTaken d sec.protected_ && decide (d.dstUdp = x.get (ING.POSE_UDP_PORT 0)) &&
        (decide (x.poseSrc = 0) || (decide (x.poseSrc = 2) && !x.pose.imuHealthy))) = true
      have hdev' : x.dev ≠ dsHold := by rw [State.dev, hget (by simp)]; exact hdev
      rw [hsrc', hget (by simp), hplain, htaken, decide_eq_true hdev', decide_eq_true hdst]
      rfl
  · have honly := poseBad_onlyRegs s (tm.isSome && r.ok)
    rw [poseSample_refused act h]
    refine ⟨OnlyRegs.pose honly, OnlyRegs.ing honly, fun i => ?_⟩
    obtain ⟨hcnt, hevt, hkeep⟩ := poseBad_shown s (tm.isSome && r.ok) i
    refine ⟨hcnt, fun hbad => hevt ?_, fun hsome hok => hkeep ?_⟩
    · rcases hbad with hnone | hok
      · rw [hnone]; rfl
      · rw [hok, Bool.and_false]
    · rw [hok, Bool.and_true]
      exact Option.isSome_iff_ne_none.2 hsome

/-! ### The inertial unit -/

/-- The unit lost on one engine's page. -/
def lostStep (s : State) (i : Nat) : State :=
  if s.get (ING.STAT_POSE_ACT i) = 2 then s.put (ING.STAT_POSE_ACT i) (if s.poseSrc = 2 then 1 else 0) else s

/-- The unit marked lost. -/
def lostMarked (s : State) : State := ({ s with pose := { s.pose with imuHealthy := false } } : State).set1 (ING.EVT_IMU_LOST 0)

theorem imuLost_eq (s : State) : s.imuLost = lostStep (lostStep (lostMarked s) (0 : Fin 2)) (1 : Fin 2) := rfl

theorem leaves_imuLost : ∀ u v : Fin 2, Leaves (ING.EVT_IMU_LOST 0) (ING.STAT_POSE_ACT u) ∧ Leaves (ING.STAT_POSE_ACT u) (ING.EVT_IMU_LOST 0) ∧
    (u ≠ v → Leaves (ING.STAT_POSE_ACT u) (ING.STAT_POSE_ACT v)) := by decide

theorem lostStep_onlyRegs (s : State) (i : Nat) : OnlyRegs s (lostStep s i) := .ite (.put (.refl s) _ _) (.refl s)

theorem lostStep_self (s : State) (i : Nat) : (lostStep s i).get (ING.STAT_POSE_ACT i) ≠ 2 := by
  unfold lostStep
  split
  · rw [get_put_of_lt (show 0 + 2 ≤ 32 by decide) (by show _ < 4; split <;> decide)]
    split <;> decide
  next h => exact h

theorem lostStep_other {f : Fld} {i : Nat} (h : Leaves (ING.STAT_POSE_ACT i) f) : (lostStep s i).get f = s.get f := by
  unfold lostStep
  split
  · exact get_put_other s h _
  · rfl

theorem imuLost_event (s : State) : s.imuLost.on (ING.EVT_IMU_LOST 0) = true := by
  have h0 := (leaves_imuLost 0 0).2.1
  have h1 := (leaves_imuLost 1 0).2.1
  rw [imuLost_eq, on_of_get ((lostStep_other h1).trans (lostStep_other h0))]
  exact on_set1_self _ _ (show 3 + 1 ≤ 32 by decide) rfl

theorem imuLost_act (s : State) (i : Fin 2) : s.imuLost.get (ING.STAT_POSE_ACT i) ≠ 2 := by
  rw [imuLost_eq]
  match i with
  | 0 =>
    rw [lostStep_other ((leaves_imuLost 1 0).2.2 (by decide))]
    exact lostStep_self _ _
  | 1 => exact lostStep_self _ _

theorem imuLost_onlyRegs (s : State) : OnlyRegs ({ s with pose := { s.pose with imuHealthy := false } } : State) s.imuLost :=
  ((OnlyRegs.refl _).set1 _).trans ((lostStep_onlyRegs _ 0).trans (lostStep_onlyRegs _ 1))

/-- The unit's next state after a record that is good. -/
def imuTaken (s : State) : State :=
  let w := if s.on (ING.IMU_CFG_EN 0) && decide (s.dev ≠ dsHold) then s.pose.next else none
  let w' : State := { s with pose := { s.pose with capture := w, next := none, imuBad := 0, imuHealthy := true } }
  if w.isSome then w'.emit (.spi (s.get (ING.IMU_CFG_RD_CMD 0))) else w'

/-- The unit's count of bad records. -/
def imuCounted (s : State) (n : Nat) : State := { s with pose := { s.pose with imuBad := n } }

/-- The unit found healthy. -/
def imuWell (s : State) : State := { s with pose := { s.pose with imuHealthy := true } }

/-- A record handed over as a sample of `time`, with the health that follows. -/
def imuHanded (s : State) (r : PoseRec) (time : Int) (bad : Nat) : State :=
  let y := if r.ok && !poseLate s time then imuWell s else s
  let z := if y.poseSrc = 0 then y else y.poseSample (some time) r 2
  if z.pose.imuHealthy && decide (5 ≤ bad) then z.imuLost else z

/-- How many records in a row have been bad with this one. -/
def imuBadNow (s : State) (r : PoseRec) : Nat := if r.crcOk then 0 else s.pose.imuBad + 1

/-- A record of the read that ended, judged. -/
def imuJudged (s : State) (rec : Bytes) (c : Int) : State :=
  let y := imuCounted s.imuNext (imuBadNow s.imuNext (readPose rec))
  imuHanded y (readPose rec) (c - y.get (ING.IMU_LAT_NS 0)) (imuBadNow s.imuNext (readPose rec))

theorem imuReadDone_judged {c : Int} (rec : Bytes) (t : Nat) (hcap : s.pose.capture = some c) (hrun : s.Running t) :
    exec (.imuReadDone t rec) s = .next ((s.at_ t).finish (imuJudged (s.at_ t) rec c)) := by
  refine exec_run_eq hrun.1 (rfl : _ = execImuReadDone t rec s) ?_
  have hcap' : (s.at_ t).pose.capture = some c := by rw [hrun.2.2]; exact hcap
  rw [hcap']
  rfl

theorem imuNext_get (s : State) (f : Fld) : s.imuNext.get f = s.get f := by
  unfold State.imuNext
  cases (if s.on (ING.IMU_CFG_EN 0) && decide (s.dev ≠ dsHold) then s.pose.next else none) <;> rfl

theorem imuNext_poses (s : State) : s.imuNext.pose.poses = s.pose.poses := by
  unfold State.imuNext
  cases (if s.on (ING.IMU_CFG_EN 0) && decide (s.dev ≠ dsHold) then s.pose.next else none) <;> rfl

theorem imuTaken_eq (s : State) : imuWell (imuCounted s.imuNext 0) = imuTaken s := by
  unfold imuWell imuCounted State.imuNext imuTaken
  cases (if s.on (ING.IMU_CFG_EN 0) && decide (s.dev ≠ dsHold) then s.pose.next else none) <;> rfl

theorem imuHanded_good {r : PoseRec} {time : Int} (hok : r.ok = true) (hsrc : s.poseSrc = 2) (hfresh : poseLate s time = false) :
    imuHanded s r time 0 = (imuWell s).acceptPose time r 2 := by
  have hsrc' : (imuWell s).poseSrc ≠ 0 := by
    rw [show (imuWell s).poseSrc = 2 from hsrc]
    decide
  have hfresh' : poseLate (imuWell s) time = false := hfresh
  unfold imuHanded
  rw [hok, hfresh, Bool.not_false, Bool.and_true, if_pos rfl]
  dsimp only
  rw [if_neg hsrc', decide_eq_false (by decide : ¬ 5 ≤ 0), Bool.and_false, if_neg Bool.false_ne_true, poseSample_some, hok, hfresh']
  rfl

theorem imuJudged_good {rec : Bytes} {c : Int} (hok : (readPose rec).ok = true) (hcrc : (readPose rec).crcOk = true) (hsrc : s.poseSrc = 2)
    (hfresh : ∀ p, s.pose.poses.getLast? = some p → p.t < c - s.get (ING.IMU_LAT_NS 0)) :
    imuJudged s rec c = (imuTaken s).acceptPose (c - s.get (ING.IMU_LAT_NS 0)) (readPose rec) 2 := by
  have hget (f : Fld) : (imuCounted s.imuNext 0).get f = s.get f := imuNext_get s f
  have hlate : poseLate (imuCounted s.imuNext 0) (c - s.get (ING.IMU_LAT_NS 0)) = false := by
    refine poseLate_of_after fun p hp => hfresh p ?_
    rw [← imuNext_poses]
    exact hp
  have hsrc' : (imuCounted s.imuNext 0).poseSrc = 2 := by
    rw [State.poseSrc, hget]
    exact hsrc
  have hbad : imuBadNow s.imuNext (readPose rec) = 0 := if_pos hcrc
  unfold imuJudged
  dsimp only
  rw [hbad, hget, imuHanded_good hok hsrc' hlate, imuTaken_eq]

/-- Settles O24: the edge, the loss and the end of a read, each with its guard met. -/
theorem inertialUnit : Obligations.InertialUnit := by
  intro s t hrun x
  have hx : x = s.clock t := hrun.2.2
  refine ⟨fun hen hdev => ?_, fun hwell hlost => ?_, fun c rec_ hcap hok hcrc hsrc hfresh => ?_⟩
  · have hguard : ((s.clock t).on (ING.IMU_CFG_EN 0) && decide ((s.clock t).dev ≠ dsHold)) = true := by
      rw [Bool.and_eq_true, decide_eq_true_iff]
      exact ⟨hen, hdev⟩
    refine ⟨fun hcap => ?_, fun hcap => ?_⟩
    · refine completes_ends hrun (rfl : _ = execImuDrdy t s) ((when_true hguard).trans (if_neg ?_)) hrun.2.1 fun u hu => ?_
      · rw [show (s.clock t).pose = s.pose from rfl, hcap]
        exact Bool.false_ne_true
      · rw [hx]
        exact ⟨hu.pose, hu.regs, hu.outbox, hu.memKept (memKept_of rfl rfl rfl rfl rfl rfl rfl rfl)⟩
    · refine completes_ends hrun (rfl : _ = execImuDrdy t s) ((when_true hguard).trans (if_pos ?_)) hrun.2.1 fun u hu => ?_
      · exact Option.isSome_iff_ne_none.2 hcap
      · rw [hx]
        exact ⟨hu.pose, hu.regs, hu.outbox, hu.memKept (memKept_of rfl rfl rfl rfl rfl rfl rfl rfl)⟩
  · have honly := imuLost_onlyRegs (s.clock t)
    refine completes_ends hrun (rfl : _ = execImuLost t s) (when_true ?_) (honly.safety.symm ▸ hrun.2.1) fun u hu =>
      ⟨hu.pose.trans (OnlyRegs.pose honly), (hu.on _).trans (imuLost_event _), fun i _ => ?_, hu.memKept (memKept_trans ?_ honly.memKept)⟩
    · rw [hx] at hlost
      rw [show (s.clock t).pose = s.pose from rfl, hwell, Bool.true_and, Bool.or_eq_true, decide_eq_true_iff, decide_eq_true_iff]
      exact hlost
    · rw [hu.get]
      exact imuLost_act _ i
    · exact memKept_of rfl rfl rfl rfl rfl rfl rfl rfl
  · intro w w' y
    have hjudged : imuJudged x rec_ c = y.acceptPose (c - s.get (ING.IMU_LAT_NS 0)) (readPose rec_) 2 := by
      have hy : imuTaken x = y := by
        dsimp only [y, w', w]
        rw [hx]
        rfl
      rw [imuJudged_good hok hcrc (by rw [hx]; exact hsrc) (by rw [hx]; exact hfresh), hy, hx]
      rfl
    rw [imuReadDone_judged rec_ t hcap hrun, show s.at_ t = x from rfl, hjudged]

end Sys2Proof.Proofs
end

section
/-! PROOFS. Returns on their way to the voxel hash (R101 to R105, R338), and the build of a wedge (R31, R123, R157). -/

namespace Sys2Proof.Proofs

open Sys2Proof.Machine Sys2Proof.Laws

variable {s u v : State}

/-! ### The oldest return -/

/-- The state whose engine `i` has `q` left to take in. -/
def deskLeft (s : State) (i : Nat) (q : List WRet) : State := s.setIng i (fun k => { k with deskQ := q })

/-- A return not shed. -/
def deskKept (y : State) (i : Nat) (r : WRet) : State :=
  match y.pose.bracket (y.get (ING.POSE_GAP_US 0)) r.t false with
  | .found a b sf e g => y.convert r a b sf e g
  | _ =>
    if 1048576 ≤ (y.ig i).pwb.length then (y.set1 (ING.EVT_PWB_FULL i)).convertNow r
    else match y.poseAccess i (y.ig i).pwb.length true with
      | (true, y) => y.setIng i (fun x => { x with pwb := x.pwb ++ [r] })
      | (false, y) => y

/-- The oldest return of an engine taken. -/
def deskTaken (s : State) (i : Nat) (r : WRet) (q : List WRet) : State :=
  if (deskLeft s i q).sheds r then (deskLeft s i q).shedRet r.slot r.az else deskKept (deskLeft s i q) i r

theorem exec_deskew_taken {t : Nat} {i : Fin 2} {r : WRet} {q : List WRet} (hrun : s.Running t) (hq : (s.ig i).deskQ = r :: q) :
    exec (.deskew t i) s = .next ((s.at_ t).finish (deskTaken (s.at_ t) i r q)) := by
  refine exec_run_eq hrun.1 (rfl : _ = execDeskew t i s) ?_
  have hq' : ((s.at_ t).ig i).deskQ = r :: q := by rw [hrun.2.2]; exact hq
  rw [hq']
  rfl

theorem deskKept_found {i : Nat} {r : WRet} {a b : Pose} {sf : Int} {e g : Bool}
    (hb : s.pose.bracket (s.get (ING.POSE_GAP_US 0)) r.t false = .found a b sf e g) : deskKept s i r = s.convert r a b sf e g := by
  rw [deskKept, hb]

/-- A write that the pose-wait buffer's region admits changes nothing. -/
theorem poseAccess_write {i n : Nat} (h : (s.poseAccess i n true).1 = true) : s.poseAccess i n true = (true, s) := by
  unfold State.poseAccess at h ⊢
  cases hr : s.poseRegion i with
  | none => rfl
  | some r =>
    rw [hr] at h
    dsimp only at h ⊢
    split at h
    · exact absurd h Bool.false_ne_true
    next hok => exact if_neg hok

theorem deskKept_waits {i : Nat} {r : WRet} (hb : s.pose.bracket (s.get (ING.POSE_GAP_US 0)) r.t false = .wait)
    (hroom : (s.ig i).pwb.length < 1048576) : deskKept s i r =
      if (s.poseAccess i (s.ig i).pwb.length true).1 then s.setIng i (fun x => { x with pwb := x.pwb ++ [r] })
      else (s.poseAccess i (s.ig i).pwb.length true).2 := by
  rw [deskKept, hb]
  dsimp only
  rw [if_neg (Nat.not_le.2 hroom)]
  cases hacc : (s.poseAccess i (s.ig i).pwb.length true).1 with
  | true => rw [poseAccess_write hacc]; rfl
  | false =>
    rw [show s.poseAccess i (s.ig i).pwb.length true = (false, (s.poseAccess i (s.ig i).pwb.length true).2) from Prod.ext hacc rfl]
    rfl

theorem ig_setIng_part {β : Type} {f : IngSt → IngSt} (g : IngSt → β) (h : ∀ x, g (f x) = g x) (s : State) (i j : Nat) :
    g ((s.setIng i f).ig j) = g (s.ig j) := by
  rw [State.ig, setIng_ing, getD_modify_part _ _ _ _ _ g h, State.ig]

theorem deskLeft_pwb (s : State) (i : Nat) (q : List WRet) : ((deskLeft s i q).ig i).pwb = (s.ig i).pwb :=
  ig_setIng_part (f := fun k => { k with deskQ := q }) (·.pwb) (fun _ => rfl) s i i

/-! ### One that has waited -/

/-- The oldest waiting return whose wait has passed is the first of the buffer where that one's has. -/
theorem pwb_first {lim m : Nat} {r : WRet} {rest l : List WRet} (hl : l = r :: rest) (h : r.ing + lim ≤ m) :
    l.zipIdx.find? (fun e => decide (e.1.ing + lim ≤ m)) = some (r, 0) := by
  rw [hl, List.zipIdx_cons, List.find?_cons_of_pos]
  exact decide_eq_true h

theorem fromWait_convert (s : State) (i n : Nat) (r : WRet) : s.fromWait i n r State.convertNow =
    let y := s.setIng i (fun k => { k with pwb := k.pwb.eraseIdx n })
    if (y.poseAccess i n false).1 then (y.poseAccess i n false).2.convertNow r else (y.poseAccess i n false).2 := by
  unfold State.fromWait
  dsimp only
  rcases (State.poseAccess (s.setIng i fun x => { x with pwb := x.pwb.eraseIdx n }) i n false) with ⟨b, z⟩
  cases b <;> rfl

/-! ### The level of an engine -/

/-- `v` applied to the heads of `l`. -/
def levelSet (l : List Nat) (v : Nat) (s : State) : State := l.foldl (fun s h => s.setHd h (fun x => { x with level := v })) s

theorem hd_setHd_of_ne {h k : Nat} (f : HeadSt → HeadSt) (hne : k ≠ h) : (s.setHd h f).hd k = s.hd k := by
  rw [State.hd, setHd_heads, getD_modify_of_ne _ _ _ hne, State.hd]

theorem levelSet_cons (h : Nat) (l : List Nat) (v : Nat) (s : State) :
    levelSet (h :: l) v s = levelSet l v (s.setHd h (fun x => { x with level := v })) := rfl

theorem levelSet_hd_of_not_mem {l : List Nat} {k : Nat} (v : Nat) (hk : k ∉ l) (s : State) : (levelSet l v s).hd k = s.hd k := by
  induction l generalizing s with
  | nil => rfl
  | cons h l ih =>
    obtain ⟨hne, hl⟩ := not_or.1 (mt List.mem_cons.2 hk)
    rw [levelSet_cons, ih hl, hd_setHd_of_ne _ hne]

theorem levelSet_hd_of_mem {l : List Nat} {k : Nat} (v : Nat) (hk : k ∈ l) (s : State) (hlen : k < s.heads.length) :
    ((levelSet l v s).hd k).level = v := by
  induction l generalizing s with
  | nil => exact absurd hk List.not_mem_nil
  | cons h l ih =>
    rw [levelSet_cons]
    by_cases hl : k ∈ l
    · exact ih hl _ (by rw [setHd_heads, List.length_modify]; exact hlen)
    · rw [levelSet_hd_of_not_mem v hl, (List.mem_cons.1 hk).resolve_right hl, hd_setHd_self _ ((List.mem_cons.1 hk).resolve_right hl ▸ hlen)]

/-- A level applied changes the heads only. -/
theorem levelSet_keeps (l : List Nat) (v : Nat) (s : State) : (levelSet l v s).safety = s.safety ∧ (levelSet l v s).reg = s.reg ∧
    MemKept s (levelSet l v s) := by
  induction l generalizing s with
  | nil => exact ⟨rfl, rfl, memKept_of rfl rfl rfl rfl rfl rfl rfl rfl⟩
  | cons h l ih =>
    obtain ⟨hsafety, hregs, hmem⟩ := ih (s.setHd h (fun x => { x with level := v }))
    exact ⟨hsafety, hregs, memKept_trans (memKept_of rfl rfl rfl rfl rfl rfl rfl rfl) hmem⟩

/-- The heads of an engine. -/
def engineHeads (i : Nat) : List Nat := (List.range 4).map (fun j => 4 * i + j)

theorem mem_engineHeads {i h : Nat} : h ∈ engineHeads i ↔ h / 4 = i := by
  simp only [engineHeads, List.mem_map, List.mem_range]
  constructor
  · rintro ⟨j, hj, rfl⟩
    omega
  · intro hi
    exact ⟨h % 4, by omega, by omega⟩

/-- The level's next evaluation noted. -/
def shedNoted (s : State) (i : Nat) : State := s.setIng i (fun x => { x with shedAt := some s.mono })

/-- The level raised on the page. -/
def levelUp (s : State) (i lv : Nat) : State :=
  ((s.put (ING.SHED_STAT_LEVEL i) (lv + 1)).putMax (ING.SHED_STAT_MAX i) (lv + 1)).set1If (lv = 0) (ING.EVT_SHED_START i)

/-- The level's evaluation is due. -/
def shedDue (s : State) (i : Nat) : Bool :=
  match (s.ig i).shedAt with
  | none => true
  | some a => decide (a + 16 * tickUs ≤ s.mono)

theorem shedDue_of {i : Nat} (h : ∀ a, (s.ig i).shedAt = some a → a + 16 * tickUs ≤ s.mono) : shedDue s i = true := by
  unfold shedDue
  cases hs : (s.ig i).shedAt with
  | none => rfl
  | some a => exact decide_eq_true (h a hs)

/-- What the evaluation does to a level `lv` with `n` hundredths waiting. -/
def levelMoved (s : State) (i n : Nat) (press : Bool) (lv : Nat) : State :=
  if decide (s.get (ING.SHED_WM_HI i) * 16384 < n) || press then
    if 64 ≤ lv then s else levelSet (engineHeads i) (lv + 1) (levelUp s i lv)
  else if decide (n < s.get (ING.SHED_WM_LO i) * 16384) && lv ≠ 0 then
    if lv = 1 then (engineHeads i).foldl (fun s h => s.setHd h (fun x => { x with shedArmed := true })) (s.put (ING.SHED_STAT_LEVEL i) (lv - 1))
    else s.put (ING.SHED_STAT_LEVEL i) (lv - 1)
  else s

/-- The evaluation with what it reads. -/
def levelUpdated (s : State) (i : Nat) : State :=
  levelMoved s i ((s.ig i).deskQ.length * 100) (s.on (VHU.STAT_STASH_PRESS 0) || s.on (VHU.STAT_STASH_PRESS 1)) (s.get (ING.SHED_STAT_LEVEL i))

theorem exec_shedLevelUpdate (s : State) (t : Nat) (i : Fin 2) : exec (.shedLevelUpdate t i) s = run t (fun s =>
    s.when (shedDue s i && s.dev ≠ dsHold) fun s => levelUpdated (shedNoted s i) i) s := rfl

theorem shed_leaves : ∀ i : Fin 2, Leaves (ING.SHED_STAT_MAX i) (ING.SHED_STAT_LEVEL i) ∧ Leaves (ING.EVT_SHED_START i) (ING.SHED_STAT_LEVEL i) := by
  decide

theorem levelUp_get {i : Fin 2} {lv : Nat} (s : State) (hlv : lv < 64) : (levelUp s i lv).get (ING.SHED_STAT_LEVEL i) = lv + 1 := by
  obtain ⟨hmax, hevt⟩ := shed_leaves i
  rw [levelUp, get_set1If_other _ hevt, get_putMax_other _ hmax]
  exact get_put_of_lt (show 0 + 7 ≤ 32 by decide) (show lv + 1 < 128 by omega)

theorem levelUp_onlyRegs (s : State) (i lv : Nat) : OnlyRegs s (levelUp s i lv) := .set1If (.putMax (.put (.refl s) _ _) _ _) _ _

theorem levelUp_regsBut (s : State) (i lv : Nat) : RegsBut [(ING.SHED_STAT i).addr, (ING.EVT i).addr] s (levelUp s i lv) :=
  regsBut_set1If _ _ (by simp [ING.EVT, ING.EVT_SHED_START]) (regsBut_putMax _ _ (by simp [ING.SHED_STAT, ING.SHED_STAT_MAX])
    (regsBut_put _ (by simp [ING.SHED_STAT, ING.SHED_STAT_LEVEL]) (regsBut_refl _ s)))

theorem shedNoted_desk (s : State) (i : Nat) : ((shedNoted s i).ig i).deskQ = (s.ig i).deskQ :=
  ig_setIng_part (f := fun x => { x with shedAt := some s.mono }) (·.deskQ) (fun _ => rfl) s i i

theorem levelUpdated_up {i : Nat} (hhigh : s.get (ING.SHED_WM_HI i) * 16384 < (s.ig i).deskQ.length * 100)
    (hlv : s.get (ING.SHED_STAT_LEVEL i) < 64) : levelUpdated (shedNoted s i) i =
      levelSet (engineHeads i) (s.get (ING.SHED_STAT_LEVEL i) + 1) (levelUp (shedNoted s i) i (s.get (ING.SHED_STAT_LEVEL i))) := by
  have hget (f : Fld) : (shedNoted s i).get f = s.get f := rfl
  rw [levelUpdated, shedNoted_desk, hget, levelMoved, hget, decide_eq_true hhigh, Bool.true_or, if_pos rfl, if_neg (Nat.not_le.2 hlv)]

theorem levelUpdated_down {i : Nat} (hhigh : ¬ s.get (ING.SHED_WM_HI i) * 16384 < (s.ig i).deskQ.length * 100)
    (hpress0 : s.on (VHU.STAT_STASH_PRESS 0) = false) (hpress1 : s.on (VHU.STAT_STASH_PRESS 1) = false)
    (hlow : (s.ig i).deskQ.length * 100 < s.get (ING.SHED_WM_LO i) * 16384) (hlv : 1 < s.get (ING.SHED_STAT_LEVEL i)) :
    levelUpdated (shedNoted s i) i = (shedNoted s i).put (ING.SHED_STAT_LEVEL i) (s.get (ING.SHED_STAT_LEVEL i) - 1) := by
  have hget (f : Fld) : (shedNoted s i).get f = s.get f := rfl
  have hon (f : Fld) : (shedNoted s i).on f = s.on f := rfl
  have hne0 : s.get (ING.SHED_STAT_LEVEL i) ≠ 0 := by omega
  have hne1 : s.get (ING.SHED_STAT_LEVEL i) ≠ 1 := by omega
  rw [levelUpdated, shedNoted_desk, hget, hon, hon, hpress0, hpress1, levelMoved, hget, hget, decide_eq_false hhigh, Bool.false_or, Bool.false_or,
    if_neg Bool.false_ne_true, decide_eq_true hlow, decide_eq_true hne0, Bool.true_and, if_pos rfl, if_neg hne1]

/-- Settles O25: a return taken, one that has waited, and the level moved. -/
theorem returnsDeskewedAndShed : Obligations.ReturnsDeskewedAndShed := by
  refine ⟨?_, ?_⟩
  · intro s t i r q hrun
    have hx : s.at_ t = s.clock t := hrun.2.2
    refine ⟨fun hq => ?_, fun rest hq hover => ?_⟩
    · intro y
      have hy : y = deskLeft (s.at_ t) i q := rfl
      have hpwb : (s.ig i).pwb = (y.ig i).pwb := by
        rw [hy, deskLeft_pwb, hx]
        rfl
      have htaken : exec (.deskew t i) s = .next ((s.at_ t).finish (if y.sheds r then y.shedRet r.slot r.az else deskKept y i r)) :=
        exec_deskew_taken hrun hq
      refine ⟨fun hshed => ?_, fun hshed a b sf e g hb => ?_, fun hshed hb hroom => ?_⟩
      · rw [htaken, if_pos hshed]
      · rw [htaken, if_neg (by rw [hshed]; exact Bool.false_ne_true), deskKept_found hb]
      · intro acc
        rw [hpwb] at hroom
        have hkept : exec (.deskew t i) s = .next ((s.at_ t).finish (if acc.1 then y.setIng i (fun x => { x with pwb := x.pwb ++ [r] }) else acc.2)) := by
          rw [htaken, if_neg (by rw [hshed]; exact Bool.false_ne_true), deskKept_waits hb hroom, ← hpwb]
        refine ⟨fun hacc => ?_, fun hacc => ?_⟩
        · rw [hkept, if_neg (by rw [hacc]; exact Bool.false_ne_true)]
        · rw [if_pos hacc, hx] at hkept
          have hz : y.setIng i (fun x => { x with pwb := x.pwb ++ [r] }) =
              (s.clock t).setIng i (fun k => { k with deskQ := q, pwb := k.pwb ++ [r] }) := by
            rw [hy, hx, deskLeft, State.setIng, setIng_ing, List.modify_modify_eq]
            rfl
          rw [hz] at hkept
          have hu : Ends ((s.clock t).setIng i (fun k => { k with deskQ := q, pwb := k.pwb ++ [r] })) _ :=
            ⟨hrun.2.1, s.clock t, hrun.1, rfl⟩
          exact ⟨_, hkept, hu.regs, hu.memKept (memKept_of rfl rfl rfl rfl rfl rfl rfl rfl), hu.outbox, hu.ing⟩
    · intro y acc
      refine exec_run_eq hrun.1 (rfl : _ = execPoseWaitTimeout t i s) ?_
      have hfirst : ((s.at_ t).ig i).pwb.zipIdx.find?
          (fun e => decide (e.1.ing + (s.at_ t).get (ING.POSE_WAIT_US 0) * tickUs ≤ (s.at_ t).mono)) = some (r, 0) := by
        rw [hx]
        exact pwb_first (l := (s.ig i).pwb) hq hover
      dsimp only
      rw [hfirst]
      exact fromWait_convert (s.at_ t) i 0 r
  · intro s t i hrun hdev hdue
    have hguard : (shedDue (s.clock t) i && decide ((s.clock t).dev ≠ dsHold)) = true := by
      rw [shedDue_of (s := s.clock t) hdue, decide_eq_true (show (s.clock t).dev ≠ dsHold from hdev)]
      rfl
    refine ⟨fun hhigh hlv => ?_, fun hhigh hp0 hp1 hlow hlv => ?_⟩
    · have honly : OnlyRegs (shedNoted (s.clock t) i) (levelUp (shedNoted (s.clock t) i) i (s.get (ING.SHED_STAT_LEVEL i))) :=
        levelUp_onlyRegs _ _ _
      have hz : levelUpdated (shedNoted (s.clock t) i) i = levelSet (engineHeads i) (s.get (ING.SHED_STAT_LEVEL i) + 1)
          (levelUp (shedNoted (s.clock t) i) i (s.get (ING.SHED_STAT_LEVEL i))) := levelUpdated_up (s := s.clock t) hhigh hlv
      obtain ⟨hsafety, hregs, hmem⟩ := levelSet_keeps (engineHeads i) (s.get (ING.SHED_STAT_LEVEL i) + 1)
        (levelUp (shedNoted (s.clock t) i) i (s.get (ING.SHED_STAT_LEVEL i)))
      refine completes_ends hrun (exec_shedLevelUpdate s t i) ((when_true hguard).trans hz) ?_ fun u hu =>
        ⟨(hu.get _).trans ?_, fun h hh hlen => ?_, fun h hh => ?_, hu.regsBut ?_, hu.memKept ?_⟩
      · rw [hsafety, honly.safety]
        exact hrun.2.1
      · rw [get_reg_congr hregs]
        exact levelUp_get (shedNoted (s.clock t) i) hlv
      · rw [hd_congr hu.heads]
        exact levelSet_hd_of_mem _ (mem_engineHeads.2 hh) _ (by rw [honly.heads]; exact hlen)
      · rw [hd_congr hu.heads, levelSet_hd_of_not_mem _ (mt mem_engineHeads.1 hh), hd_congr honly.heads]
        rfl
      · intro a ha
        rw [hregs]
        exact levelUp_regsBut (shedNoted (s.clock t) i) i _ a ha
      · exact memKept_trans (u := shedNoted (s.clock t) i) (memKept_of rfl rfl rfl rfl rfl rfl rfl rfl) (memKept_trans honly.memKept hmem)
    · have honly : OnlyRegs (shedNoted (s.clock t) i) _ := .put (.refl _) (ING.SHED_STAT_LEVEL i) (s.get (ING.SHED_STAT_LEVEL i) - 1)
      refine completes_ends hrun (exec_shedLevelUpdate s t i)
        ((when_true hguard).trans (levelUpdated_down (s := s.clock t) hhigh hp0 hp1 hlow hlv)) (honly.safety ▸ hrun.2.1) fun u hu =>
          ⟨(hu.get _).trans ?_, hu.heads.trans honly.heads, hu.regsBut ?_, hu.memKept (memKept_trans ?_ honly.memKept)⟩
      · have hlt : s.get (ING.SHED_STAT_LEVEL i) < 128 := get_lt s (ING.SHED_STAT_LEVEL i)
        exact get_put_of_lt (show 0 + 7 ≤ 32 by decide) (show s.get (ING.SHED_STAT_LEVEL i) - 1 < 128 by omega)
      · exact regsBut_put _ (by simp [ING.SHED_STAT, ING.SHED_STAT_LEVEL]) fun _ _ => rfl
      · exact memKept_of rfl rfl rfl rfl rfl rfl rfl rfl

/-! ### The build -/

/-- The wedge `j` built, with what its slot reads meet. -/
def buildBegun (s : State) (j : WJob) (rest : List WJob) (es : List EccRes × List EccRes) : State :=
  let b := ((s.stageTiles 0).foldl (fun s g => s.holdOver g 8 g) s).build j es
  let y := (b.1.set1 (VHU.STAT_BUILD 0)).set1 (VHU.STAT_BUILD 1)
  { y with pipe := { y.pipe with
    backlog := rest, flight := y.pipe.flight ++ [b.2], nextAdmit := y.pipe.nextAdmit + 1, building := true, buildAt := y.mono } }

section
variable {t : Nat} {j : WJob} {rest : List WJob} (hr : s.released = true) (hb : (s.at_ t).pipe.backlog = j :: rest) (hgold : j.golden = false)
  (hfree : ((decide ((s.at_ t).dev = dsNoon) || decide ((s.at_ t).dev = dsDusk)) && !(s.at_ t).pipe.building &&
    (s.at_ t).stage0Free (s.at_ t).pipe.nextAdmit) = true)
include hr hb hgold hfree

/-- A wedge whose tables' lines are not all empty is waited for. -/
theorem buildStart_waits {w : TWait} {ea eb : List EccRes}
    (hw : (s.at_ t).buildWait { j with admNo := (s.at_ t).pipe.nextAdmit } = some w) :
    exec (.wedgeBuildStart t ea eb) s = .next ((s.at_ t).finish ((s.at_ t).hold w.tile w)) := by
  refine exec_run_eq hr (rfl : _ = execWedgeBuildStart t s ea eb) ?_
  rw [hb]
  refine (when_true hfree).trans ?_
  dsimp only
  rw [if_neg (show ¬ j.golden = true by rw [hgold]; exact Bool.false_ne_true), hw]

/-- Any other is built. -/
theorem buildStart_builds {ea eb : List EccRes} (hw : (s.at_ t).buildWait { j with admNo := (s.at_ t).pipe.nextAdmit } = none) :
    exec (.wedgeBuildStart t ea eb) s = .next ((s.at_ t).finish
      (buildBegun (s.at_ t) { j with admNo := (s.at_ t).pipe.nextAdmit } rest (ea, eb))) := by
  refine exec_run_eq hr (rfl : _ = execWedgeBuildStart t s ea eb) ?_
  rw [hb]
  refine (when_true hfree).trans ?_
  dsimp only [buildBegun]
  rw [if_neg (show ¬ j.golden = true by rw [hgold]; exact Bool.false_ne_true), hw]
  dsimp only
  generalize State.build _ _ _ = b
  rcases b with ⟨y, j'⟩
  rfl
end

/-- The end of the build shown on one unit's page. -/
def buildShown (s : State) (i n : Nat) : State := (s.put (VHU.STAT_BUILD i) 0).put (VHU.BUILD_CYC_CYC i) (satU 24 n)

theorem leaves_build : ∀ i j : Fin 2, Leaves (VHU.BUILD_CYC_CYC i) (VHU.STAT_BUILD j) ∧ (i ≠ j → Leaves (VHU.STAT_BUILD i) (VHU.STAT_BUILD j) ∧
    Leaves (VHU.BUILD_CYC_CYC i) (VHU.BUILD_CYC_CYC j) ∧ Leaves (VHU.STAT_BUILD i) (VHU.BUILD_CYC_CYC j)) := by decide

theorem buildShown_self (s : State) (i : Fin 2) (n : Nat) : (buildShown s i n).get (VHU.STAT_BUILD i) = 0 ∧
    (buildShown s i n).get (VHU.BUILD_CYC_CYC i) = satU 24 n := by
  refine ⟨?_, get_put_of_lt (show 0 + 24 ≤ 32 by decide) (satU_lt _ _)⟩
  rw [buildShown, get_put_other _ (leaves_build i i).1]
  exact get_put_of_lt (show 0 + 1 ≤ 32 by decide) (show 0 < 2 ^ 1 by decide)

theorem buildShown_both (s : State) (n : Nat) (i : Fin 2) :
    (buildShown (buildShown s (0 : Fin 2) n) (1 : Fin 2) n).get (VHU.STAT_BUILD i) = 0 ∧
      (buildShown (buildShown s (0 : Fin 2) n) (1 : Fin 2) n).get (VHU.BUILD_CYC_CYC i) = satU 24 n := by
  match i with
  | 0 =>
    obtain ⟨hc, hne⟩ := leaves_build 1 0
    obtain ⟨hs, hcc, hsc⟩ := hne (by decide)
    obtain ⟨hstat, hcyc⟩ := buildShown_self s 0 n
    rw [buildShown, get_put_other _ hc, get_put_other _ hs, get_put_other _ hcc, get_put_other _ hsc]
    exact ⟨hstat, hcyc⟩
  | 1 => exact buildShown_self _ 1 n

theorem buildShown_onlyRegs (s : State) (i n : Nat) : OnlyRegs s (buildShown s i n) := .put (.put (.refl s) _ _) _ _

theorem buildShown_regsBut {l : List Nat} {i : Nat} (n : Nat) (hs : (VHU.STAT i).addr ∈ l) (hc : (VHU.BUILD_CYC i).addr ∈ l) (s : State) :
    RegsBut l s (buildShown s i n) :=
  regsBut_put _ (show (VHU.BUILD_CYC_CYC i).addr ∈ l from hc) (regsBut_put _ (show (VHU.STAT_BUILD i).addr ∈ l from hs) (regsBut_refl l s))

/-- The build's end noted in the pipeline. -/
def buildOver (s : State) : State :=
  { s with pipe := { s.pipe with building := false, flight := s.pipe.flight.map (fun j => { j with built := true }) } }

theorem buildOver_keeps (s : State) : (buildOver s).safety = s.safety ∧ (buildOver s).get = s.get ∧ MemKept s (buildOver s) :=
  ⟨rfl, rfl, memKept_of rfl rfl rfl rfl rfl rfl rfl rfl⟩

theorem regsBut_buildOver (l : List Nat) (s : State) : RegsBut l s (buildOver s) := fun _ _ => rfl

/-- A golden injection's wedge. -/
def goldenJob (s : State) (sw : Nat) : WJob :=
  { w := goldWedge s.golden, seq := 0, golden := true, at_ := s.mono, tClose := s.snsNs, tOpen := s.snsNs, sweep := sw,
    sweepAt := goldLast s.golden, rev := s.rev.count }

theorem goldenClose_joins {sw : Nat} (hsw : s.age.goldT0 = some sw) (hdev : s.dev = dsNoon ∨ s.dev = dsDusk) :
    (match s.age.goldT0 with
      | none => s
      | some sw => s.when (s.dev = dsNoon || s.dev = dsDusk) fun s =>
          ({ s with age := { s.age with goldT0 := none } } : State).joinBacklog (goldenJob s sw)) =
      ({ s with age := { s.age with goldT0 := none } } : State).joinBacklog (goldenJob s sw) := by
  rw [hsw]
  exact when_true (by rw [Bool.or_eq_true, decide_eq_true_iff, decide_eq_true_iff]; exact hdev)

/-- Settles O27: a build admitted, its end, and a golden injection's close, which is no commit point by the model's choice (assumption 20). -/
theorem wedgeBuilt : Obligations.WedgeBuilt := by
  intro s t ea eb hrun x
  have hx : x = s.clock t := hrun.2.2
  refine ⟨fun j rest hb hgold hdev hbuild hfree => ?_, fun hbuild => ?_, fun sw hsw hdev => ?_⟩
  · intro j'
    have hguard : ((decide (x.dev = dsNoon) || decide (x.dev = dsDusk)) && !x.pipe.building && x.stage0Free x.pipe.nextAdmit) = true := by
      rw [hx]
      show ((s.dev = dsNoon || s.dev = dsDusk) && !s.pipe.building && s.stage0Free s.pipe.nextAdmit) = true
      rw [hbuild, hfree, Bool.and_eq_true, Bool.and_eq_true, Bool.or_eq_true, decide_eq_true_iff, decide_eq_true_iff]
      exact ⟨⟨hdev, rfl⟩, rfl⟩
    have hb' : x.pipe.backlog = j :: rest := by rw [hx]; exact hb
    have hj : j' = { j with admNo := x.pipe.nextAdmit } := by rw [hx]; rfl
    rw [hj]
    refine ⟨fun w hw => buildStart_waits hrun.1 hb' hgold hguard hw, fun hw => ?_⟩
    have hbuilt := buildStart_builds (ea := ea) (eb := eb) hrun.1 hb' hgold hguard hw
    rw [show s.at_ t = x from rfl] at hbuilt
    dsimp only [buildBegun] at hbuilt ⊢
    exact hbuilt
  · have honly : OnlyRegs (s.clock t) (buildShown (buildShown (s.clock t) (0 : Fin 2) (((s.clock t).mono - s.pipe.buildAt) / tickNs)) (1 : Fin 2)
        (((s.clock t).mono - s.pipe.buildAt) / tickNs)) := (buildShown_onlyRegs _ _ _).trans (buildShown_onlyRegs _ _ _)
    rw [hx]
    refine completes_ends (z := buildOver (buildShown (buildShown (s.clock t) (0 : Fin 2) (((s.clock t).mono - s.pipe.buildAt) / tickNs)) (1 : Fin 2)
        (((s.clock t).mono - s.pipe.buildAt) / tickNs))) hrun (rfl : _ = execWedgeBuildDone t s) (when_true hbuild)
      ?_ fun u hu => ⟨hu.pipe.trans ?_, fun i => ?_, hu.regsBut ?_, hu.memKept ?_⟩
    · rw [(buildOver_keeps _).1, honly.safety]
      exact hrun.2.1
    · rw [buildOver, honly.pipe]
      rfl
    · rw [hu.get, hu.get, (buildOver_keeps _).2.1]
      exact buildShown_both (s.clock t) _ i
    · exact regsBut_trans (buildShown_regsBut (i := 0) _ (by simp) (by simp) (s.clock t))
        (regsBut_trans (buildShown_regsBut (i := 1) (((s.clock t).mono - s.pipe.buildAt) / tickNs) (by simp) (by simp) _)
          (regsBut_buildOver _ _))
    · exact memKept_trans honly.memKept (buildOver_keeps _).2.2
  · refine completes_ends hrun (rfl : _ = execGoldenWedgeClose t s) (goldenClose_joins (s := s.clock t) hsw hdev) hrun.2.1 fun u hu =>
      ⟨hu.regs, hu.shadow, congrArg AgeSt.goldT0 hu.age, congrArg PipeSt.closes hu.pipe, ⟨_, congrArg PipeSt.backlog hu.pipe, rfl, rfl⟩, hu.memKept ?_⟩
    exact memKept_of rfl rfl rfl rfl rfl rfl rfl rfl

end Sys2Proof.Proofs
end

section
/-! PROOFS. Self-test slices (R368 to R372) and the Maintenance Scheduler's timers (R373 to R375, R379). -/

namespace Sys2Proof.Proofs

open Sys2Proof.Machine Sys2Proof.Laws

variable {s u v : State}

/-! ### Slices -/

/-- A slice started. -/
def sliceBegun (y : State) (id g : Nat) : State :=
  let z := (y.msStart sliceAct id).ag (fun a => { a with slice := some (id, g, y.mono), sliceNext := (id + 1) % 13 })
  ((z.set1 BIST.STAT_RUNNING).put BIST.STAT_CUR id).spareFor id true

theorem sliceStart_turn {t id g : Nat} (hr : s.released = true) (hturn : (s.at_ t).sliceTurn = some (id, g))
    (hfree : ((s.at_ t).age.slice.isNone && ((s.at_ t).dev = dsNoon || (s.at_ t).dev = dsReady)) = true) :
    exec (.sliceStart t) s = .next ((s.at_ t).finish (((s.at_ t).msRequest sliceAct id).when
      (((s.at_ t).msRequest sliceAct id).msCanStart sliceAct id && ((s.at_ t).msRequest sliceAct id).sliceRoom id)
      fun y => sliceBegun y id g)) := by
  refine exec_run_eq hr (rfl : _ = execSliceStart t s) ?_
  rw [hturn]
  exact when_true hfree

theorem sliceDone_inTime {t id g a : Nat} {words : List (BitVec 32)} {passes : List Bool} (hr : s.released = true)
    (hslice : (s.at_ t).age.slice = some (id, g, a)) (hlim : (s.at_ t).mono < a + sliceLimit id) :
    exec (.sliceDone t words passes) s = .next ((s.at_ t).finish
      (if sliceSig words passes = (Config.bistRom id g).toNat then (((s.at_ t).sliceOver id g).bump BIST.SLICE_RUN_CNT).failGone id g
       else (((s.at_ t).sliceOver id g).bump BIST.SLICE_RUN_CNT).sliceFail id g (sliceSig words passes) false)) := by
  refine exec_run_eq hr (rfl : _ = execSliceDone t words passes s) ?_
  rw [hslice]
  dsimp only
  rw [when_true (decide_eq_true hlim)]

/-- Settles O47: the slice in turn, its end in time and its abort. -/
theorem slicesRun : Obligations.SlicesRun := by
  intro s t hrun x
  have hx : x = s.clock t := hrun.2.2
  refine ⟨fun id g hturn hslice hdev => ?_, fun id g a hslice => ⟨fun hlim words passes => ?_, fun hlim => ?_⟩⟩
  · intro y
    have hexec := sliceStart_turn (s := s) (t := t) (id := id) (g := g) hrun.1 hturn (by
      rw [hrun.2.2, show (s.clock t).age = s.age from rfl, hslice, Bool.and_eq_true, Bool.or_eq_true, decide_eq_true_iff, decide_eq_true_iff]
      exact ⟨rfl, hdev⟩)
    refine ⟨fun hcan hroom => ?_, fun hcan => ?_⟩
    · exact hexec.trans (by rw [when_true (show (y.msCanStart sliceAct id && y.sliceRoom id) = true by rw [hcan, hroom]; rfl)]; rfl)
    · exact hexec.trans (by rw [when_false (show (y.msCanStart sliceAct id && y.sliceRoom id) = false by rw [hcan]; rfl)])
  · intro y
    have hexec := sliceDone_inTime (s := s) (t := t) (words := words) (passes := passes) hrun.1 (by rw [hrun.2.2]; exact hslice) hlim
    exact ⟨fun hsig => hexec.trans (by rw [if_pos hsig]), fun hsig => hexec.trans (by rw [if_neg hsig])⟩
  · intro y
    refine exec_run_eq hrun.1 (rfl : _ = execAbort t s) ?_
    rw [show (s.at_ t).age.slice = some (id, g, a) by rw [hrun.2.2]; exact hslice]
    dsimp only
    rw [when_true (decide_eq_true hlim)]

/-! ### Timers -/

theorem msStat_onlyRegs (s : State) : OnlyRegs s s.msStat := .put (.put (.refl s) _ _) _ _

theorem msRequest_mono (s : State) (code inst : Nat) : (s.msRequest code inst).mono = s.mono := by
  unfold State.msRequest
  split
  · rfl
  · exact (msStat_onlyRegs _).mono

/-- An activity whose timer has run, requested and started or kept. -/
theorem timed_due {code inst : Nat} {restart : State → State} (y : State) (hy : restart (s.msRequest code inst) = y) :
    s.timed code inst true restart id = if y.msCanStart code inst then (y.msStart code inst).msEnd code inst else y := by
  rw [State.timed, if_pos rfl, hy]
  rfl

theorem timed_idle {code inst : Nat} (restart : State → State) (h : s.ms.pend = []) : s.timed code inst false restart id = s := by
  have hcan : s.msCanStart code inst = false := by
    rw [State.msCanStart, h]
    rfl
  rw [State.timed, if_neg Bool.false_ne_true]
  exact if_neg (by rw [hcan]; exact Bool.false_ne_true)

/-- A command that is an activity of a timer that has run. -/
theorem exec_timed {t code inst : Nat} {c : Instr} {due : State → Bool} {restart : State → State} {y : State} (hr : s.released = true)
    (he : exec c s = run t (fun s => s.timed code inst (due s) restart id) s) (hdue : due (s.at_ t) = true)
    (hy : restart ((s.at_ t).msRequest code inst) = y) :
    exec c s = .next ((s.at_ t).finish (if y.msCanStart code inst then (y.msStart code inst).msEnd code inst else y)) := by
  refine exec_run_eq hr he ?_
  rw [hdue]
  exact timed_due y hy

/-- The timers of a die's calibration and retraining and of a port's, and what each is set to. -/
def zqDue (i : Nat) (s : State) : Bool := decide (s.age.zqAt.getD i 0 + 128 * tickMs ≤ s.mono)
def zqAgain (i : Nat) (s : State) : State := s.ag (fun a => { a with zqAt := a.zqAt.set i s.mono })
def trainDue (i : Nat) (s : State) : Bool := decide (s.age.trainAt.getD i 0 + 1024 * tickMs ≤ s.mono)
def trainAgain (i : Nat) (s : State) : State := s.ag (fun a => { a with trainAt := a.trainAt.set i s.mono })
def phyDue (i : Nat) (s : State) : Bool := decide (s.age.phyAt.getD i 0 + tickS ≤ s.mono)
def phyAgain (i : Nat) (s : State) : State := s.ag (fun a => { a with phyAt := a.phyAt.set i s.mono })

theorem exec_zq (s : State) (t : Nat) (i : Fin 2) :
    exec (.zqCalibration t i) s = run t (fun s => s.timed 7 i (zqDue i s) (zqAgain i) id) s := rfl

theorem exec_train (s : State) (t : Nat) (i : Fin 2) :
    exec (.readRetraining t i) s = run t (fun s => s.timed 7 (2 + i.val) (trainDue i s) (trainAgain i) id) s := rfl

theorem exec_phy (s : State) (t : Nat) (i : Fin 13) :
    exec (.portPhyCalibration t i) s = run t (fun s => s.timed 8 i (phyDue i s) (phyAgain i) id) s := rfl

/-- The first part of a miss: counted and shown as the last. -/
def missShown (s : State) (code inst : Nat) : State :=
  ((((s.bump (MS.MISSED_CNT code)).put MS.LAST_MISSED_CODE code).put MS.LAST_MISSED_INST (inst % 8)).set1 MS.LAST_MISSED_VALID).set1 MS.EVT_MISSED

theorem msMiss_eq (s : State) (code inst : Nat) : s.msMiss code inst = if (missShown s code inst).ms.logged.contains code then missShown s code inst
    else ({ missShown s code inst with ms := { (missShown s code inst).ms with logged := (missShown s code inst).ms.logged ++ [code] } } : State).raise
      MS.EVT_MISSED 0 := rfl

theorem leaves_missed : ∀ c : Fin 12, Leaves MS.LAST_MISSED_CODE (MS.MISSED_CNT c) ∧ Leaves MS.LAST_MISSED_INST (MS.MISSED_CNT c) ∧
    Leaves MS.LAST_MISSED_VALID (MS.MISSED_CNT c) ∧ Leaves MS.EVT_MISSED (MS.MISSED_CNT c) ∧ (MS.MISSED_CNT c).addr ≠ MS.EVT_MISSED.addr ∧
    (MS.MISSED_CNT c).addr ∉ reportRegs (MS.EVT_MISSED.addr / 4096) := by decide

theorem get_msSet (s : State) (m : MsSt) (f : Fld) : ({ s with ms := m } : State).get f = s.get f := rfl

theorem msMiss_counts (s : State) (code : Fin 12) (inst : Nat) :
    (s.msMiss code inst).get (MS.MISSED_CNT code) = satU 32 (s.get (MS.MISSED_CNT code) + 1) := by
  obtain ⟨hcode, hinst, hvalid, hevt, hne, hrep⟩ := leaves_missed code
  have hshown : (missShown s code inst).get (MS.MISSED_CNT code) = satU 32 (s.get (MS.MISSED_CNT code) + 1) := by
    rw [missShown, get_set1_other _ hevt, get_set1_other _ hvalid, get_put_other _ hinst, get_put_other _ hcode]
    exact get_bump_self s (MS.MISSED_CNT code) (show 0 + 32 ≤ 32 by decide)
  rw [msMiss_eq]
  split
  · exact hshown
  · rw [raise_get _ _ _ _ _ _ hne hrep]
    exact (get_msSet (missShown s code inst) _ _).trans hshown

/-- Settles O48: timers that have run or not, misses and the round; that a calibration is over at once is the model's choice (assumption 93). -/
theorem maintenanceTimers : Obligations.MaintenanceTimers := by
  intro s t i port hrun x
  have hx : x = s.clock t := hrun.2.2
  refine ⟨fun hdue => ?_, fun hdue => ?_, fun hdue => ?_, fun code inst a hfind hallowed hlate hcode => ?_, fun hround hmiss hallowed => ?_,
    fun hdue hpend => ?_, fun s code inst hcode => msMiss_counts s ⟨code, hcode⟩ inst⟩
  · intro y
    have hexec := exec_timed (y := y) hrun.1 (exec_zq s t i) (decide_eq_true (by rw [show (s.at_ t).age = s.age by rw [hrun.2.2]; rfl]; exact hdue))
      (by rw [zqAgain, msRequest_mono])
    exact ⟨fun hcan => hexec.trans (by rw [if_pos hcan]), fun hcan => hexec.trans (by rw [if_neg (by rw [hcan]; exact Bool.false_ne_true)])⟩
  · intro y hcan
    have hexec := exec_timed (y := y) hrun.1 (exec_train s t i)
      (decide_eq_true (by rw [show (s.at_ t).age = s.age by rw [hrun.2.2]; rfl]; exact hdue)) (by rw [trainAgain, msRequest_mono])
    exact hexec.trans (by rw [if_pos hcan])
  · intro y hcan
    have hexec := exec_timed (y := y) hrun.1 (exec_phy s t port)
      (decide_eq_true (by rw [show (s.at_ t).age = s.age by rw [hrun.2.2]; rfl]; exact hdue)) (by rw [phyAgain, msRequest_mono])
    exact hexec.trans (by rw [if_pos hcan])
  · refine exec_run_eq hrun.1 (rfl : _ = execMissed t code inst s) ?_
    rw [show (s.at_ t).ms.pend.find? (fun a => a.code = code.val && a.inst = inst) = some a by rw [hrun.2.2]; exact hfind]
    refine (when_true ?_).trans (if_neg hcode)
    rw [show (s.at_ t).msAllowed code = true from hallowed, show (s.at_ t).msLate a = true from hlate]
    rfl
  · refine exec_run_eq hrun.1 (rfl : _ = execRoundTimeout t s) ((when_true ?_).trans ?_)
    · rw [show (s.at_ t).msAllowed 6 = true from hallowed, Bool.and_true, hrun.2.2]
      rw [hx] at hround
      show (decide (s.age.roundAt + s.get BIST.ROUND_S * tickS ≤ (s.clock t).mono) && !s.age.roundMiss) = true
      rw [decide_eq_true hround, hmiss]
      rfl
    · rw [show (s.at_ t).age = s.age by rw [hrun.2.2]; rfl]
  · rw [hx] at hdue
    refine completes_ends (z := s.clock t) hrun (exec_zq s t i) ?_ hrun.2.1 fun u hu =>
      ⟨hu.ms, hu.age, hu.regs, hu.memKept (clock_onlyMem s t)⟩
    rw [show zqDue i (s.clock t) = false from decide_eq_false (Nat.not_le.2 hdue)]
    exact timed_idle (s := s.clock t) _ hpend

end Sys2Proof.Proofs
end

section
/-! PROOFS. Temperatures, rails and clocks (R445, R447, R450, R466). -/

namespace Sys2Proof.Proofs

open Sys2Proof.Machine Sys2Proof.Laws

variable {s u v : State}

/-! ### A row of registers written -/

/-- The registers `F i` written with `x i`. -/
def putRow (F : Nat → Fld) (x : Nat → Nat) (l : List Nat) (s : State) : State := l.foldl (fun s i => s.put (F i) (x i)) s

section
variable {F : Nat → Fld} {x : Nat → Nat} {l : List Nat}

theorem putRow_onlyRegs (s : State) : OnlyRegs s (putRow F x l s) := .foldl (.refl s) fun _ _ h => h.put _ _

theorem putRow_other {g : Fld} (h : ∀ i ∈ l, Leaves (F i) g) (s : State) : (putRow F x l s).get g = s.get g := by
  induction l generalizing s with
  | nil => rfl
  | cons i l ih => exact (ih (fun j hj => h j (List.mem_cons_of_mem i hj)) _).trans (get_put_other s (h i (List.mem_cons_self ..)) _)

theorem putRow_get {k : Nat} (hk : k ∈ l) (h : ∀ i ∈ l, i ≠ k → Leaves (F i) (F k)) (hf : (F k).lo + (F k).w ≤ 32) (hx : x k < 2 ^ (F k).w)
    (s : State) : (putRow F x l s).get (F k) = x k := by
  induction l generalizing s with
  | nil => exact absurd hk List.not_mem_nil
  | cons i l ih =>
    by_cases hl : k ∈ l
    · exact ih hl (fun j hj => h j (List.mem_cons_of_mem i hj)) _
    · have hi : k = i := (List.mem_cons.1 hk).resolve_right hl
      refine (putRow_other (fun j hj => h j (List.mem_cons_of_mem i hj) fun hjk => hl (hjk ▸ hj)) _).trans ?_
      rw [hi] at hf hx ⊢
      exact get_put_of_lt hf hx
end

/-! ### Temperatures -/

/-- A row of readings shown, and the dies that run hot. -/
def tempsShown (s : State) (temps : List Int) : State := putRow PM.TEMP_C16 (fun i => lowBits 16 (temps.getD i 0)) (List.range 6) s

/-- The largest readings kept. -/
def tempsKept (s : State) (temps : List Int) : State :=
  { s with age := { s.age with telMax := s.age.telMax.zipIdx.map (fun e => max e.1 (temps.getD e.2 0))
                               hotMax := (List.range 6).foldl (fun m i => max m (temps.getD i 0)) s.age.hotMax } }

/-- The dies that run hot. -/
def hotShown (s : State) (temps : List Int) : State :=
  putRow DRAM.STAT_HOT (fun d => b2n (decide (85 * 16 < temps.getD d 0))) (List.range 2) s

/-- The readings taken in, before any is judged. -/
def tempsTaken (s : State) (temps : List Int) : State := hotShown (tempsKept (tempsShown s temps) temps) temps

/-- Any of the six readings above a bound. -/
def tempAbove (temps : List Int) (m : Int) : Bool := (List.range 6).any (fun i => decide (m < temps.getD i 0))

theorem exec_thermalRead (s : State) (t : Nat) (temps : List Int) : exec (.thermalRead t temps) s = run t (fun s =>
    let y := tempsTaken s temps
    let rest := match y.age.thermAt with
      | none => true
      | some a => decide (a + tickS ≤ y.mono)
    let z := if !tempAbove temps ((y.get PM.THERM_HI_C : Int) * 16) then y
      else if rest then ({ y with age := { y.age with thermAt := some y.mono } } : State).raise PM.EVT_THERM_HI 0
      else y.set1 PM.EVT_THERM_HI
    if tempAbove temps (130 * 16) then z.raise PM.EVT_THERM_TRIP 3 else z) s := rfl

theorem tempAbove_false {temps : List Int} {m : Int} (hm : 0 ≤ m) (h : ∀ v ∈ temps, v ≤ m) : tempAbove temps m = false := by
  refine List.any_eq_false.2 fun i _ => ?_
  rw [decide_eq_true_iff, List.getD_eq_getElem?_getD]
  cases hi : temps[i]? with
  | none => exact Int.not_lt.2 hm
  | some v => exact Int.not_lt.2 (h v (List.mem_of_getElem? hi))

theorem leaves_temps : (∀ d ∈ List.range 2, Leaves (DRAM.STAT_HOT d) PM.THERM_HI_C) ∧ (∀ i ∈ List.range 6, Leaves (PM.TEMP_C16 i) PM.THERM_HI_C) ∧
    (∀ d ∈ List.range 2, ∀ i ∈ List.range 6, Leaves (DRAM.STAT_HOT d) (PM.TEMP_C16 i)) ∧
    (∀ i ∈ List.range 6, ∀ j ∈ List.range 6, i ≠ j → Leaves (PM.TEMP_C16 i) (PM.TEMP_C16 j)) ∧
    ∀ i ∈ List.range 2, ∀ j ∈ List.range 2, i ≠ j → Leaves (DRAM.STAT_HOT i) (DRAM.STAT_HOT j) := by decide

theorem tempsKept_get (s : State) (temps : List Int) (f : Fld) : (tempsKept s temps).get f = s.get f := rfl

theorem tempsTaken_high (s : State) (temps : List Int) : (tempsTaken s temps).get PM.THERM_HI_C = s.get PM.THERM_HI_C := by
  obtain ⟨hhot, htemp, -⟩ := leaves_temps
  rw [tempsTaken, hotShown, putRow_other hhot, tempsKept_get, tempsShown, putRow_other htemp]

theorem b2n_lt (b : Bool) : b2n b < 2 ^ 1 := by cases b <;> decide

theorem tempsKept_keeps (s : State) (temps : List Int) : (tempsKept s temps).safety = s.safety ∧ MemKept s (tempsKept s temps) :=
  ⟨rfl, memKept_of rfl rfl rfl rfl rfl rfl rfl rfl⟩

theorem lowBits_of_lt {w : Nat} {v : Int} (h0 : 0 ≤ v) (h : v < 2 ^ w) : (lowBits w v : Int) = v := by
  rw [lowBits, Int.emod_eq_of_lt h0 (by push_cast; exact h)]
  exact Int.toNat_of_nonneg h0

theorem tempsTaken_temp {temps : List Int} (s : State) {i : Nat} (hi : i ∈ List.range 6) :
    (tempsTaken s temps).get (PM.TEMP_C16 i) = lowBits 16 (temps.getD i 0) := by
  obtain ⟨-, -, hhot, htemp, -⟩ := leaves_temps
  rw [tempsTaken, hotShown, putRow_other (fun d hd => hhot d hd i hi), tempsKept_get]
  exact putRow_get (x := fun i => lowBits 16 (temps.getD i 0)) hi (fun j hj hne => htemp j hj i hi hne) (show 0 + 16 ≤ 32 by decide) (lowBits_lt 16 _) s

theorem tempsTaken_hot {temps : List Int} (s : State) {d : Nat} (hd : d ∈ List.range 2) :
    (tempsTaken s temps).get (DRAM.STAT_HOT d) = b2n (decide (85 * 16 < temps.getD d 0)) := by
  obtain ⟨-, -, -, -, hhot⟩ := leaves_temps
  exact putRow_get (x := fun d => b2n (decide (85 * 16 < temps.getD d 0))) hd (fun j hj hne => hhot j hj d hd hne) (show 3 + 1 ≤ 32 by decide)
    (b2n_lt _) (tempsKept (tempsShown s temps) temps)

/-- What readings taken in leave. -/
theorem tempsTaken_keeps (s : State) (temps : List Int) : (tempsTaken s temps).safety = s.safety ∧ MemKept s (tempsTaken s temps) := by
  have hshown : OnlyRegs s (tempsShown s temps) := putRow_onlyRegs s
  have hhot : OnlyRegs (tempsKept (tempsShown s temps) temps) (tempsTaken s temps) := putRow_onlyRegs _
  obtain ⟨hsafety, hkept⟩ := tempsKept_keeps (tempsShown s temps) temps
  exact ⟨hhot.safety.trans (hsafety.trans hshown.safety), memKept_trans hshown.memKept (memKept_trans hkept hhot.memKept)⟩

/-! ### Rails, regulators and clocks -/

theorem exec_railCheck {t : Nat} {rail : Fin 12} {dev : RailDev} (hrun : s.Running t) (h : 4 ≤ rail.val ∨ s.on (PM.VCMP_EN rail) = true) :
    exec (.railCheck t rail dev) s = .next ((s.at_ t).finish (match dev with
      | .ok => s.at_ t
      | .under => (s.at_ t).raise PM.EVT_RAIL_UV 3
      | .over => (s.at_ t).raise PM.EVT_RAIL_OV 3)) := by
  refine exec_run_eq hrun.1 (rfl : _ = execRailCheck t rail dev s) ?_
  refine (if_neg ?_).trans (by cases dev <;> rfl)
  rw [Bool.and_eq_true, decide_eq_true_iff, hrun.2.2]
  rintro ⟨hlow, hoff⟩
  rcases h with hhigh | hon
  · exact absurd hlow (Nat.not_lt.2 hhigh)
  · rw [show (s.clock t).on (PM.VCMP_EN rail) = true from hon] at hoff
    exact absurd hoff (by decide)

theorem pmbAlert_one (s : State) : ([true].take 4).foldl (fun s f => if f then s.pmbusErr else s) s = s.pmbusErr := by
  rw [List.take_of_length_le (by decide), List.foldl_cons, if_pos rfl, List.foldl_nil]

/-- A clock event recorded and counted. -/
def clockNoted (s : State) (dom : Nat) : State := ((s.put CM.LAST_DOMAIN dom).set1 CM.LAST_VALID).bump CM.UNLOCK_CNT

theorem clockEvent_eq (s : State) (evt : Fld) (dom base : Nat) : s.clockEvent evt dom base =
    if bitOf (s.get CM.STAT_SPARE_USE) base then (clockNoted s dom).raise evt 3
    else (((clockNoted s dom).put CM.STAT_SPARE_USE (Nat.lor (s.get CM.STAT_SPARE_USE) (2 ^ base))).set1 CM.EVT_SPARE_SWITCH).raise evt 2 := by
  have huse : (clockNoted s dom).get CM.STAT_SPARE_USE = s.get CM.STAT_SPARE_USE := by
    rw [clockNoted, get_bump_other _ (by decide), get_set1_other _ (by decide), get_put_other _ (by decide)]
  rw [← huse]
  rfl

/-- Settles O46: readings in range, rails, the regulators, the reference, and the spare PLL; which base a PLL and a domain belong to is the model's
choice (assumption 88). -/
theorem powerMonitors : Obligations.PowerMonitors := by
  intro s t hrun x
  have hx : x = s.clock t := hrun.2.2
  refine ⟨fun temps hlen hrange => ?_, fun rail h => ⟨exec_railCheck hrun h, exec_railCheck hrun h, exec_railCheck hrun h⟩, ?_, ?_, ?_, ?_⟩
  · obtain ⟨hsafety, hmem⟩ := tempsTaken_keeps (s.clock t) temps
    have hcalm : tempAbove temps (((tempsTaken (s.clock t) temps).get PM.THERM_HI_C : Int) * 16) = false :=
      tempAbove_false (by omega) fun v hv => by rw [tempsTaken_high, clock_get]; exact (hrange v hv).2.1
    have htrip : tempAbove temps (130 * 16) = false := tempAbove_false (by decide) fun v hv => (hrange v hv).1
    refine completes_ends hrun (exec_thermalRead s t temps) (z := tempsTaken (s.clock t) temps) ?_ (by rw [hsafety]; exact hrun.2.1) fun u hu =>
      ⟨fun i => ?_, fun d => ?_, hu.flog.trans (by rw [hsafety]; rfl), hu.memKept (memKept_trans (clock_onlyMem s t) hmem)⟩
    · dsimp only
      rw [hcalm, htrip]
      rfl
    · have hi : i.val < temps.length := by rw [hlen]; exact i.isLt
      have hv : temps.getD i.val 0 ∈ temps := by
        rw [List.getD_eq_getElem _ _ hi]
        exact List.getElem_mem hi
      obtain ⟨hmax, -, hmin⟩ := hrange _ hv
      rw [hu.get, tempsTaken_temp _ (List.mem_range.2 i.isLt)]
      exact lowBits_of_lt hmin (by omega)
    · rw [hu.get]
      exact tempsTaken_hot _ (List.mem_range.2 d.isLt)
  · exact exec_run_eq hrun.1 (rfl : _ = execPmbAlert t [true] s) (pmbAlert_one (s.at_ t))
  · exact exec_run_eq hrun.1 (rfl : _ = execRefclkLost t s) rfl
  · intro pll y z use
    have hlock : x.get CM.STAT_PLL_LOCK = s.get CM.STAT_PLL_LOCK := by rw [hx, clock_get]
    have huse : y.get CM.STAT_SPARE_USE = use := (get_put_other x (by decide) _).trans (by rw [hx, clock_get])
    have hexec : exec (.pllUnlock t pll) s = .next (x.finish (if bitOf use (pllBase pll) then z.raise CM.EVT_PLL_UNLOCK 3
        else ((z.put CM.STAT_SPARE_USE (Nat.lor use (2 ^ pllBase pll))).set1 CM.EVT_SPARE_SWITCH).raise CM.EVT_PLL_UNLOCK 2)) := by
      rw [← huse]
      refine exec_run_eq hrun.1 (rfl : _ = execPllUnlock t pll s) (Eq.trans ?_ (clockEvent_eq y CM.EVT_PLL_UNLOCK (pllDomain pll) (pllBase pll)))
      rw [show (s.at_ t).get CM.STAT_PLL_LOCK = s.get CM.STAT_PLL_LOCK from hlock]
    exact ⟨fun h => hexec.trans (by rw [if_neg (by rw [h]; exact Bool.false_ne_true)]), fun h => hexec.trans (by rw [if_pos h])⟩
  · refine fun dom => ⟨fun hlo hhi => ?_, fun h => ?_⟩
    · refine exec_run_eq hrun.1 (rfl : _ = execClkWindow t dom s) (if_pos ?_)
      rw [decide_eq_true hlo, decide_eq_true hhi]
      rfl
    · refine exec_run_eq hrun.1 (rfl : _ = execClkWindow t dom s) (if_neg ?_)
      rw [Bool.and_eq_true, decide_eq_true_iff, decide_eq_true_iff]
      omega

end Sys2Proof.Proofs
end

section
/-! PROOFS. What moves the device between its states (R327, R349, R350, R434, R435, R438). -/

namespace Sys2Proof.Proofs

open Sys2Proof.Machine Sys2Proof.Laws

variable {s u v : State}

/-! ### The last Dawn step -/

/-- From `s` to `u` stays what the last Dawn step leaves of the parts outside the tiles; of the registers, whether the partner link is enabled. -/
structure CoreKept (s u : State) : Prop where
  dram : u.dram = s.dram
  sec : u.sec = s.sec
  hosts : u.hosts = s.hosts
  own : u.own = s.own
  outbox : u.outbox = s.outbox
  safety : u.safety = s.safety
  pins : u.pins = s.pins
  plk : u.reg PLK.CTRL_EN.addr = s.reg PLK.CTRL_EN.addr

namespace CoreKept

theorem refl (s : State) : CoreKept s s := ⟨rfl, rfl, rfl, rfl, rfl, rfl, rfl, rfl⟩

theorem trans (h : CoreKept s u) (h' : CoreKept u v) : CoreKept s v :=
  ⟨h'.dram.trans h.dram, h'.sec.trans h.sec, h'.hosts.trans h.hosts, h'.own.trans h.own, h'.outbox.trans h.outbox, h'.safety.trans h.safety,
    h'.pins.trans h.pins, h'.plk.trans h.plk⟩

theorem put {f : Fld} (h : CoreKept s u) (x : Nat) (hf : PLK.CTRL_EN.addr ≠ f.addr) : CoreKept s (u.put f x) :=
  h.trans ⟨rfl, rfl, rfl, rfl, rfl, rfl, rfl, reg_put_of_ne u hf x⟩

theorem set1 {f : Fld} (h : CoreKept s u) (hf : PLK.CTRL_EN.addr ≠ f.addr) : CoreKept s (u.set1 f) :=
  h.trans ⟨rfl, rfl, rfl, rfl, rfl, rfl, rfl, (set1_reg u f _).trans (reg_put_of_ne u hf 1)⟩

theorem on (h : CoreKept s u) : u.on PLK.CTRL_EN = s.on PLK.CTRL_EN := by rw [State.on, State.get, h.plk, State.on, State.get]

/-- An update of parts that the last Dawn step may change. -/
theorem parts {ms : MsSt} {ag : AgeSt} {pi : PipeSt} {tl : List TileSt} (h : CoreKept s u) :
    CoreKept s { u with ms := ms, age := ag, pipe := pi, tiles := tl } := h.trans ⟨rfl, rfl, rfl, rfl, rfl, rfl, rfl, rfl⟩

end CoreKept

theorem stopTiles_coreKept (s : State) : CoreKept s s.stopTiles :=
  .parts (.put (.parts (.put (.put (.parts (.refl s)) 0 (by decide)) 0 (by decide))) 0 (by decide))

/-- The tiles' pages and memories lost. -/
theorem tilePagesLost_coreKept (x : State) (tl : List TileSt) :
    CoreKept x { x with
      regs := x.regs.filter (fun e => e.1 < 0x100000), shadow := x.shadow.filter (fun e => e.1 < 0x100000)
      spd := [], tags := [], tiles := tl } := by
  refine ⟨rfl, rfl, rfl, rfl, rfl, rfl, rfl, ?_⟩
  have hfind := find_filter_of_pos (k := PLK.CTRL_EN.addr) (p := fun e => decide (e.1 < 0x100000)) (fun _ => decide_eq_true (show PLK.CTRL_EN.addr < 0x100000 by decide)) x.regs
  exact congrArg (fun w => (w.getD (x.dflt PLK.CTRL_EN.addr)).toNat) hfind

theorem tilesOff_coreKept (s : State) : CoreKept s s.tilesOff := .trans (.put (stopTiles_coreKept s) _ (by decide)) (tilePagesLost_coreKept _ _)

theorem setDev_coreKept (s : State) (d : Nat) : CoreKept s (s.setDev d) := by
  unfold State.setDev
  split
  · exact .refl s
  · exact .set1 (.put (.put (.parts (.refl s)) _ (by decide)) _ (by decide)) (by decide)

theorem setDev_spd (s : State) (d : Nat) : (s.setDev d).spd = s.spd ∧ (s.setDev d).tags = s.tags := by
  unfold State.setDev
  split
  · exact ⟨rfl, rfl⟩
  · exact ⟨by rw [set1_spd, put_spd, put_spd], by rw [set1_tags, put_tags, put_tags]⟩

/-- The pins after the last Dawn step. -/
def pinsRaised (s : State) : State := { s.faultN with pins := { s.faultN.pins with hbOut := true, faultN := true } }

theorem pinsRaised_eq (s : State) : pinsRaised s = { s with pins := { s.pins with hbOut := true, faultN := true } } := rfl

theorem pinsRaised_reg (s : State) (a : Nat) : (pinsRaised s).reg a = s.reg a := rfl

/-- The device after the last Dawn step, before the partner link. -/
def dawnOver (s : State) : State := pinsRaised (s.tilesOff.setDev dsReady)

theorem dawnOver_dev (s : State) : (dawnOver s).dev = dsReady := by
  rw [dawnOver, State.dev, get_reg_congr (funext (pinsRaised_reg _))]
  exact setDev_dev s.tilesOff (by decide)

theorem CoreKept.raised (h : CoreKept s u) : CoreKept { s with pins := { s.pins with hbOut := true, faultN := true } } (pinsRaised u) :=
  ⟨h.dram, h.sec, h.hosts, h.own, h.outbox, h.safety, by rw [pinsRaised_eq, h.pins], h.plk⟩

theorem dawnOver_core (s : State) : CoreKept { s with pins := { s.pins with hbOut := true, faultN := true } } (dawnOver s) :=
  ((tilesOff_coreKept s).trans (setDev_coreKept s.tilesOff dsReady)).raised

theorem pinsRaised_tiles (s : State) : (pinsRaised s).spd = s.spd ∧ (pinsRaised s).tags = s.tags := ⟨rfl, rfl⟩

theorem dawnOver_tiles (s : State) : (dawnOver s).spd = [] ∧ (dawnOver s).tags = [] := by
  obtain ⟨hspd, htags⟩ := setDev_spd s.tilesOff dsReady
  obtain ⟨hs, ht⟩ := pinsRaised_tiles (s.tilesOff.setDev dsReady)
  exact ⟨hs.trans hspd, ht.trans htags⟩

/-! ### Image verification -/

/-- A refused image: its code and its event. -/
def imageRefused (s : State) (n : Nat) : State := ((s.put SYS.IMG_STAT_BUSY 0).put SYS.IMG_STAT_CODE n).set1 SYS.EVT_IMG_FAIL

theorem judgeImage_refused {sigOk : Bool} (h : s.imageCode s.bufImage sigOk ≠ 0) : s.judgeImage sigOk 2 =
    imageRefused s (s.imageCode s.bufImage sigOk) := by
  unfold State.judgeImage
  dsimp only
  rw [if_neg h, imageRefused]

theorem imageRefused_onlyRegs (s : State) (n : Nat) : OnlyRegs s (imageRefused s n) := .set1 (.put (.put (.refl s) _ _) _ _) _

theorem imageRefused_code (s : State) (n : Nat) : (imageRefused s n).get SYS.IMG_STAT_CODE = n % 16 := by
  rw [imageRefused, get_set1_other _ (by decide)]
  exact get_put_self (s.put SYS.IMG_STAT_BUSY 0) SYS.IMG_STAT_CODE n (by decide)

theorem imageRefused_event (s : State) (n : Nat) : (imageRefused s n).on SYS.EVT_IMG_FAIL = true :=
  on_set1_self ((s.put SYS.IMG_STAT_BUSY 0).put SYS.IMG_STAT_CODE n) SYS.EVT_IMG_FAIL (by decide) rfl

theorem imageRefused_busy (s : State) (n : Nat) : (imageRefused s n).on SYS.IMG_STAT_BUSY = false := by
  rw [imageRefused, on_set1_other _ (by decide), on_put_other _ (by decide), State.on, get_put_self _ _ _ (by decide)]
  rfl

theorem imageRefused_regsBut (s : State) (n : Nat) : RegsBut [SYS.IMG_STAT.addr, SYS.EVT.addr] s (imageRefused s n) :=
  regsBut_set1 (by decide) (regsBut_put _ (by decide) (regsBut_put _ (by decide) (regsBut_refl _ s)))

/-- Settles O45: each command that moves the device, with its guard met; the fill of a Noon entry stands as at the entry by the model's choice
(assumption 65), and a verification that the entry finds running ends before it (assumption 113). -/
theorem deviceStateChanges : Obligations.DeviceStateChanges := by
  intro s t b hrun x
  have hx : x = s.clock t := hrun.2.2
  have hon (f : Fld) : x.on f = s.on f := by rw [hx, clock_on]
  have hdev : x.dev = s.dev := by rw [hx]; rfl
  have hsafety : x.safety = s.safety := by rw [hx]; rfl
  refine ⟨fun hready hentry hbusy => ?_, fun hready hentry hbusy => ?_, fun hmid hfill => ?_, fun hmid hfill => ?_, fun hdusk => ?_,
    fun hdawn hwaits hhead hplk => ?_, fun hbusy hcheck => ?_, fun hbusy hcheck hst => ?_⟩
  · refine exec_run_eq hrun.1 (rfl : _ = execNoonEntryComplete t b s) (when_false (s := x) ?_)
    rw [hon, hbusy, Bool.not_true, Bool.and_false]
  · have hguard : (decide (x.dev = dsReady) && x.safety.noonEntry && !x.on SYS.IMG_STAT_BUSY) = true := by
      rw [hon, hbusy, hdev, hsafety, hentry, decide_eq_true hready]
      rfl
    exact ⟨exec_run_eq hrun.1 (rfl : _ = execNoonEntryComplete t false s) ((when_true (s := x) hguard).trans (if_pos rfl)),
      exec_run_eq hrun.1 (rfl : _ = execNoonEntryComplete t true s) ((when_true (s := x) hguard).trans (if_neg Bool.false_ne_true))⟩
  · have hguard : (decide (x.dev = dsMidnight) && !x.safety.refilled) = true := by
      rw [hdev, hsafety, hfill, decide_eq_true hmid]
      rfl
    exact ⟨exec_run_eq hrun.1 (rfl : _ = execRefillComplete t true s) (when_true (s := x) hguard),
      exec_run_eq hrun.1 (rfl : _ = execRefillComplete t false s) (when_true (s := x) hguard)⟩
  · have hguard : (decide (x.dev = dsMidnight) && x.safety.refilled) = true := by
      rw [hdev, hsafety, hfill, decide_eq_true hmid]
      rfl
    exact ⟨exec_run_eq hrun.1 (rfl : _ = execRefillCheckDone t true none s) (when_true (s := x) hguard),
      exec_run_eq hrun.1 (rfl : _ = execRefillCheckDone t false none s) (when_true (s := x) hguard),
      fun g a => exec_run_eq hrun.1 (rfl : _ = execRefillCheckDone t b (some (g, a)) s) (when_true (s := x) hguard)⟩
  · have hdr : x.drained = s.drained := by rw [hx]; rfl
    refine ⟨fun hdrained => exec_run_eq hrun.1 (rfl : _ = execDrainComplete t b s) (when_true (s := x) ?_),
      fun hdrained hover => exec_run_eq hrun.1 (rfl : _ = execDuskTo t s) (when_true (s := x) ?_)⟩
    · rw [hdev, hdr, hdrained, decide_eq_true hdusk]
      rfl
    · have hover' : x.safety.duskAt + x.get PM.DUSK_MS * tickMs ≤ x.mono := by
        rw [hsafety, show x.get PM.DUSK_MS = s.get PM.DUSK_MS by rw [hx, clock_get]]
        exact hover
      rw [hdev, hdr, hdrained, decide_eq_true hdusk, decide_eq_true hover']
      rfl
  · have hcore := dawnOver_core (s.clock t)
    obtain ⟨hspd, htags⟩ := dawnOver_tiles (s.clock t)
    have hz : (if (dawnOver (s.clock t)).on PLK.CTRL_EN then
        ((dawnOver (s.clock t)).put PLK.STAT_STATE 1).pl (fun k => { k with hbAt := (dawnOver (s.clock t)).mono })
        else dawnOver (s.clock t)) = dawnOver (s.clock t) := if_neg (by
      rw [hcore.on]
      exact (Bool.eq_false_iff (b := s.on PLK.CTRL_EN)).1 hplk)
    have hguard : (decide ((s.clock t).dev = dsDawn) && (s.clock t).sec.waits.isNone && !(s.clock t).sec.fwHead.isEmpty) = true := by
      show (decide (s.dev = dsDawn) && s.sec.waits.isNone && !s.sec.fwHead.isEmpty) = true
      rw [decide_eq_true hdawn, hwaits, List.isEmpty_eq_false_iff.2 hhead]
      rfl
    refine completes_ends (z := dawnOver (s.clock t)) hrun (rfl : _ = execLastDawnStepComplete t s) ((when_true hguard).trans hz) ?_ fun u hu =>
      ⟨hu.dev.trans (dawnOver_dev _), hu.pins.trans hcore.pins, hu.spd.trans hspd, hu.tags.trans htags, hu.dram.trans hcore.dram,
        hu.sec.trans hcore.sec, hu.hosts.trans hcore.hosts, ?_, hu.outbox.trans hcore.outbox⟩
    · rw [hcore.safety]
      exact hrun.2.1
    · rw [hu.owner, hcore.own]
      rfl
  · refine exec_run_eq hrun.1 (rfl : _ = execImageVerifyDone t b s) (when_false (s := x) ?_)
    rw [show x.headCheck = true by rw [hx]; exact hcheck, Bool.not_true, Bool.and_false, Bool.false_and]
  · have hguard : (x.on SYS.IMG_STAT_BUSY && !x.headCheck && (decide (x.dev = dsDawn) || decide (x.dev = dsReady) || decide (x.dev = dsHold))) = true := by
      rw [hon, hbusy, show x.headCheck = false by rw [hx]; exact hcheck, hdev]
      simp only [Bool.not_false, Bool.and_true, Bool.true_and, Bool.or_eq_true, decide_eq_true_eq, or_assoc]
      exact hst
    refine ⟨fun hcode => ?_, exec_run_eq hrun.1 (rfl : _ = execImageVerifyDone t b s) (when_true (s := x) hguard)⟩
    have honly := imageRefused_onlyRegs x (x.imageCode x.bufImage b)
    refine completes_at hrun.1 (rfl : _ = execImageVerifyDone t b s) ((when_true (s := x) hguard).trans (judgeImage_refused hcode)) ?_ fun u hu =>
      ⟨(hu.get _).trans (imageRefused_code _ _), (hu.on _).trans (imageRefused_event _ _), (hu.on _).trans (imageRefused_busy _ _), hu.image.trans (honly.image.trans (by rw [hx]; rfl)),
        hu.regsBut (regsBut_trans (by rw [hx]; exact regsBut_clock _ s t) (imageRefused_regsBut _ _)),
        hu.memKept (memKept_trans (by rw [hx]; exact clock_onlyMem s t) honly.memKept)⟩
    rw [honly.safety, hsafety]
    exact hrun.2.1

end Sys2Proof.Proofs
end

section
/-! PROOFS. ERAP frames taken and executed (R306, R313 to R319, R323, R324, R326 to R329). -/

namespace Sys2Proof.Proofs

open Sys2Proof.Machine Sys2Proof.Laws

variable {s u v : State}

/-! ### A frame taken -/

/-- The frame of a datagram on port `p`, accepted at `at_`. -/
def erapOf (p : Nat) (d : Datagram) (at_ : Nat) : ErapFrame :=
  { port := p, srcMac := d.srcMac, srcIp := d.srcIp, srcUdp := d.srcUdp, payload := d.payload, arrived := at_, chan := none, own := false }

/-- The frame carries the owner's token. -/
def erapMine (x : State) (f : ErapFrame) : Bool := decide (16 ≤ f.payload.length) && x.owns f.client && f.token = x.own.token

/-- The lease renewed where the frame carries the owner's token. -/
def leaseKept (x : State) (f : ErapFrame) : State := if erapMine x f then x.renewLease else x

/-- The frame queued behind those of `q`. -/
def erapQueued (x : State) (f : ErapFrame) (q : List ErapFrame) : State :=
  { (leaseKept x f).noteClient f with erapQ := insFrame { f with own := erapMine x f } q }

/-- The frame of a datagram with the receive channel that it came through. -/
def erapFrom (x : State) (p : Nat) (d : Datagram) (sec : SecInfo) : ErapFrame :=
  { port := p, srcMac := d.srcMac, srcIp := d.srcIp, srcUdp := d.srcUdp, payload := d.payload, arrived := x.mono
    chan := if x.secOn p then x.rxChan p sec.sci else none, own := false }

theorem exec_erapFrame (s : State) (t : Nat) (p : Fin 2) (d : Datagram) (sec : SecInfo) : exec (.erapFrame t p d sec) s =
    run t (fun s => s.hostRx p sec (fun s => s.when (frameTaken d sec.protected_ && d.dstUdp = s.get (HS.ERAP_UDP_PORT p)) (fun s =>
      if 16 ≤ (s.erapQ.filter (fun f => f.port = p.val)).length then s.bump SYS.ERAP_DROP_CNT
      else (erapQueued s (erapFrom s p d sec) ((leaseKept s (erapFrom s p d sec)).noteClient (erapFrom s p d sec)).erapQ).erapNext))) s := rfl

theorem leaseKept_erapQ (x : State) (f : ErapFrame) : (leaseKept x f).erapQ = x.erapQ := by
  unfold leaseKept
  split <;> rfl

theorem noteClient_erapQ (x : State) (f : ErapFrame) : (x.noteClient f).erapQ = x.erapQ := by
  unfold State.noteClient
  split
  · rfl
  · rw [ow_erapQ, put_erapQ]

theorem leaves_erapPort : ∀ p : Fin 2, Leaves (HS.RX_CNT p) (HS.ERAP_UDP_PORT p) := by decide

theorem exec_erapFrame_plain {t : Nat} {p : Fin 2} {d : Datagram} {sec : SecInfo} (hrun : s.Running t) (hlink : s.on (HS.STAT_LINK p) = true)
    (hsec : s.secOn p = false) (hplain : sec.protected_ = false) (hdst : d.dstUdp = s.get (HS.ERAP_UDP_PORT p)) :
    exec (.erapFrame t p d sec) s = .next ((s.at_ t).finish
      (if frameTaken d false then
        if 16 ≤ (s.erapQ.filter (fun f => f.port = p.val)).length then ((s.at_ t).bump (HS.RX_CNT p)).bump SYS.ERAP_DROP_CNT
        else (erapQueued ((s.at_ t).bump (HS.RX_CNT p)) (erapOf p d ((s.at_ t).bump (HS.RX_CNT p)).mono) s.erapQ).erapNext
      else (s.at_ t).bump (HS.RX_CNT p))) := by
  have hx : s.at_ t = s.clock t := hrun.2.2
  have hq : ((s.at_ t).bump (HS.RX_CNT p)).erapQ = s.erapQ := by rw [bump_erapQ, hx]; rfl
  have hport : d.dstUdp = ((s.at_ t).bump (HS.RX_CNT p)).get (HS.ERAP_UDP_PORT p) := by
    rw [get_bump_other _ (leaves_erapPort p), hx, clock_get]
    exact hdst
  have hsec' : ((s.at_ t).bump (HS.RX_CNT p)).secOn p = false := by rw [secOn_rxCnt, hx]; exact hsec
  refine exec_run_eq hrun.1 (exec_erapFrame s t p d sec) ((hostRx_plain _ (by rw [hx]; exact hlink) (by rw [hx]; exact hsec) hplain).trans ?_)
  by_cases htaken : frameTaken d false = true
  · refine (when_true ?_).trans ?_
    · rw [hplain, htaken, decide_eq_true hport]
      rfl
    · have hf : erapFrom ((s.at_ t).bump (HS.RX_CNT p)) p d sec = erapOf p d ((s.at_ t).bump (HS.RX_CNT p)).mono := by
        rw [erapFrom, hsec']
        rfl
      rw [if_pos htaken, noteClient_erapQ, leaseKept_erapQ, hq, hf]
  · refine (when_false ?_).trans (if_neg htaken).symm
    rw [hplain, Bool.eq_false_iff.2 htaken]
    rfl

theorem flushBad_version {f : ErapFrame} (hbad : f.bad = frBadVersion) :
    s.flushBad [f] = { s.erapTx f (f.respond frBadVersion 0 f.body) with erapQ := [] } := by
  rw [State.flushBad, hbad, if_pos (by decide), if_neg (by decide), State.flushBad]

theorem flushBad_format {f : ErapFrame} (hbad : f.bad = frBadFormat) :
    s.flushBad [f] = { ((s.bump SYS.ERAP_BAD_CNT).set1 (HS.EVT_ERAP_BAD f.port)).erapTx f (f.respond frBadFormat 0 f.body) with erapQ := [] } := by
  rw [State.flushBad, hbad, if_pos (by decide), if_pos rfl, State.flushBad]

theorem noteClient_of_bad {f : ErapFrame} (hbad : f.bad ≠ 0) : s.noteClient f = s := if_pos hbad

theorem queuedAlone_next {f : ErapFrame} (hbad : f.bad = 0) (hnew : s.replayOf f = none) :
    ({ s with erapQ := [f] } : State).erapNext = { s with erapQ := [f] } :=
  erapNext_of_clean (s := { s with erapQ := [f] }) (q := []) rfl hbad hnew

/-- Settles O42: a frame of a port without MACsec, queued, dropped, executable or answered as malformed; that a malformed one is answered at the
front of the queue is the model's choice (assumption 48). -/
theorem erapFrameTaken : Obligations.ErapFrameTaken := by
  intro s t p d sec hrun hlink hsec hplain hdst x f mine g y noted takes
  have hexec := exec_erapFrame_plain (d := d) hrun hlink hsec hplain hdst
  have hmine : erapMine x f = mine := rfl
  have hkept : leaseKept x f = y := rfl
  have hnoted (hbad : f.bad = 0) : (leaseKept x f).noteClient f = noted := if_neg (not_not.2 hbad)
  refine ⟨fun htaken => ?_, fun htaken => ?_⟩
  · rw [if_neg (by rw [htaken]; exact Bool.false_ne_true)] at hexec
    exact hexec
  · rw [if_pos htaken] at hexec
    have hroom (h : (s.erapQ.filter (fun f => f.port = p.val)).length < 16) : takes (erapQueued x f s.erapQ).erapNext := by
      rw [if_neg (Nat.not_le.2 h)] at hexec
      exact hexec
    have hnone (h : s.erapQ = []) : takes (erapQueued x f []).erapNext := by
      have := hroom (by rw [h]; exact Nat.zero_lt_succ 15)
      rwa [h] at this
    refine ⟨fun hfull => ?_, fun hlt => ?_, fun hempty hbad hnew => ?_, fun hempty hbad => ?_, fun hempty hbad => ?_⟩
    · rw [if_pos hfull] at hexec
      exact hexec
    · have hq : erapQueued x f s.erapQ = { (if f.bad = 0 then noted else y) with erapQ := insFrame g s.erapQ } := by
        by_cases hbad : f.bad = 0
        · rw [erapQueued, hnoted hbad, if_pos hbad]
          rfl
        · rw [erapQueued, noteClient_of_bad hbad, if_neg hbad]
          rfl
      rw [← hq]
      exact hroom hlt
    · have hq : erapQueued x f [] = { noted with erapQ := [g] } := by rw [erapQueued, hnoted hbad]; rfl
      have := hnone hempty
      rw [hq, queuedAlone_next (s := noted) (f := g) hbad hnew] at this
      exact this
    · intro z
      have hq : erapQueued x f [] = z := by
        rw [erapQueued, noteClient_of_bad (by rw [hbad]; decide)]
        rfl
      have := hnone hempty
      rw [hq, State.erapNext, show z.erapQ = [g] from rfl, flushBad_version (f := g) hbad] at this
      exact this
    · intro z w
      have hq : erapQueued x f [] = z := by
        rw [erapQueued, noteClient_of_bad (by rw [hbad]; decide)]
        rfl
      have := hnone hempty
      rw [hq, State.erapNext, show z.erapQ = [g] from rfl, flushBad_format (f := g) hbad] at this
      exact this

/-! ### The front frame executed -/

section
variable {f : ErapFrame} {q : List ErapFrame} {t : Nat} (hrun : s.Running t) (hq : s.erapQ = f :: q) (hbad : f.bad = 0)
  (hnew : (s.at_ t).replayOf f = none)
include hrun hq hbad hnew

theorem exec_onFront {c : Instr} {kind : ErapFrame → Bool} {g : ErapFrame → State → State}
    (he : exec c s = run t (fun s => s.onFront kind g) s) (hkind : kind f = true) : exec c s = .next ((s.at_ t).finish (g f (s.at_ t))) :=
  exec_run_eq hrun.1 he (onFront_of_clean g (q := q) (by rw [hrun.2.2]; exact hq) hbad hnew hkind)

/-- A frame that acts for the owner. -/
theorem exec_owned {c : Instr} {kind : ErapFrame → Bool} {act : ErapFrame → State → Nat × State}
    (he : exec c s = run t (fun s => s.onFront kind fun x s => s.owned x (act x)) s) (hkind : kind f = true) :
    exec c s = .next ((s.at_ t).finish ((s.at_ t).owned f (act f))) := exec_onFront hrun hq hbad hnew he hkind
end

theorem owned_of_not_frameOwns {f : ErapFrame} (g : State → Nat × State) (h : (s.taken f).frameOwns f = false) :
    s.owned f g = (s.taken f).answer f frNotOwner 0 f.body := by
  rw [State.owned, h]
  rfl

theorem countFrame_ownership (s : State) (f : ErapFrame) : (countFrame s f).own.owner = s.own.owner ∧ (countFrame s f).own.token = s.own.token := by
  have hown : (({ s with erapQ := s.erapQ.drop 1 } : State).bump SYS.ERAP_RX_CNT).own = s.own := bump_own _ _
  rw [countFrame, ow_own, hown]
  exact ⟨rfl, rfl⟩

theorem exec_loadMap (s : State) (t : Nat) : exec (.loadMap t) s = run t (fun s => s.onFront (fun x => x.type = 6 && x.target = 1) fun x s =>
    if s.applying && s.frameOwns x then s else s.owned x (fun s => s.loadRows x)) s := rfl

/-- An ACCESS frame executed. -/
def accessTold (x : ErapFrame) (s : State) : State :=
  let (b, s) := s.entries (s.frameOwns x) x.body x.count
  s.answer x frOk 0 b

theorem accessTold_eq (x : ErapFrame) (s : State) : accessTold x s = (s.entries (s.frameOwns x) x.body x.count).2.answer x frOk 0
    (s.entries (s.frameOwns x) x.body x.count).1 := by
  unfold accessTold
  generalize s.entries (s.frameOwns x) x.body x.count = r
  obtain ⟨b, y⟩ := r
  rfl

theorem exec_access (s : State) (t : Nat) : exec (.access t) s = run t (fun s => s.onFront (fun x => x.type = 1) fun x s =>
    accessTold x (s.taken x)) s := rfl

/-- What a claim at the front comes to. -/
def claimTold (x : ErapFrame) (z : State) : State :=
  match z.claim { m := x.client, prio := fieldB x.body 0 1, nonce := fieldB x.body 4 4, req := some x } x.arrived with
  | (.answer st tok, s) => s.answer x st tok s.claimBody
  | (_, s) => s.erapNext

/-- A claim left where it waits, else made. -/
def claimMade (r : ClaimRes) (left made : State) : State :=
  match r with
  | .waits => left
  | _ => made

theorem exec_claim (s : State) (t : Nat) : exec (.claim t) s = run t (fun s => s.onFront (fun x => x.type = 2) fun x s =>
    claimMade (s.claim { m := x.client, prio := fieldB x.body 0 1, nonce := fieldB x.body 4 4, req := some x } x.arrived).1 s
      (claimTold x (s.taken x))) s := rfl

theorem taken_ownership (s : State) (f : ErapFrame) : (s.taken f).own.owner = s.own.owner ∧ (s.taken f).own.token = s.own.token := by
  obtain h | h := taken_cases s f
  · rw [h]
    exact countFrame_ownership s f
  · rw [h, bump_own]
    exact countFrame_ownership s f

theorem taken_frameOwns (s : State) (f : ErapFrame) : (s.taken f).frameOwns f = s.frameOwns f := by
  obtain ⟨howner, htoken⟩ := taken_ownership s f
  rw [State.frameOwns, howner, htoken, State.frameOwns]

/-- A claim waits for the random source only while another master owns the device. -/
theorem claim_not_waits {c : Claim} {a : Nat} (h : s.own.owner = none ∨ s.own.owner = some c.m) : (s.claim c a).1 ≠ .waits := by
  have hlease : s.leaseEnds.own.owner = none ∨ s.leaseEnds.own.owner = some c.m := by
    unfold State.leaseEnds
    split
    · rw [raise_own]
      exact .inl rfl
    · exact h
  have hoffer : s.leaseEnds.offerLapses.own.owner = none ∨ s.leaseEnds.offerLapses.own.owner = some c.m := by
    unfold State.offerLapses
    split
    · exact hlease
    · split
      · exact hlease
      · exact hlease
  unfold State.claim
  dsimp only
  split
  · exact nofun
  · rcases hoffer with hnone | hown
    · rw [hnone]
      exact nofun
    · rw [hown]
      dsimp only
      rw [if_pos rfl]
      exact nofun

theorem claimMade_of_not_waits {r : ClaimRes} (h : r ≠ .waits) : claimMade r s u = u := by
  cases r with
  | waits => exact absurd rfl h
  | answer st tok => rfl
  | held => rfl

/-- Settles O43: each kind of frame at the front of the queue, for the owner and for anyone else. -/
theorem framesExecute : Obligations.FramesExecute := by
  intro s t f q hrun hq hbad z hnew x
  have howned {c : Instr} {kind : ErapFrame → Bool} {act : ErapFrame → State → Nat × State}
      (he : exec c s = run t (fun s => s.onFront kind fun x s => s.owned x (act x)) s) (hkind : kind f = true) :
      (x.frameOwns f = true → exec c s = .next (z.finish ((act f x).2.answer f (act f x).1 0 f.body))) ∧
        (x.frameOwns f = false → exec c s = .next (z.finish (x.answer f frNotOwner 0 f.body))) := by
    have hexec := exec_owned hrun hq hbad hnew he hkind
    exact ⟨fun h => hexec.trans (by rw [owned_of_frameOwns _ h]), fun h => hexec.trans (by rw [owned_of_not_frameOwns _ h])⟩
  have hmap (hkind : (f.type = 6 && f.target = 1) = true) : exec (.loadMap t) s = .next (z.finish
      (if z.applying && z.frameOwns f then z else z.owned f (fun s => s.loadRows f))) :=
    exec_onFront hrun hq hbad hnew (exec_loadMap s t) hkind
  refine ⟨fun htype => ?_, fun c kind act hmem hkind => ?_, fun htype htarget howns happly => ?_, fun htype => ?_⟩
  · intro r
    refine (exec_onFront hrun hq hbad hnew (exec_access s t) (decide_eq_true htype)).trans ?_
    rw [accessTold_eq]
  · simp only [List.mem_cons, List.not_mem_nil, or_false, Prod.mk.injEq] at hmem
    rcases hmem with ⟨rfl, rfl, rfl⟩ | ⟨rfl, rfl, rfl⟩ | ⟨rfl, rfl, rfl⟩ | ⟨rfl, rfl, rfl⟩ | ⟨rfl, rfl, rfl⟩ | ⟨rfl, rfl, rfl⟩
    · obtain ⟨hyes, hno⟩ := howned (c := .renew t) (kind := fun x => x.type = 3) (act := fun _ s => (frOk, s)) rfl hkind
      exact ⟨fun h _ => hyes h, hno⟩
    · obtain ⟨hyes, hno⟩ := howned (c := .release t) (kind := fun x => x.type = 4) (act := fun _ s => (frOk, s.release)) rfl hkind
      exact ⟨fun h _ => hyes h, hno⟩
    · obtain ⟨hyes, hno⟩ := howned (c := .handover t) (kind := fun x => x.type = 5) (act := fun x s => s.handover (fieldB x.body 0 1)) rfl hkind
      exact ⟨fun h _ => hyes h, hno⟩
    · obtain ⟨hyes, hno⟩ := howned (c := .loadImage t) (kind := fun x => x.type = 6 && x.target = 0) (act := fun x s => s.loadImg x) rfl hkind
      exact ⟨fun h _ => hyes h, hno⟩
    · refine ⟨fun h hfree => (hmap hkind).trans ?_, fun h => (hmap hkind).trans ?_⟩
      · rw [hfree rfl, Bool.false_and, if_neg Bool.false_ne_true, owned_of_frameOwns _ h]
      · rw [← taken_frameOwns, h, Bool.and_false, if_neg Bool.false_ne_true, owned_of_not_frameOwns _ h]
    · obtain ⟨hyes, hno⟩ := howned (c := .loadRecovery t) (kind := fun x => x.type = 6 && x.target = 2) (act := fun x s => s.loadRec x) rfl hkind
      exact ⟨fun h _ => hyes h, hno⟩
  · refine (hmap (by rw [decide_eq_true htype, decide_eq_true htarget]; rfl)).trans ?_
    rw [happly, ← taken_frameOwns, howns]
    rfl
  · intro c r howner
    have hwait : (z.claim c f.arrived).1 ≠ .waits := claim_not_waits howner
    have hexec : exec (.claim t) s = .next (z.finish (claimTold f x)) := by
      refine (exec_onFront hrun hq hbad hnew (exec_claim s t) (decide_eq_true htype)).trans ?_
      rw [claimMade_of_not_waits hwait]
    refine ⟨fun st tok hr => hexec.trans ?_, fun hr => hexec.trans ?_⟩
    · rw [claimTold, show x.claim c f.arrived = (.answer st tok, r.2) from Prod.ext hr rfl]
    · rw [claimTold, show x.claim c f.arrived = (.held, r.2) from Prod.ext hr rfl]

end Sys2Proof.Proofs
end

section
/-! PROOFS. The partner link: its session, what ends it and the automatic reset (R393, R395 to R397, R407 to R410). -/

namespace Sys2Proof.Proofs

open Sys2Proof.Machine Sys2Proof.Laws

variable {s u v : State}

theorem guard_last {a : Bool} {q : Prop} [Decidable q] (ha : a = true) (hq : q) : (a && decide q) = true := by rw [ha, decide_eq_true hq]; rfl

/-! ### What sending and acknowledging leave unchanged -/

/-- `u` is `s` but for the link's own state and what has been sent. -/
def OnlyLink (s u : State) : Prop := u = { s with plk := u.plk, outbox := u.outbox }

namespace OnlyLink

theorem refl (s : State) : OnlyLink s s := rfl

theorem trans (h : OnlyLink s u) (h' : OnlyLink u v) : OnlyLink s v := by
  rw [OnlyLink, h', h]

theorem pl (h : OnlyLink s u) (f : PlkSt → PlkSt) : OnlyLink s (u.pl f) := h.trans rfl

theorem emit (h : OnlyLink s u) (e : Emit) : OnlyLink s (u.emit e) := h.trans rfl

theorem image (h : OnlyLink s u) : u.image = s.image := by rw [h]

end OnlyLink

theorem linkPut_onlyLink (s : State) (b : LinkBody) : OnlyLink s (s.linkPut b) := ((OnlyLink.refl s).pl _).emit _

theorem linkDrain_onlyLink (n : Nat) : ∀ s : State, OnlyLink s (s.linkDrain n) := by
  induction n with
  | zero => exact fun s => OnlyLink.refl s
  | succ n ih =>
    intro s
    rw [State.linkDrain]
    split
    · exact OnlyLink.refl s
    · split
      · exact OnlyLink.refl s
      · exact (((OnlyLink.refl s).pl _).trans (linkPut_onlyLink _ _)).trans (ih _)

theorem linkSend_onlyLink (s : State) (b : LinkBody) : OnlyLink s (s.linkSend b) :=
  ((OnlyLink.refl s).pl _).trans (linkDrain_onlyLink _ _)

theorem linkAck_onlyLink (s : State) (ack : Nat) : OnlyLink s (s.linkAck ack) :=
  ((OnlyLink.refl s).pl _).trans (linkDrain_onlyLink _ _)

theorem sendHello_onlyLink (s : State) : OnlyLink s s.sendHello := ((OnlyLink.refl s).pl _).trans (linkSend_onlyLink _ _)

/-! ### The session -/

theorem leaves_lanes : Leaves PLK.STAT_LANES PLK.STAT_STATE ∧ Leaves PLK.STAT_STATE PLK.STAT_LANES := by decide

/-- The lanes shown with lane `l` added. -/
def laneShown (s : State) (l : Nat) : State := s.put PLK.STAT_LANES (Nat.lor (s.get PLK.STAT_LANES) (2 ^ l))

theorem laneShown_alive (s : State) (l : Nat) : (laneShown s l).linkAlive = s.linkAlive := by
  rw [State.linkAlive, laneShown, get_put_other s leaves_lanes.1, State.linkAlive]

/-- A session begun by a lane that serves. -/
def sessionAsked (y : State) : State := ((y.put PLK.STAT_STATE 2).pl (fun k => { k with rxSeq := 0, lastRx := y.mono })).sendHello

theorem exec_laneLock (s : State) (t : Nat) (l : Fin 3) : exec (.laneLock t l) s = run t (fun s => s.when (s.linkRuns && s.laneServes l)
    (fun s => if (laneShown s l).linkAlive then laneShown s l else sessionAsked (laneShown s l))) s := rfl

theorem exec_laneLock_serves {t : Nat} {l : Fin 3} (hrun : s.Running t) (hl : s.linkRuns = true) (hs : s.laneServes l = true) :
    exec (.laneLock t l) s = .next ((s.at_ t).finish
      (if s.linkAlive then laneShown (s.at_ t) l else sessionAsked (laneShown (s.at_ t) l))) := by
  refine exec_run_eq hrun.1 (exec_laneLock s t l) ?_
  rw [hrun.2.2]
  exact (when_true (show (s.linkRuns && s.laneServes l) = true by rw [hl, hs]; rfl)).trans (by rw [laneShown_alive]; rfl)

/-- The lanes shown with lane `l` taken away, and a start given up with the last of them. -/
def laneGone (s : State) (l : Nat) : State := s.put PLK.STAT_LANES (withBits (s.get PLK.STAT_LANES) l 1 0)

theorem exec_laneLockLoss (s : State) (t : Nat) (l : Fin 3) : exec (.laneLockLoss t l) s = run t (fun s =>
    if (laneGone s l).get PLK.STAT_LANES = 0 && (laneGone s l).get PLK.STAT_STATE = 2 then (laneGone s l).put PLK.STAT_STATE 1
    else laneGone s l) s := rfl

theorem withBits_zero_lt {x lo w n : Nat} (hx : x < 2 ^ n) : withBits x lo w 0 < 2 ^ n := by
  refine Nat.lt_pow_two_of_testBit _ fun i hi => ?_
  rw [testBit_withBits]
  split
  · exact Nat.zero_testBit _
  · exact Nat.testBit_lt_two_pow (lt_of_lt_of_le hx (Nat.pow_le_pow_right Nat.two_pos hi))

theorem laneGone_lanes (s : State) (l : Nat) : (laneGone s l).get PLK.STAT_LANES = withBits (s.get PLK.STAT_LANES) l 1 0 :=
  get_put_of_lt (show PLK.STAT_LANES.lo + PLK.STAT_LANES.w ≤ 32 by decide) (withBits_zero_lt (get_lt s PLK.STAT_LANES))

theorem laneGone_state (s : State) (l : Nat) : (laneGone s l).get PLK.STAT_STATE = s.get PLK.STAT_STATE := get_put_other s leaves_lanes.1 _

/-- A lane lost, with the search begun again where it was the last of a start. -/
def laneLost (s : State) (l : Nat) : State :=
  if withBits (s.get PLK.STAT_LANES) l 1 0 = 0 ∧ s.get PLK.STAT_STATE = 2 then (laneGone s l).put PLK.STAT_STATE 1 else laneGone s l

theorem laneLost_state (s : State) (l : Nat) : (laneLost s l).get PLK.STAT_STATE =
    if withBits (s.get PLK.STAT_LANES) l 1 0 = 0 ∧ s.get PLK.STAT_STATE = 2 then 1 else s.get PLK.STAT_STATE := by
  unfold laneLost
  split
  · exact get_put_of_lt (show PLK.STAT_STATE.lo + PLK.STAT_STATE.w ≤ 32 by decide) (show 1 < 2 ^ PLK.STAT_STATE.w by decide)
  · exact laneGone_state s l

theorem laneLost_lanes (s : State) (l : Nat) : (laneLost s l).get PLK.STAT_LANES = withBits (s.get PLK.STAT_LANES) l 1 0 := by
  unfold laneLost
  split
  · exact (get_put_other _ leaves_lanes.2 _).trans (laneGone_lanes s l)
  · exact laneGone_lanes s l

theorem laneLost_onlyRegs (s : State) (l : Nat) : OnlyRegs s (laneLost s l) :=
  .ite (.put (.put (.refl s) _ _) _ _) (.put (.refl s) _ _)

theorem laneLost_regsBut (s : State) (l : Nat) : RegsBut [PLK.STAT.addr] s (laneLost s l) := by
  have hgone : RegsBut [PLK.STAT.addr] s (laneGone s l) := regsBut_put _ (by decide) (regsBut_refl _ s)
  unfold laneLost
  split
  · exact regsBut_put _ (by decide) hgone
  · exact hgone

theorem laneLockLoss_completes {t : Nat} (l : Fin 3) (hrun : s.Running t) {P : State → Prop}
    (hP : ∀ u, Ends (laneLost (s.clock t) l) u → P u) : Completes (.laneLockLoss t l) s P := by
  refine completes_ends hrun (exec_laneLockLoss s t l) ?_ (by rw [(laneLost_onlyRegs _ _).safety]; exact hrun.2.1) hP
  rw [laneGone_lanes, laneGone_state, laneLost]
  exact if_congr (by rw [Bool.and_eq_true, decide_eq_true_iff, decide_eq_true_iff]) rfl rfl

/-- HELLO heard: taken as the session's first frame, and what it acknowledges done. -/
def helloHeard (x : State) (hd : LinkHdr) : State := (x.pl (fun k => { k with rxSeq := hd.lseq, lastRx := x.mono })).linkAck hd.ack

/-- A HELLO of the own role. -/
def roleClash (up : Bool) (w : State) : State := (if up then w.sessionEnd else w).raise PLK.EVT_ROLE_CONFLICT 1

/-- The session that a HELLO of the other role starts. -/
def sessionBegun (up : Bool) (y : State) (remote : Nat) : State :=
  (if up then y.sendHello else y).sessionStart.pl (fun k => { k with remote := remote })

/-- The partner's image compared with the own, and the slots of both with each other. -/
def imageCompared (z : State) (digest own : Nat) : State :=
  (List.range 8).foldl (fun s i => s.slotClash i)
    ((z.put PLK.STAT_IMG_MATCH (b2n (digest = own))).set1If (!decide (digest = own)) PLK.EVT_IMG_MISMATCH)

theorem exec_hello (s : State) (t : Nat) (hd : LinkHdr) (h : HelloInfo) : exec (.hello t hd h) s = run t (fun s =>
    if !s.linkAlive then s
    else if !hd.crcOk then s.bump PLK.CRC_ERR_CNT
    else if b2n h.role = (helloHeard s hd).get SYS.STATE_PAIR_ROLE then roleClash s.linkUp ((helloHeard s hd).put PLK.STAT_STATE 2)
    else imageCompared (sessionBegun s.linkUp (helloHeard s hd) (h.local_ % 256)) h.digest
      (beNat (sessionBegun s.linkUp (helloHeard s hd) (h.local_ % 256)).imageDigest)) s := rfl

/-- The session's answer to a HELLO whose CRC holds, by the partner's role. -/
def helloTaken (x : State) (hd : LinkHdr) (h : HelloInfo) : State :=
  if b2n h.role = (helloHeard x hd).get SYS.STATE_PAIR_ROLE then roleClash x.linkUp ((helloHeard x hd).put PLK.STAT_STATE 2)
  else imageCompared (sessionBegun x.linkUp (helloHeard x hd) (h.local_ % 256)) h.digest
    (beNat (sessionBegun x.linkUp (helloHeard x hd) (h.local_ % 256)).imageDigest)

theorem exec_hello_taken {t : Nat} {hd : LinkHdr} {h : HelloInfo} (hr : s.released = true) (halive : (s.at_ t).linkAlive = true)
    (hcrc : hd.crcOk = true) : exec (.hello t hd h) s = .next ((s.at_ t).finish (helloTaken (s.at_ t) hd h)) := by
  refine exec_run_eq hr (exec_hello s t hd h) ((if_neg ?_).trans ((if_neg ?_).trans rfl))
  · rw [halive]
    exact Bool.false_ne_true
  · rw [hcrc]
    exact Bool.false_ne_true

theorem sessionStart_image (y : State) : y.sessionStart.image = y.image := by
  rw [State.sessionStart, pl_image, tm_image, put_image, set1_image, put_image]

theorem sessionBegun_image (x : State) (up : Bool) (hd : LinkHdr) (n : Nat) : (sessionBegun up (helloHeard x hd) n).image = x.image := by
  have hheard : (helloHeard x hd).image = x.image := (linkAck_onlyLink _ _).image
  rw [sessionBegun, pl_image, sessionStart_image]
  split
  · exact (sendHello_onlyLink _).image.trans hheard
  · exact hheard

/-! ### IDLE, retransmission and the heartbeat -/

/-- `l` sent, in order. -/
def told (y : State) (l : List Emit) : State := { y with outbox := y.outbox ++ l }

theorem told_get (y : State) (l : List Emit) (f : Fld) : (told y l).get f = y.get f := rfl
theorem told_plk (y : State) (l : List Emit) : (told y l).plk = y.plk := rfl
theorem told_outbox (y : State) (l : List Emit) : (told y l).outbox = y.outbox ++ l := rfl
theorem told_safety (y : State) (l : List Emit) : (told y l).safety = y.safety := rfl
theorem told_regsBut {a : List Nat} (l : List Emit) (h : RegsBut a s u) : RegsBut a s (told u l) := h
theorem told_memKept (y : State) (l : List Emit) : MemKept y (told y l) := memKept_of rfl rfl rfl rfl rfl rfl rfl rfl
theorem pl_memKept (y : State) (f : PlkSt → PlkSt) : MemKept y (y.pl f) := memKept_of rfl rfl rfl rfl rfl rfl rfl rfl

theorem pl_regsBut {a : List Nat} (f : PlkSt → PlkSt) (h : RegsBut a s u) : RegsBut a s (u.pl f) := h

/-- The frames not yet acknowledged, sent again at `at_`. -/
def resent (at_ : Nat) (k : PlkSt) : PlkSt := { k with lastTx := at_, replay := k.replay.map (fun f => { f with at_ := at_ }) }

/-- The frames sent again, each with what has been received since. -/
def sentAgain (s : State) : State :=
  told ((s.bump PLK.REPLAY_CNT).pl (resent s.mono)) (s.plk.replay.map (fun f => .link (f.body.frame f.lseq s.plk.rxSeq)))

theorem sentAgain_cnt (s : State) : (sentAgain s).get PLK.REPLAY_CNT = satU 32 (s.get PLK.REPLAY_CNT + 1) := by
  rw [sentAgain, told_get, pl_get]
  exact get_bump_self s PLK.REPLAY_CNT (by decide)

theorem sentAgain_plk (s : State) : (sentAgain s).plk = resent s.mono s.plk := by
  rw [sentAgain, told_plk, pl_plk, bump_plk]

theorem sentAgain_outbox (s : State) : (sentAgain s).outbox =
    s.outbox ++ s.plk.replay.map (fun f => .link (f.body.frame f.lseq s.plk.rxSeq)) := by
  rw [sentAgain, told_outbox, pl_outbox, bump_outbox]

theorem sentAgain_regsBut (s : State) : RegsBut [PLK.REPLAY_CNT.addr] s (sentAgain s) := by
  rw [sentAgain]
  exact told_regsBut _ (pl_regsBut _ (regsBut_bump (by decide) (regsBut_refl _ s)))

theorem sentAgain_memKept (s : State) : MemKept s (sentAgain s) :=
  memKept_trans (memKept_trans ((OnlyRegs.refl s).bump _).memKept (pl_memKept _ _)) (told_memKept _ _)

theorem sentAgain_safety (s : State) : (sentAgain s).safety = s.safety := by rw [sentAgain, told_safety, pl_safety, bump_safety]

theorem foldl_emit_link (fs : List LinkFrame) : ∀ s : State, fs.foldl (fun s f => s.emit (.link (f.body.frame f.lseq s.plk.rxSeq))) s =
    told s (fs.map (fun f => .link (f.body.frame f.lseq s.plk.rxSeq))) := by
  induction fs with
  | nil => exact fun s => by simp [told]
  | cons f fs ih =>
    intro s
    rw [List.foldl_cons, ih]
    simp [told, State.emit]

theorem sentAgain_eq (s : State) : ((s.bump PLK.REPLAY_CNT).plk.replay.foldl (fun s f => s.emit (.link (f.body.frame f.lseq s.plk.rxSeq)))
    ((s.bump PLK.REPLAY_CNT).pl (resent (s.bump PLK.REPLAY_CNT).mono))) = sentAgain s := by
  rw [foldl_emit_link, bump_plk, bump_mono, pl_plk, bump_plk]
  rfl

theorem replay_due {t : Nat} {f : LinkFrame} {fs : List LinkFrame} (hrun : s.Running t) (hq : s.plk.replay = f :: fs)
    (halive : s.linkAlive = true) (hdue : f.at_ + 4 * tickUs ≤ (s.clock t).mono) {P : State → Prop}
    (hP : ∀ u, Ends (sentAgain (s.clock t)) u → P u) : Completes (.replayTimeout t) s P := by
  refine completes_ends hrun (rfl : _ = execReplayTimeout t s) ?_ ?_ hP
  · rw [show (s.clock t).plk.replay = f :: fs from hq]
    dsimp only
    rw [when_true (guard_last (show (s.clock t).linkAlive = true from halive) hdue)]
    exact sentAgain_eq _
  · rw [sentAgain_safety]
    exact hrun.2.1

/-! ### The partner lost -/

/-- The heartbeat judged lost. -/
def hbGone (x : State) : State :=
  (((x.pl (fun k => { k with hbLost := true, hbLostAt := x.mono })).put PLK.STAT_HB 0).set1 PLK.EVT_HB_LOST).raise PLK.EVT_PARTNER_LOST 0

theorem exec_hbLost (s : State) (t : Nat) : exec (.hbLost t) s = run t (fun s =>
    s.when (s.linkRuns && !s.plk.hbLost && decide (s.plk.hbAt + s.get PLK.TIMEOUT_HB_US * tickUs ≤ s.mono)) (fun s =>
      if (hbGone s).get PLK.STAT_STATE = 4 then hbGone s else (hbGone s).partnerLost)) s := rfl

/-- The instants of the automatic pulses of the hour that ends now. -/
def recentPulses (x : State) : List Nat := x.plk.autoAt.filter (fun a => decide (x.mono < a + 3600 * tickS))

/-- An automatic reset: one more pulse, or none with as many as the limit allows within the hour. -/
def autoReset (x : State) : State :=
  if x.get PLK.RST_MAX ≤ (recentPulses x).length then x.set1 PLK.STAT_RST_BLOCKED
  else (x.pl (fun k => { k with autoAt := x.mono :: recentPulses x })).pulseStart

/-- What an automatic reset waits for. -/
def resetDue (x : State) : Bool :=
  x.on PLK.CTRL_AUTO_RST && x.plk.hbLost && x.dev ≠ dsHold && x.plk.pulseAt.isNone &&
    (match x.plk.lastPulse with | none => true | some a => decide (a + tickS ≤ x.mono)) &&
    decide (x.plk.hbLostAt + x.get PLK.RST_DELAY_MS * tickMs ≤ x.mono)

theorem exec_autoResetDelay (s : State) (t : Nat) : exec (.autoResetDelay t) s = run t (fun s => s.when (resetDue s) autoReset) s := rfl

/-- PARTNER_RST_OUT driven to `b`. -/
def rstDriven (y : State) (b : Bool) : State := { y with pins := { y.pins with rstOut := b } }

theorem rstDriven_get (y : State) (b : Bool) (f : Fld) : (rstDriven y b).get f = y.get f := rfl
theorem rstDriven_plk (y : State) (b : Bool) : (rstDriven y b).plk = y.plk := rfl
theorem rstDriven_safety (y : State) (b : Bool) : (rstDriven y b).safety = y.safety := rfl
theorem rstDriven_regsBut {l : List Nat} (b : Bool) (h : RegsBut l s u) : RegsBut l s (rstDriven u b) := h
theorem rstDriven_memKept (y : State) (b : Bool) : MemKept y (rstDriven y b) := memKept_of rfl rfl rfl rfl rfl rfl rfl rfl

/-- A pulse noted and told, its pin not yet driven. -/
def pulseNoted (s : State) : State := (s.pl (fun k => { k with pulseAt := some s.mono })).set1 PLK.EVT_RST_SENT

theorem pulseStart_eq (s : State) : s.pulseStart = (rstDriven (pulseNoted s) true).bump PLK.RST_CNT := rfl

theorem pulseStart_plk (s : State) : s.pulseStart.plk = { s.plk with pulseAt := some s.mono } := by
  rw [pulseStart_eq, bump_plk, rstDriven_plk, pulseNoted, set1_plk, pl_plk]

theorem pulseStart_pins (s : State) : s.pulseStart.pins = { s.pins with rstOut := true } := by
  rw [pulseStart_eq, bump_pins, rstDriven, pulseNoted, set1_pins, pl_pins]

theorem pulseStart_safety (s : State) : s.pulseStart.safety = s.safety := by
  rw [pulseStart_eq, bump_safety, rstDriven_safety, pulseNoted, set1_safety, pl_safety]

theorem pulseStart_cnt (s : State) : s.pulseStart.get PLK.RST_CNT = satU 32 (s.get PLK.RST_CNT + 1) := by
  rw [pulseStart_eq, get_bump_self _ PLK.RST_CNT (by decide), rstDriven_get, pulseNoted,
    get_set1_other _ (show Leaves PLK.EVT_RST_SENT PLK.RST_CNT by decide), pl_get]
  rfl

theorem pulseStart_sent (s : State) : s.pulseStart.on PLK.EVT_RST_SENT = true := by
  rw [pulseStart_eq, on_bump_other _ (show Leaves PLK.RST_CNT PLK.EVT_RST_SENT by decide), on_of_get (rstDriven_get _ _ _)]
  exact on_set1_self _ _ (by decide) rfl

theorem pulseStart_regsBut (s : State) : RegsBut [PLK.EVT.addr, PLK.RST_CNT.addr] s s.pulseStart := by
  rw [pulseStart_eq]
  exact regsBut_bump (by decide) (rstDriven_regsBut true (regsBut_set1 (by decide) (fun _ _ => rfl)))

theorem pulseStart_memKept (s : State) : MemKept s s.pulseStart := by
  rw [pulseStart_eq]
  have hnoted : MemKept s (pulseNoted s) := memKept_trans (pl_memKept s _) ((OnlyRegs.refl _).set1 _).memKept
  exact memKept_trans (memKept_trans hnoted (rstDriven_memKept _ true)) ((OnlyRegs.refl _).bump _).memKept

theorem autoReset_completes {t : Nat} (hrun : s.Running t) (hdue : resetDue (s.clock t) = true) {P : State → Prop}
    (hP : ∀ u, Ends (autoReset (s.clock t)) u → P u) : Completes (.autoResetDelay t) s P := by
  refine completes_ends hrun (exec_autoResetDelay s t) (when_true hdue) ?_ hP
  unfold autoReset
  split
  · rw [set1_safety]
    exact hrun.2.1
  · rw [pulseStart_safety]
    exact hrun.2.1

/-- A pulse that has lasted. -/
def pulseOver (x : State) : State := rstDriven (x.pl (fun k => { k with pulseAt := none, lastPulse := some x.mono })) false

theorem exec_resetPulseEnd {t a : Nat} (hrun : s.Running t) (hp : s.plk.pulseAt = some a) {P : State → Prop}
    (hP : ∀ u, Ends ((s.clock t).when (decide (a + 10 * tickMs ≤ (s.clock t).mono)) pulseOver) u → P u) : Completes (.resetPulseEnd t) s P := by
  refine completes_ends hrun (rfl : _ = execResetPulseEnd t s) ?_ ?_ hP
  · rw [show (s.clock t).plk.pulseAt = some a from hp]
    rfl
  · unfold State.when
    split <;> exact hrun.2.1

/-- Settles O53: silence of the heartbeat and of the link, the automatic reset within its limit, and the end of its pulse. -/
theorem partnerLost : Obligations.PartnerLost := by
  intro s t hrun x
  have hx : x = s.clock t := hrun.2.2
  refine ⟨fun hruns hlost hdue => ?_, fun hup hdue => ?_, fun hauto hlost hdev hpulse hlast hdue => ?_, fun a hpulse => ⟨fun hdue => ?_, fun hdue => ?_⟩⟩
  · intro y
    refine exec_run_eq hrun.1 (exec_hbLost s t) (when_true (guard_true ?_ ?_ ?_))
    · rw [hrun.2.2]; exact hruns
    · rw [hrun.2.2, show (s.clock t).plk = s.plk from rfl, hlost]; rfl
    · rw [hx] at hdue
      rw [hrun.2.2]
      exact hdue
  · refine exec_run_eq hrun.1 (rfl : _ = execLinkDown t s) (when_true ?_)
    rw [show s.at_ t = x from rfl, show x.linkUp = true by rw [hx]; exact hup, show x.plk.lastRx = s.plk.lastRx by rw [hx]; rfl,
      show x.get PLK.TIMEOUT_LINK_US = s.get PLK.TIMEOUT_LINK_US by rw [hx]; rfl, decide_eq_true hdue]
    rfl
  · intro recent
    have hrecent : recent = recentPulses (s.clock t) := by
      show s.plk.autoAt.filter _ = _
      rw [hx]
      rfl
    have hresetDue : resetDue (s.clock t) = true := by
      rw [hx] at hdue
      rw [resetDue, show (s.clock t).plk = s.plk from rfl, hlost, hpulse, hlast, clock_on, hauto, clock_get,
        decide_eq_true (show (s.clock t).dev ≠ dsHold from hdev), decide_eq_true hdue]
      rfl
    refine ⟨fun hlim => autoReset_completes hrun hresetDue fun u hu => ?_, fun hlim => autoReset_completes hrun hresetDue fun u hu => ?_⟩
    · rw [hrecent] at hlim ⊢
      rw [autoReset, clock_get, if_neg (Nat.not_le.2 hlim)] at hu
      refine ⟨hu.pins.trans (pulseStart_pins _), hu.plk.trans ((pulseStart_plk _).trans (by rw [hx]; rfl)), (hu.on _).trans (pulseStart_sent _),
        (hu.get _).trans (pulseStart_cnt _), hu.regsBut (pulseStart_regsBut _), hu.memKept (memKept_trans ?_ (pulseStart_memKept _))⟩
      exact memKept_trans (clock_onlyMem s t) (pl_memKept _ _)
    · rw [hrecent] at hlim
      rw [autoReset, clock_get, if_pos hlim] at hu
      refine ⟨hu.pins.trans (set1_pins _ _), hu.plk.trans (set1_plk _ _), (hu.on _).trans (on_set1_self _ _ (by decide) rfl),
        hu.regsBut (regsBut_set1 (by decide) (fun _ _ => rfl)), hu.memKept (memKept_trans (clock_onlyMem s t) ((OnlyRegs.refl _).set1 _).memKept)⟩
  · refine exec_resetPulseEnd hrun hpulse fun u hu => ?_
    rw [hx] at hdue ⊢
    rw [when_true (decide_eq_true hdue)] at hu
    exact ⟨hu.pins, hu.plk, hu.regs, hu.memKept (memKept_trans (memKept_trans (clock_onlyMem s t) (pl_memKept _ _)) (rstDriven_memKept _ _))⟩
  · refine exec_resetPulseEnd hrun hpulse fun u hu => ?_
    rw [hx] at hdue
    rw [when_false (decide_eq_false (Nat.not_le.2 hdue))] at hu
    exact ⟨hu.pins, hu.plk, hu.regs, hu.memKept (clock_onlyMem s t)⟩

/-- Settles O50: lanes, HELLO, IDLE, retransmission and the heartbeat. That a HELLO is taken whatever its LSEQ (assumption 24) and
that the loss of the last lane leaves a session UP (assumption 25) are the model's choices. -/
theorem partnerSession : Obligations.PartnerSession := by
  intro s t hrun x
  have hx : x = s.clock t := hrun.2.2
  refine ⟨fun l hruns hserves => ?_, fun l => ?_, fun hd h halive hcrc => ?_, fun halive hdue => ?_, fun ack halive => ?_,
    fun f fs hq halive hdue => ?_, ?_⟩
  · intro y
    have hexec := exec_laneLock_serves (l := l) hrun hruns hserves
    have hy : y = laneShown x l := by
      show x.put PLK.STAT_LANES (Nat.lor (s.get PLK.STAT_LANES) _) = _
      rw [laneShown, show x.get PLK.STAT_LANES = s.get PLK.STAT_LANES by rw [hx, clock_get]]
    have hmono : x.mono = y.mono := by rw [hy, laneShown, put_mono]
    refine ⟨fun halive => hexec.trans (by rw [if_pos halive, ← hy]), fun hdead => hexec.trans ?_⟩
    rw [if_neg (by rw [hdead]; exact Bool.false_ne_true), ← hy, sessionAsked, hmono]
  · refine laneLockLoss_completes l hrun fun u hu => ?_
    refine ⟨(hu.get _).trans (laneLost_lanes _ _), (hu.get _).trans (laneLost_state _ _), hu.plk.trans (laneLost_onlyRegs _ _).plk,
      hu.regsBut (laneLost_regsBut _ _), hu.memKept (memKept_trans (clock_onlyMem s t) (laneLost_onlyRegs _ _).memKept)⟩
  · intro y
    have hup : x.linkUp = s.linkUp := by rw [hx]; rfl
    have hexec := exec_hello_taken (h := h) hrun.1 (show x.linkAlive = true by rw [hx]; exact halive) hcrc
    rw [show s.at_ t = x from rfl] at hexec
    refine ⟨fun hrole => ?_, fun hrole => ?_⟩
    · intro w
      rw [hexec, helloTaken, if_pos (show b2n h.role = (helloHeard x hd).get SYS.STATE_PAIR_ROLE from hrole), hup]
      rfl
    · intro z own
      have hown : beNat (sessionBegun x.linkUp (helloHeard x hd) (h.local_ % 256)).imageDigest = own := by
        rw [State.imageDigest, sessionBegun_image, show x.image = s.image by rw [hx]; rfl]
      rw [hexec, helloTaken, if_neg (show ¬b2n h.role = (helloHeard x hd).get SYS.STATE_PAIR_ROLE from hrole), hown, imageCompared, ← decide_not, hup]
      rfl
  · refine completes_ends hrun (rfl : _ = execIdle t s) (when_true (guard_last halive (show (s.clock t).plk.lastTx + tickUs ≤ (s.clock t).mono by rw [hx] at hdue; exact hdue))) ?_ fun u hu => ?_
    · exact hrun.2.1
    · exact ⟨hu.plk.trans (by rw [hx]; rfl), hu.outbox, hu.regs, hu.memKept (memKept_of rfl rfl rfl rfl rfl rfl rfl rfl)⟩
  · refine exec_run_eq hrun.1 (rfl : _ = execIdleRx t ack s) (when_true ?_)
    rw [hrun.2.2]
    exact halive
  · refine replay_due hrun hq halive (hx ▸ hdue) fun u hu => ?_
    refine ⟨(hu.get _).trans (sentAgain_cnt _), ?_, hu.outbox.trans (sentAgain_outbox _), hu.regsBut (sentAgain_regsBut _), hu.memKept (memKept_trans (clock_onlyMem s t) (sentAgain_memKept _))⟩
    rw [hu.plk, hx, sentAgain_plk]
    rfl
  · refine completes_ends hrun (rfl : _ = execPartnerHbInEdge t s) rfl (by rw [set1_safety]; exact hrun.2.1) fun u hu => ?_
    refine ⟨hu.plk.trans ((set1_plk _ _).trans (by rw [hx]; rfl)), (hu.on _).trans (on_set1_self _ _ (by decide) rfl),
      hu.regsBut (regsBut_set1 (by decide) (fun _ _ => rfl)), hu.memKept (memKept_trans ?_ ((OnlyRegs.refl _).set1 _).memKept)⟩
    exact memKept_trans (clock_onlyMem s t) (pl_memKept _ _)

end Sys2Proof.Proofs
end

section
/-! PROOFS. The Security Island's engines and the monitor (R321, R322, R324, R414 to R429). -/

namespace Sys2Proof.Proofs

open Sys2Proof.Machine Sys2Proof.Laws

variable {s u v : State}

/-! ### A key programmed -/

/-- A machine out of reset, at its reset values, in which PROG_KEY runs. -/
def keyProgramming : State := { State.reset with safety := { released := true }, sec := { otpOp := some 1 } }

theorem keyProgramming_runs : keyProgramming.Running 0 := ⟨rfl, rfl, rfl⟩

/-- The words that the hardware has loaded in the cycle in which a command ends (R18). -/
def loadsOf (o : Out) : List (Nat × Word) :=
  match o with
  | .next u => u.cyc.loads
  | _ => []

theorem otpDone_loads : loadsOf (exec (.otpDone 0 true) keyProgramming) ≠ [] := by decide

/-- The end of PROG_KEY as O54 gives it: the key words put to 0, not loaded. -/
def keyWordsPut : State :=
  (((List.range 8).foldl (fun s j => s.put (SEC.KEY_WR j) 0) (((keyProgramming.at_ 0).random.2.otpEffect 1).put SEC.OTP_STAT_BUSY 0)).sc
    (fun k => { k with otpOp := none, otpKey := [] })).set1 SEC.EVT_OTP_DONE

theorem keyWordsPut_loads : ((keyProgramming.at_ 0).finish keyWordsPut).cyc.loads = [] := by decide

/-- Refutes O54: at the end of PROG_KEY the hardware loads the key words with 0, which the cycle's loads record (R18, for a write of
the same cycle); the state that the statement names puts them to 0 with no load recorded. The rest of the statement is untouched by this. -/
theorem not_securityEngines : ¬ Obligations.SecurityEngines := by
  unfold Obligations.SecurityEngines
  intro h
  obtain ⟨-, -, hkey, -⟩ := h keyProgramming 0 keyProgramming_runs
  have hend : exec (.otpDone 0 true) keyProgramming = .next ((keyProgramming.at_ 0).finish keyWordsPut) := hkey rfl
  exact otpDone_loads ((congrArg loadsOf hend).trans keyWordsPut_loads)

/-! ### Lines of the monitor -/

/-- A line read while the monitor runs, and what it answers. -/
theorem exec_monLine {c : Instr} {t : Nat} {f : State → Bytes × State} {b : Bytes} {y : State} (hr : s.released = true)
    (he : exec c s = monLine t f s) (hruns : (s.at_ t).monRuns = true) (hf : f (lineRead (s.at_ t)) = (b, y)) :
    exec c s = .next ((s.at_ t).finish (y.emit (.uart b))) := by
  refine exec_run_eq hr he ((when_true hruns).trans ?_)
  show (f (lineRead (s.at_ t))).2.emit (.uart (f (lineRead (s.at_ t))).1) = _
  rw [hf]

theorem monWrite_denied {f : State → Bytes × State} (h : s.monMay = false) : s.monWrite f = (monErr "DENIED", s) := by
  rw [State.monWrite, if_neg (by rw [h]; exact Bool.false_ne_true)]

theorem monWrite_may {f : State → Bytes × State} (h : s.monMay = true) : s.monWrite f = f s := by
  rw [State.monWrite, if_pos h]

/-- A line that reads a register: its value, or the status that keeps it from being read. -/
def wordRead (x : State) (addr : Nat) : Bytes × State :=
  if (x.readAt addr).1 = stOk then (monOk (hexWords [(x.readAt addr).2]), x) else (monErr (stName (x.readAt addr).1), x)

theorem exec_monRd_one {t addr : Nat} {b : Bytes} {y : State} (hr : s.released = true) (hruns : (s.at_ t).monRuns = true)
    (haddr : addrOk addr = true) (h : wordRead (lineRead (s.at_ t)) addr = (b, y)) :
    exec (.monRd t addr 1) s = .next ((s.at_ t).finish (y.emit (.uart b))) := by
  refine exec_monLine hr (rfl : _ = execMonRd t addr 1 s) hruns (Eq.trans ?_ h)
  generalize lineRead (s.at_ t) = x
  have hread : (List.range 1).map (fun i => if addrOk (addr + 4 * i) then x.readAt (addr + 4 * i) else (stAlign, 0)) = [x.readAt addr] := by
    rw [show List.range 1 = [0] from rfl, List.map_singleton, Nat.mul_zero, Nat.add_zero, if_pos haddr]
  rw [if_neg (by decide)]
  dsimp only
  rw [hread, wordRead]
  by_cases hok : (x.readAt addr).1 = stOk
  · rw [if_pos hok, List.find?_cons_of_neg (by simp [hok])]
    rfl
  · rw [if_neg hok, List.find?_cons_of_pos (by simp [hok])]

theorem handover_host {m : Nat} (hm : m < 2) : (s.handover m).1 = frOk := by
  unfold State.handover
  split
  · rfl
  · rw [if_neg (by simp [Nat.ne_of_lt hm])]

theorem monTryWrite_ok {a : Nat} {data mask : Word} {y : State} (hown : s.owns 2 = true) (ha : addrOk a = true)
    (hw : s.writeReg a data mask none = (stOk, y)) :
    s.monTryWrite a data mask = (monOk (hexWords [(y.settle.secAfter.readAt a).2]), y.settle.secAfter) := by
  have htry : s.tryWrite 2 a data mask none = (stOk, y) := by
    rw [State.tryWrite, if_neg (by rw [hown]; exact Bool.false_ne_true), hw]
  rw [State.monTryWrite, if_neg (by rw [ha]; exact Bool.false_ne_true), htry]
  rfl

/-- `pop` takes the oldest entry, whatever the hardware does to the register in the same cycle: no word is held there. -/
theorem writeReg_flogPop (hdev : s.dev ≠ dsHold) (hoff : s.pageOff 0x039 = false) :
    s.writeReg SI.FLOG_POP.addr 1 1 none = (stOk, s.flogPop) :=
  writeReg_acts (rw := 0) (w1s := 1) (iw := 0) (by decide) (by decide) hdev hoff (fun h => absurd h (by decide)) (fun _ => BitVec.and_zero) rfl

theorem exec_monBaud (s : State) (t rate : Nat) : exec (.monBaud t rate) s = run t (fun s => s.when s.monRuns (fun s =>
    if baudRates.contains rate then ((lineRead s).emit (.uart (monOk []))).sc (fun x => { x with baud := rate })
    else (lineRead s).emit (.uart (monErr "SYNTAX")))) s := rfl

theorem monClaim_answered {prio tok : Nat} {y : State}
    (h : s.random.2.claim { m := 2, prio := prio, nonce := s.random.1, req := none } s.random.2.mono = (.answer frOk tok, y)) :
    s.monClaim prio = y.emit (.uart (monOk [])) := by
  rw [State.monClaim]
  dsimp only
  rw [h]
  rfl

theorem monClaim_kept {prio : Nat} {y : State}
    (h : s.random.2.claim { m := 2, prio := prio, nonce := s.random.1, req := none } s.random.2.mono = (.held, y)) :
    s.monClaim prio = y := by
  rw [State.monClaim]
  dsimp only
  rw [h]

/-! ### The monitor -/

/-- The nonce that a token has used is no longer good. -/
def nonceUsed (y : State) (b : Bytes) : State := y.sc (fun k => { k with nonce := if y.nonceOk b then none else k.nonce })

/-- A token judged: its scopes unlocked, or its rejection counted. -/
def tokenJudged (sigOk : Bool) (b : Bytes) (y : State) : Bytes × State :=
  if y.tokenOk b && sigOk then
    (monOk [], ((nonceUsed y b).unlockScopes (fieldB b 5 1) (fieldB b 72 4)).raise SEC.EVT_UNLOCK 0)
  else
    (monErr "DENIED", (((nonceUsed y b).sc (fun k => { k with failAt := some (nonceUsed y b).mono })).bump SEC.UNLOCK_FAIL_CNT).raise
      SEC.EVT_UNLOCK_FAIL 0)

/-- What a token's end meets with no rejection before it. -/
def tokenEnds (sigOk : Bool) (x : State) : Bytes × State :=
  if (match x.sec.failAt with | none => false | some a => decide (x.mono < a + 10 * tickS)) then
    (monErr "DENIED", x.sc (fun k => { k with tok := [] }))
  else tokenJudged sigOk x.sec.tok (x.sc (fun k => { k with tok := [] }))

theorem exec_monTokEnd (s : State) (t : Nat) (sigOk : Bool) : exec (.monTokEnd t sigOk) s = monLine t (tokenEnds sigOk) s := rfl

theorem tokenEnds_first {sigOk : Bool} (h : s.sec.failAt = none) :
    tokenEnds sigOk s = tokenJudged sigOk s.sec.tok (s.sc (fun k => { k with tok := [] })) := by
  rw [tokenEnds, h]
  exact if_neg Bool.false_ne_true

/-- `handover` for the owner. -/
def handoverTold (m : Nat) (x : State) : Bytes × State :=
  if 2 < m then (monErr "SYNTAX", x)
  else if !x.owns 2 then (monErr "NOT_OWNER", x)
  else (if (x.handover m).1 = frOk then monOk [] else monErr (frName (x.handover m).1), (x.handover m).2)

theorem exec_monHandover (s : State) (t m : Nat) : exec (.monHandover t m) s = monLine t (fun s => s.monWrite (handoverTold m)) s := rfl

theorem handoverTold_host {m : Nat} (hm : m < 2) (hown : s.owns 2 = true) : handoverTold m s = (monOk [], (s.handover m).2) := by
  rw [handoverTold, if_neg (by omega), if_neg (by rw [hown]; exact Bool.false_ne_true), if_pos (handover_host hm)]

theorem tokenJudged_passed {b : Bytes} (h : s.tokenOk b = true) :
    tokenJudged true b s = (monOk [], ((nonceUsed s b).unlockScopes (fieldB b 5 1) (fieldB b 72 4)).raise SEC.EVT_UNLOCK 0) :=
  if_pos (by rw [h]; rfl)

theorem tokenJudged_rejected (s : State) (b : Bytes) : tokenJudged false b s = (monErr "DENIED",
    (((nonceUsed s b).sc (fun k => { k with failAt := some (nonceUsed s b).mono })).bump SEC.UNLOCK_FAIL_CNT).raise SEC.EVT_UNLOCK_FAIL 0) :=
  if_neg (by rw [Bool.and_false]; exact Bool.false_ne_true)

/-- Settles O55: every line of the monitor has its answer. The bytes of the answers (assumption 38), the signature's verdict as an operand
(assumption 4) and what the monitor does by itself (assumption 57) are the model's choices. -/
theorem monitorCommands : Obligations.MonitorCommands := by
  intro s t hrun hmon z x answers
  have hr := hrun.1
  have hz : z = s.clock t := hrun.2.2
  have hruns : (s.at_ t).monRuns = true := by rw [hrun.2.2]; exact hmon
  have hmayx : (lineRead (s.at_ t)).monMay = z.monMay := lineRead_monMay _
  have hownx : (lineRead (s.at_ t)).owns 2 = z.owns 2 := rfl
  have hsec : (lineRead (s.at_ t)).sec = { s.sec with lineAt := z.mono } := by rw [hrun.2.2, hz]; rfl
  refine ⟨exec_monLine hr (rfl : _ = execMonHelp t s) hruns rfl, exec_monLine hr (rfl : _ = execMonId t s) hruns rfl,
    exec_monLine hr (rfl : _ = execMonState t s) hruns rfl, fun addr haddr hok => exec_monRd_one hr hruns haddr (if_pos hok),
    fun addr haddr hbad => exec_monRd_one hr hruns haddr (if_neg hbad), exec_monLine hr (rfl : _ = execMonFlog t s) hruns rfl,
    fun hmay => ⟨fun prio => exec_monClaim_denied prio hr hruns hmay, ?_, fun m => ?_, fun a d k => ?_, ?_⟩, fun hmay => ⟨fun prio hprio => ?_, fun hown => ⟨?_, fun m hm => ?_, fun a d k ha => ?_, fun hdev hoff => ?_⟩⟩,
    fun hrng => ?_, fun hex hlen => ?_, fun hfail => ?_, exec_monLine hr (rfl : _ = execMonLock t s) hruns rfl, fun rate hrate => ?_, fun hown hidle => ?_, fun hown hlease => ?_⟩
  · exact exec_monLine hr (rfl : _ = execMonRelease t s) hruns (monWrite_denied (hmayx.trans hmay))
  · exact exec_monLine hr (exec_monHandover s t m) hruns (monWrite_denied (hmayx.trans hmay))
  · exact exec_monLine hr (rfl : _ = execMonWr t a d k s) hruns (monWrite_denied (hmayx.trans hmay))
  · exact exec_monLine hr (rfl : _ = execMonPop t s) hruns (monWrite_denied (hmayx.trans hmay))
  · intro y r
    have htaken := exec_monClaim_taken hr hruns hmay hprio
    refine ⟨fun tok hr1 => htaken.trans ?_, fun hr1 => htaken.trans ?_⟩
    · rw [monClaim_answered (s := lineRead (s.at_ t)) (y := r.2) (tok := tok) (Prod.ext hr1 rfl)]
    · rw [monClaim_kept (s := lineRead (s.at_ t)) (y := r.2) (Prod.ext hr1 rfl)]
  · exact exec_monLine hr (rfl : _ = execMonRelease t s) hruns ((monWrite_may (hmayx.trans hmay)).trans (if_pos (hownx.trans hown)))
  · exact exec_monLine hr (exec_monHandover s t m) hruns ((monWrite_may (hmayx.trans hmay)).trans (handoverTold_host hm (hownx.trans hown)))
  · intro y hok
    refine exec_monLine hr (rfl : _ = execMonWr t a d k s) hruns ((monWrite_may (hmayx.trans hmay)).trans ?_)
    exact monTryWrite_ok (hownx.trans hown) ha (Prod.ext hok rfl)
  · intro y
    refine exec_monLine hr (rfl : _ = execMonPop t s) hruns ((monWrite_may (hmayx.trans hmay)).trans ?_)
    exact monTryWrite_ok (hownx.trans hown) (by decide) (writeReg_flogPop hdev hoff)
  · intro r
    refine exec_run_eq hr (exec_monUnlock s t) ((when_true hruns).trans ((if_pos hrng).trans rfl))
  · exact exec_monLine hr (rfl : _ = execMonTok t hex s) hruns (if_neg (Nat.not_lt.2 hlen))
  · intro y w
    have hfirst (sigOk : Bool) : tokenEnds sigOk (lineRead (s.at_ t)) = tokenJudged sigOk s.sec.tok y := by
      rw [tokenEnds_first (by rw [hsec]; exact hfail), show (lineRead (s.at_ t)).sec.tok = s.sec.tok by rw [hsec]]
      rfl
    have hw : nonceUsed y s.sec.tok = w := rfl
    have hat : w.mono = z.mono := (sc_mono y _).trans ((sc_mono x _).trans (sc_mono z _))
    clear_value w y
    refine ⟨fun hok => ?_, ?_⟩
    · have hjudged := tokenJudged_passed (s := y) (b := s.sec.tok) hok
      rw [hw] at hjudged
      exact exec_monLine hr (exec_monTokEnd s t true) hruns ((hfirst true).trans hjudged)
    · have hjudged := tokenJudged_rejected y s.sec.tok
      rw [hw, hat] at hjudged
      exact exec_monLine hr (exec_monTokEnd s t false) hruns ((hfirst false).trans hjudged)
  · refine exec_run_eq hr (exec_monBaud s t rate) ((when_true hruns).trans (if_pos ?_))
    exact List.contains_iff_mem.2 hrate
  · exact exec_run_eq hr (rfl : _ = execMonitorIdle t s) (when_true (guard_true hruns hown (by rw [hrun.2.2]; rw [hz] at hidle; exact hidle)))
  · exact exec_run_eq hr (rfl : _ = execMonitorLeaseRenew t s) (when_true (guard_true hruns hown (by rw [hrun.2.2]; rw [hz] at hlease; exact hlease)))

end Sys2Proof.Proofs
end

section
/-! PROOFS. Frames of the partner link taken and sent (R54, R209, R277, R394, R396, R399 to R405). -/

namespace Sys2Proof.Proofs

open Sys2Proof.Machine Sys2Proof.Laws

variable {s u v : State}

/-! ### A sequenced frame -/

/-- A frame heard whose CRC holds: what it acknowledges is done. -/
def frameHeard (x : State) (hd : LinkHdr) : State := (x.pl (fun k => { k with lastRx := x.mono })).linkAck hd.ack

/-- The state in which the next frame in order is taken. -/
def frameNext (x : State) (hd : LinkHdr) : State := (frameHeard x hd).pl (fun k => { k with rxSeq := hd.lseq })

theorem linkRecv_up {hd : LinkHdr} {f : State → State} (hup : s.linkUp = true) (hcrc : hd.crcOk = true) :
    s.linkRecv hd f = if hd.lseq = ((frameHeard s hd).plk.rxSeq + 1) % 2 ^ 32 then f (frameNext s hd) else frameHeard s hd := by
  rw [State.linkRecv, if_neg (by rw [hup]; exact Bool.false_ne_true)]
  dsimp only
  rw [if_neg (by rw [hcrc]; exact Bool.false_ne_true)]
  rfl

theorem linkRecv_badCrc {hd : LinkHdr} {f : State → State} (hup : s.linkUp = true) (hcrc : hd.crcOk = false) :
    s.linkRecv hd f = (s.pl (fun k => { k with lastRx := s.mono })).bump PLK.CRC_ERR_CNT := by
  rw [State.linkRecv, if_neg (by rw [hup]; exact Bool.false_ne_true)]
  dsimp only
  rw [if_pos (by rw [hcrc]; rfl)]

section
variable {t : Nat} {c : Instr} {hd : LinkHdr} {f : State → State} (hr : s.released = true) (he : exec c s = run t (fun s => s.linkRecv hd f) s)
  (hup : (s.at_ t).linkUp = true)
include hr he hup

theorem frame_next (hcrc : hd.crcOk = true) (hseq : hd.lseq = ((frameHeard (s.at_ t) hd).plk.rxSeq + 1) % 2 ^ 32) {y : State}
    (hy : f (frameNext (s.at_ t) hd) = y) : exec c s = .next ((s.at_ t).finish y) :=
  exec_run_eq hr he (by rw [linkRecv_up hup hcrc, if_pos hseq, hy])

theorem frame_other (hcrc : hd.crcOk = true) (hseq : hd.lseq ≠ ((frameHeard (s.at_ t) hd).plk.rxSeq + 1) % 2 ^ 32) :
    exec c s = .next ((s.at_ t).finish (frameHeard (s.at_ t) hd)) :=
  exec_run_eq hr he (by rw [linkRecv_up hup hcrc, if_neg hseq])

end

theorem frame_bad {t : Nat} {c : Instr} {hd : LinkHdr} {f : State → State} (hrun : s.Running t)
    (he : exec c s = run t (fun s => s.linkRecv hd f) s) (hup : s.linkUp = true) (hcrc : hd.crcOk = false) :
    Completes c s (fun u => u.plk = { s.plk with lastRx := (s.clock t).mono } ∧ RegsBut [PLK.CRC_ERR_CNT.addr] s u ∧
      u.get PLK.CRC_ERR_CNT = satU 32 (s.get PLK.CRC_ERR_CNT + 1) ∧ MemKept s u) := by
  refine completes_ends hrun he (linkRecv_badCrc hup hcrc) (by rw [bump_safety]; exact hrun.2.1) fun u hu => ?_
  refine ⟨hu.plk.trans (bump_plk _ _), hu.regsBut (regsBut_bump (by decide) (fun _ _ => rfl)),
    (hu.get _).trans (get_bump_self _ PLK.CRC_ERR_CNT (by decide)), hu.memKept (memKept_trans ?_ ((OnlyRegs.refl _).bump _).memKept)⟩
  exact memKept_trans (clock_onlyMem s t) (pl_memKept _ _)

/-! ### What a frame does -/

/-- A map row taken where it is of the slot in use. -/
def rowTaken (s : State) (e : RowKey × Fin 2 × Bytes) : State :=
  if s.activeSlot e.1.level ≠ e.1.slot then s
  else s.mp (fun m => { m with resync := m.resync ++ [
    { die := 2 * e.2.1.val + 0, key := e.1, sums := List.replicate (partFeat s.get e.1.level) 0
      put := some (sliceB e.2.2 (0 * partB (s.lvlFp16 e.1.level) (partFeat s.get e.1.level)) (partB (s.lvlFp16 e.1.level) (partFeat s.get e.1.level))) },
    { die := 2 * e.2.1.val + 1, key := e.1, sums := List.replicate (partFeat s.get e.1.level) 0
      put := some (sliceB e.2.2 (1 * partB (s.lvlFp16 e.1.level) (partFeat s.get e.1.level)) (partB (s.lvlFp16 e.1.level) (partFeat s.get e.1.level))) }] })

theorem exec_maprow (s : State) (t : Nat) (hd : LinkHdr) (rows : List (RowKey × Fin 2 × Bytes)) : exec (.maprow t hd rows) s =
    run t (fun s => s.linkRecv hd (fun s => if s.mapOwner then s else rows.foldl rowTaken s)) s := rfl

/-- A partner's record compared with the own one of the same wedge, or kept until that comes. -/
def recordMet (r : XcRec) (s : State) : State :=
  if !s.xcOn then s
  else match s.plk.xcOwn.find? (fun o => s.xcMatch o.xr r) with
    | some o => (s.pl (fun k => { k with xcOwn := k.xcOwn.erase o })).xcJudge o.xr r
    | none => s.pl (fun k => { k with xcPtn := k.xcPtn ++ [{ xr := r, at_ := s.mono }] })

theorem exec_xc (s : State) (t : Nat) (hd : LinkHdr) (r : XcRec) : exec (.xc t hd r) s = run t (fun s => s.linkRecv hd (recordMet r)) s := rfl

/-- A mirrored line put behind the pieces at its tile's windows, or refused. -/
def lineMirrored (piece : Piece) (line : Bytes) (s : State) : State :=
  if 79 < fieldB line 0 2 then s.linkSend { type := 0x09 }
  else
    if (s.tile (fieldB line 0 2)).win.isEmpty then
      (s.setTile (fieldB line 0 2) (fun k => { k with win := k.win ++ [piece] })).winNext (fieldB line 0 2)
    else s.setTile (fieldB line 0 2) (fun k => { k with win := k.win ++ [piece] })

/-- The piece that a mirrored line is. -/
def mirrorPiece (hd : LinkHdr) (part : Nat) (line : Bytes) : Piece :=
  { src := 0x7F, xfer := hd.lseq, win := fieldB line 2 1, ofs := fieldB line 4 4, part := part, data := sliceB line 8 504 }

theorem exec_mirror (s : State) (t : Nat) (hd : LinkHdr) (part : Nat) (line : Bytes) : exec (.mirror t hd part line) s =
    run t (fun s => s.linkRecv hd (lineMirrored (mirrorPiece hd part line) line)) s := rfl

theorem xcJudge_match {own ptn : XcRec} (h : own.digest = ptn.digest) :
    (s.xcJudge own ptn).get PLK.XC_MATCH_CNT = satU 32 (s.get PLK.XC_MATCH_CNT + 1) := by
  rw [State.xcJudge, if_pos h]
  exact get_bump_self s PLK.XC_MATCH_CNT (by decide)

/-- Settles O51: the next frame in order, one out of order, one whose CRC fails, and what each kind does. -/
theorem partnerFramesTaken : Obligations.PartnerFramesTaken := by
  intro s t hd hrun hup x w y
  have hr := hrun.1
  have hupx : (s.at_ t).linkUp = true := by rw [hrun.2.2]; exact hup
  have hx : x = s.clock t := hrun.2.2
  refine ⟨fun c f slot key b recs errs n a1 a2 hc => ?_, fun hcrc hseq => ⟨fun rows hown => ?_, fun k u b hown hslot => ?_, fun r hon => ⟨fun o ho => ?_, fun ho => ?_⟩,
    fun part line hfar => ?_, fun part line hnear hempty => ?_⟩, fun own ptn h => xcJudge_match h⟩
  · have he : exec c s = run t (fun s => s.linkRecv hd f) s := by
      simp only [List.mem_cons, List.not_mem_nil, or_false, Prod.mk.injEq] at hc
      obtain ⟨rfl, rfl⟩ | ⟨rfl, rfl⟩ | ⟨rfl, rfl⟩ | ⟨rfl, rfl⟩ := hc <;> rfl
    refine ⟨fun hcrc hseq => frame_next hr he hupx hcrc hseq rfl, fun hcrc hseq => frame_other hr he hupx hcrc hseq, fun hcrc => ?_⟩
    rw [hx]
    exact frame_bad hrun he hup hcrc
  · exact frame_next hr (exec_maprow s t hd rows) hupx hcrc hseq (if_pos hown)
  · intro pb part
    refine frame_next hr (exec_maprow s t hd [(k, u, b)]) hupx hcrc hseq ((if_neg (by rw [show (frameNext (s.at_ t) hd).mapOwner = false from hown]; exact Bool.false_ne_true)).trans ?_)
    exact if_neg (not_not.2 hslot)
  · refine frame_next hr (exec_xc s t hd r) hupx hcrc hseq ?_
    rw [recordMet, if_neg (by rw [show (frameNext (s.at_ t) hd).xcOn = true from hon]; exact Bool.false_ne_true),
      show (frameNext (s.at_ t) hd).plk.xcOwn.find? (fun o => (frameNext (s.at_ t) hd).xcMatch o.xr r) = some o from ho]
    rfl
  · refine frame_next hr (exec_xc s t hd r) hupx hcrc hseq ?_
    rw [recordMet, if_neg (by rw [show (frameNext (s.at_ t) hd).xcOn = true from hon]; exact Bool.false_ne_true),
      show (frameNext (s.at_ t) hd).plk.xcOwn.find? (fun o => (frameNext (s.at_ t) hd).xcMatch o.xr r) = none from ho]
    rfl
  · exact frame_next hr (exec_mirror s t hd part line) hupx hcrc hseq (if_pos hfar)
  · intro g p
    refine frame_next hr (exec_mirror s t hd part line) hupx hcrc hseq ((if_neg (Nat.not_lt.2 hnear)).trans (if_pos ?_))
    rw [show ((frameNext (s.at_ t) hd).tile (fieldB line 0 2)).win = [] from hempty]
    rfl

end Sys2Proof.Proofs
end

section
/-! PROOFS. What the partner link sends and keeps waiting: frame layout, TIME, records and mirrored lines (R54, R394, R402 to R405). -/

namespace Sys2Proof.Proofs

open Sys2Proof.Machine Sys2Proof.Laws

variable {s u v : State}

/-! ### Fields of a frame -/

@[simp] theorem leBytes_length (n x : Nat) : (leBytes n x).length = n := by
  induction n generalizing x with
  | zero => rfl
  | succ n ih => rw [leBytes, List.length_cons, ih]

theorem leNat_leBytes (n x : Nat) : leNat (leBytes n x) = x % 2 ^ (8 * n) := by
  induction n generalizing x with
  | zero => exact (Nat.mod_one x).symm
  | succ n ih =>
    rw [leBytes, leNat, ih, BitVec.toNat_ofNat, Nat.mul_succ, Nat.add_comm (8 * n), Nat.pow_add, Nat.mod_mul]

section
variable {a b f : Bytes} {ofs n : Nat}

theorem starts_less (h : a ++ b <+: f) : a <+: f := by
  obtain ⟨c, rfl⟩ := h
  exact ⟨b ++ c, (List.append_assoc a b c).symm⟩

theorem slice_of_starts (h : a ++ b <+: f) (ha : a.length = ofs) (hb : b.length = n) : sliceB f ofs n = b := by
  obtain ⟨c, rfl⟩ := h
  rw [sliceB, List.append_assoc, List.drop_left' ha, List.take_left' hb]

theorem field_of_starts {x : Nat} (h : a ++ leBytes n x <+: f) (ha : a.length = ofs) : fieldB f ofs n = x % 2 ^ (8 * n) := by
  rw [fieldB, slice_of_starts h ha (leBytes_length n x), leNat_leBytes]

end

/-- A frame without its CRC. -/
def frameBody (b : LinkBody) (lseq ack : Nat) : Bytes :=
  leBytes 1 b.type ++ leBytes 1 b.flags ++ leBytes 2 b.payload.length ++ leBytes 4 lseq ++ leBytes 4 ack ++ leBytes 1 b.slot ++
    zeroBytes 3 ++ b.payload

theorem frame_eq (b : LinkBody) (lseq ack : Nat) : b.frame lseq ack = frameBody b lseq ack ++ leBytes 4 (crc32 (frameBody b lseq ack)) := rfl

theorem frameBody_length (b : LinkBody) (lseq ack : Nat) : (frameBody b lseq ack).length = 16 + b.payload.length := by
  simp only [frameBody, zeroBytes, List.length_append, leBytes_length, List.length_replicate]

/-- The layout of a frame: header, payload, and the CRC-32 over both. -/
theorem frame_layout (b : LinkBody) (lseq ack : Nat) :
    (b.frame lseq ack).length = 20 + b.payload.length ∧ sliceB (b.frame lseq ack) 16 b.payload.length = b.payload ∧
    fieldB (b.frame lseq ack) 0 1 = b.type % 256 ∧ fieldB (b.frame lseq ack) 1 1 = b.flags % 256 ∧
    fieldB (b.frame lseq ack) 2 2 = b.payload.length % 2 ^ 16 ∧ fieldB (b.frame lseq ack) 4 4 = lseq % 2 ^ 32 ∧
    fieldB (b.frame lseq ack) 8 4 = ack % 2 ^ 32 ∧ fieldB (b.frame lseq ack) 12 1 = b.slot % 256 ∧
    fieldB (b.frame lseq ack) (16 + b.payload.length) 4 = crc32 ((b.frame lseq ack).take (16 + b.payload.length)) % 2 ^ 32 := by
  have hcrc : frameBody b lseq ack ++ leBytes 4 (crc32 (frameBody b lseq ack)) <+: b.frame lseq ack := ⟨[], List.append_nil _⟩
  have hbody := starts_less hcrc
  have hhead := starts_less hbody
  have hslot := starts_less hhead
  have hack := starts_less hslot
  have hlseq := starts_less hack
  have hlen := starts_less hlseq
  have hflags := starts_less hlen
  refine ⟨?_, slice_of_starts hbody ?_ rfl, field_of_starts (a := []) (starts_less hflags) rfl, field_of_starts hflags (leBytes_length 1 _),
    field_of_starts hlen ?_, field_of_starts hlseq ?_, field_of_starts hack ?_, field_of_starts hslot ?_, ?_⟩
  · rw [frame_eq, List.length_append, frameBody_length, leBytes_length]
    omega
  · simp only [zeroBytes, List.length_append, leBytes_length, List.length_replicate]
  · simp only [List.length_append, leBytes_length]
  · simp only [List.length_append, leBytes_length]
  · simp only [List.length_append, leBytes_length]
  · simp only [List.length_append, leBytes_length]
  · rw [field_of_starts hcrc (frameBody_length b lseq ack), frame_eq, List.take_left' (frameBody_length b lseq ack)]

/-! ### TIME -/

/-- TB_PTN shown as measured, with the run of far measurements behind it. -/
def ptnShown (s : State) (ofs : Int) (n : Nat) : State :=
  ((s.tm (fun x => { x with ptnOfs := some ofs, ptnAt := s.mono, ptnRun := n })).set1 TMU.STAT_PTN_VALID).set1If (decide (3 ≤ n)) TMU.EVT_PTN_DIVERGE

/-- The time base of the head set to follow TB_PTN, where it follows the partner. -/
def ptnFollowed (ofs rate : Int) (w : State) : State := if w.snsTarget = 2 then w.snsServo ofs rate else w

/-- TB_SNS retuned, within its slew limit. -/
def snsRetuned (w : State) (ofs rate : Int) : State :=
  w.tm (fun x => { x with sns := x.sns.retune w.mono (clampInt (-(w.get TMU.SNS_SLEW_PPB * 16)) (w.get TMU.SNS_SLEW_PPB * 16) (rate + ofs)) })

/-- The run of far measurements, this one with it, and the rate that it shows. -/
def farRun (s : State) (ofs : Int) : Nat :=
  if decide ((s.get TMU.PTN_TOL_NS : Int) * 16 < (ofs.natAbs : Int)) && decide (s.time.ptnStart + tickS ≤ s.mono) then s.time.ptnRun + 1 else 0

def ptnRate (s : State) (ofs : Int) : Int :=
  match s.time.ptnOfs with
  | none => s.time.sns.rate
  | some o => if s.mono ≤ s.time.ptnAt then s.time.sns.rate else s.time.sns.rate + (ofs - o) * 16000000000 / ((s.mono : Int) - s.time.ptnAt)

theorem ptnMeasure_eq (s : State) (ofs : Int) : s.ptnMeasure ofs =
    ptnFollowed (ofs / 16 * 16) (ptnRate s (ofs / 16 * 16)) (ptnShown s (ofs / 16 * 16) (farRun s (ofs / 16 * 16))) := rfl

theorem set1If_pl (s : State) (b : Bool) (g : Fld) (f : PlkSt → PlkSt) : (s.pl f).set1If b g = (s.set1If b g).pl f := by cases b <;> rfl

theorem ptnShown_pl (s : State) (f : PlkSt → PlkSt) (ofs : Int) (n : Nat) : ptnShown (s.pl f) ofs n = (ptnShown s ofs n).pl f :=
  set1If_pl ((s.tm (fun x => { x with ptnOfs := some ofs, ptnAt := s.mono, ptnRun := n })).set1 TMU.STAT_PTN_VALID) _ _ f

theorem ptnFollowed_pl (w : State) (f : PlkSt → PlkSt) (ofs rate : Int) : ptnFollowed ofs rate (w.pl f) = (ptnFollowed ofs rate w).pl f := by
  unfold ptnFollowed
  by_cases h : w.snsTarget = 2
  · rw [if_pos h, if_pos (show (w.pl f).snsTarget = 2 from h), State.snsServo, State.snsServo]
    exact set1If_pl (snsRetuned w ofs rate) _ _ f
  · rw [if_neg h, if_neg (show (w.pl f).snsTarget ≠ 2 from h)]

theorem ptnMeasure_pl (s : State) (f : PlkSt → PlkSt) (ofs : Int) : (s.pl f).ptnMeasure ofs = (s.ptnMeasure ofs).pl f := by
  rw [ptnMeasure_eq, ptnMeasure_eq, ptnShown_pl, ptnFollowed_pl]
  rfl

theorem ptnShown_valid (s : State) (ofs : Int) (n : Nat) : (ptnShown s ofs n).on TMU.STAT_PTN_VALID = true := by
  rw [ptnShown, on_of_get (get_set1If_other _ (show Leaves TMU.EVT_PTN_DIVERGE TMU.STAT_PTN_VALID by decide) _)]
  exact on_set1_self _ _ (by decide) rfl

/-- `u` is `s` but for the time bases and the registers that a measurement writes. -/
def Measured (s u : State) : Prop := u.plk = s.plk ∧ u.safety = s.safety ∧ RegsBut [TMU.STAT_PTN_VALID.addr, TMU.EVT_PTN_DIVERGE.addr] s u

theorem ptnShown_measured (s : State) (ofs : Int) (n : Nat) : Measured s (ptnShown s ofs n) := by
  rw [ptnShown]
  refine ⟨by rw [set1If_plk, set1_plk, tm_plk], by rw [set1If_safety, set1_safety, tm_safety], ?_⟩
  exact regsBut_set1If _ _ (by decide) (regsBut_set1 (by decide) (fun _ _ => rfl))

theorem snsServo_measured (h : Measured s u) (ofs rate : Int) : Measured s (u.snsServo ofs rate) := by
  obtain ⟨hplk, hsafety, hregs⟩ := h
  rw [State.snsServo]
  refine ⟨by rw [set1If_plk, tm_plk, hplk], by rw [set1If_safety, tm_safety, hsafety], ?_⟩
  exact regsBut_set1If _ _ (by decide) (fun a ha => hregs a ha)

theorem ptnMeasure_measured (s : State) (ofs : Int) : Measured s (s.ptnMeasure ofs) := by
  rw [ptnMeasure_eq, ptnFollowed]
  split
  · exact snsServo_measured (ptnShown_measured s _ _) _ _
  · exact ptnShown_measured s _ _

theorem ptnMeasure_valid (s : State) (ofs : Int) : (s.ptnMeasure ofs).on TMU.STAT_PTN_VALID = true := by
  rw [ptnMeasure_eq, ptnFollowed]
  split
  · rw [State.snsServo, on_of_get (get_set1If_other _ (show Leaves TMU.EVT_SLEW_LIMIT TMU.STAT_PTN_VALID by decide) _)]
    exact ptnShown_valid s _ _
  · exact ptnShown_valid s _ _

theorem ptnShown_ofs (s : State) (ofs : Int) (n : Nat) : (ptnShown s ofs n).time.ptnOfs = some ofs := by
  rw [ptnShown, set1If_time, set1_time, tm_time]

theorem ptnMeasure_ofs (s : State) (ofs : Int) : (s.ptnMeasure ofs).time.ptnOfs = some (ofs / 16 * 16) := by
  rw [ptnMeasure_eq, ptnFollowed]
  split
  · rw [State.snsServo, set1If_time, tm_time]
    exact ptnShown_ofs s _ _
  · exact ptnShown_ofs s _ _

/-- What a TIME frame shows of the partner, and TB_PTN measured by it. -/
def timeShown (x : State) (i : TimeInfo) : State :=
  (((x.pl (fun k => { k with lastRx := x.mono })).put PLK.PTN_STATE_STATE i.state).put PLK.PTN_STATE_VEH_STATE i.vehState).put
    PLK.PTN_EPOCH i.epoch

def timeTaken (x : State) (i : TimeInfo) : State :=
  ((timeShown x i).pl (fun k => { k with timeRx := (timeShown x i).sns / 16 })).ptnMeasure i.offset

/-- The slots that a TIME frame gives as local on the partner. -/
def slotsGiven (i : TimeInfo) : Nat := (List.range 8).foldl (fun m h => if bitOf (i.slots.getD h 0) 5 then m + 2 ^ h else m) 0

/-- The partner's slots compared with the own, and the status of those that it forwards. -/
def slotsCompared (i : TimeInfo) (w : State) : State :=
  (List.range 8).foldl (fun s h =>
      if bitOf (s.get PLK.STAT_FWD_SLOTS) h then s.fwdStatus h (i.slots.getD h 0)
      else if bitOf (w.get PLK.STAT_FWD_SLOTS) h && !bitOf s.localSlots h then s.fwdDown h else s)
    (((List.range 8).filter (fun h => bitOf (slotsGiven i) h && !bitOf w.plk.remote h)).foldl (fun s h => s.slotClash h)
      (w.pl (fun k => { k with remote := slotsGiven i })).fwdSlots)

theorem exec_time (s : State) (t : Nat) (i : TimeInfo) : exec (.time t i) s = run t (fun s =>
    if !s.linkUp then s
    else if !i.crcOk then (s.pl (fun k => { k with lastRx := s.mono })).bump PLK.CRC_ERR_CNT
    else slotsCompared i (timeTaken s i)) s := rfl
theorem bitOf_zero (i : Nat) : bitOf 0 i = false := by rw [bitOf, Nat.zero_shiftRight]; rfl

theorem slotsGiven_none {i : TimeInfo} (h : ∀ k, bitOf (i.slots.getD k 0) 5 = false) : slotsGiven i = 0 :=
  List.foldl_fixed' (fun k => if_neg (by rw [h k]; exact Bool.false_ne_true)) _

theorem fwdSlots_none (h : s.plk.remote = 0) : s.fwdSlots = s.put PLK.STAT_FWD_SLOTS 0 := by
  have hnone : (List.range 8).foldl (fun m k => if bitOf s.plk.remote k && !bitOf s.localSlots k then m + 2 ^ k else m) 0 = 0 :=
    List.foldl_fixed' (fun k => if_neg (by rw [h, bitOf_zero, Bool.false_and]; exact Bool.false_ne_true)) _
  rw [State.fwdSlots, hnone, ite_self]

theorem slotsCompared_none {i : TimeInfo} (h : ∀ k, bitOf (i.slots.getD k 0) 5 = false) (hfwd : s.get PLK.STAT_FWD_SLOTS = 0) :
    slotsCompared i s = (s.pl (fun k => { k with remote := 0 })).put PLK.STAT_FWD_SLOTS 0 := by
  have hget : ((s.pl (fun k => { k with remote := 0 })).put PLK.STAT_FWD_SLOTS 0).get PLK.STAT_FWD_SLOTS = 0 :=
    get_put_self _ _ _ (by decide)
  have hnew : (List.range 8).filter (fun k => bitOf 0 k && !bitOf s.plk.remote k) = [] :=
    List.filter_eq_nil_iff.2 fun k _ => by rw [bitOf_zero, Bool.false_and]; exact Bool.false_ne_true
  rw [slotsCompared, slotsGiven_none h, hnew, List.foldl_nil, fwdSlots_none rfl, hfwd]
  exact List.foldl_fixed' (fun k => by
    rw [hget, bitOf_zero, if_neg Bool.false_ne_true, Bool.false_and, if_neg Bool.false_ne_true]) _

theorem timeShown_regs {x : State} {i : TimeInfo} : (timeShown x i).get PLK.PTN_EPOCH = i.epoch % 2 ^ PLK.PTN_EPOCH.w ∧
    (timeShown x i).get PLK.PTN_STATE_STATE = i.state % 2 ^ PLK.PTN_STATE_STATE.w ∧
    (timeShown x i).get PLK.STAT_FWD_SLOTS = x.get PLK.STAT_FWD_SLOTS := by
  unfold timeShown
  refine ⟨get_put_self _ _ _ (by decide), ?_, ?_⟩
  · rw [get_put_other _ (show Leaves PLK.PTN_EPOCH PLK.PTN_STATE_STATE by decide),
      get_put_other _ (show Leaves PLK.PTN_STATE_VEH_STATE PLK.PTN_STATE_STATE by decide), get_put_self _ _ _ (by decide)]
  · rw [get_put_other _ (show Leaves PLK.PTN_EPOCH PLK.STAT_FWD_SLOTS by decide),
      get_put_other _ (show Leaves PLK.PTN_STATE_VEH_STATE PLK.STAT_FWD_SLOTS by decide),
      get_put_other _ (show Leaves PLK.PTN_STATE_STATE PLK.STAT_FWD_SLOTS by decide), pl_get]

theorem timeShown_sns (x : State) (i : TimeInfo) : (timeShown x i).sns = x.sns := by
  rw [State.sns, timeShown, put_time, put_time, put_time, pl_time, put_mono, put_mono, put_mono, pl_mono, State.sns]

theorem timeShown_safety (x : State) (i : TimeInfo) : (timeShown x i).safety = x.safety := by
  rw [timeShown, put_safety, put_safety, put_safety, pl_safety]

theorem timeTaken_get {x : State} {i : TimeInfo} {g : Fld} (hg : g.addr ∉ [TMU.STAT_PTN_VALID.addr, TMU.EVT_PTN_DIVERGE.addr]) :
    (timeTaken x i).get g = (timeShown x i).get g := by
  obtain ⟨-, -, hregs⟩ := ptnMeasure_measured ((timeShown x i).pl (fun k => { k with timeRx := (timeShown x i).sns / 16 })) i.offset
  rw [timeTaken, State.get, hregs _ hg, pl_reg, State.get]

theorem timeTaken_rx (x : State) (i : TimeInfo) : (timeTaken x i).plk.timeRx = x.sns / 16 := by
  obtain ⟨hplk, -, -⟩ := ptnMeasure_measured ((timeShown x i).pl (fun k => { k with timeRx := (timeShown x i).sns / 16 })) i.offset
  rw [timeTaken, hplk, pl_plk, timeShown_sns]

theorem noRemote_rx (w : State) : ((w.pl (fun k => { k with remote := 0 })).put PLK.STAT_FWD_SLOTS 0).plk.timeRx = w.plk.timeRx := by
  rw [put_plk, pl_plk]

theorem timeTaken_safety (x : State) (i : TimeInfo) : (timeTaken x i).safety = x.safety := by
  obtain ⟨-, hsafety, -⟩ := ptnMeasure_measured ((timeShown x i).pl (fun k => { k with timeRx := (timeShown x i).sns / 16 })) i.offset
  rw [timeTaken, hsafety, pl_safety, timeShown_safety]

/-- A TIME frame of a session in which neither forwards to the other. -/
theorem time_completes {t : Nat} {i : TimeInfo} (hrun : s.Running t) (hup : s.linkUp = true) (hcrc : i.crcOk = true)
    (hslots : ∀ k, bitOf (i.slots.getD k 0) 5 = false) (hfwd : s.get PLK.STAT_FWD_SLOTS = 0) {P : State → Prop}
    (hP : ∀ u, Ends (((timeTaken (s.clock t) i).pl (fun k => { k with remote := 0 })).put PLK.STAT_FWD_SLOTS 0) u → P u) :
    Completes (.time t i) s P := by
  refine completes_ends hrun (exec_time s t i) ((if_neg ?_).trans ((if_neg ?_).trans (slotsCompared_none hslots ?_))) ?_ hP
  · rw [show (s.clock t).linkUp = true from hup]
    exact Bool.false_ne_true
  · rw [hcrc]
    exact Bool.false_ne_true
  · rw [timeTaken_get (by decide), timeShown_regs.2.2]
    exact hfwd
  · rw [put_safety, pl_safety, timeTaken_safety]
    exact hrun.2.1

/-! ### Records that wait and lines that are mirrored -/

/-- A record that has waited XC_WAIT. -/
def waitedOut (s : State) (w : XcWait) : Bool := decide (w.at_ + s.get PLK.XC_WAIT_MS * tickMs ≤ s.mono)

/-- What a line taken from RING[2] becomes. -/
def lineSent (r : Option Bytes × State) : State :=
  match r with
  | (none, s) => s
  | (some b, s) =>
    if !s.linkUp then s
    else if decide (79 < fieldB b 0 2) || fieldB b 3 1 ≠ 0 then s.mirRej
    else s.linkSend { type := 0x03, payload := b }

theorem exec_mirrorLineSend (s : State) (t : Nat) (g : Fin 80) (x : Soft) : exec (.mirrorLineSend t g x) s = softRun t g x (fun s =>
    s.when (s.on (RING.CFG_EN g 2) && decide (0 < s.ringOcc g 2)) (fun s => lineSent (s.ringPop g 2))) s := rfl

theorem mirrorLine_popped {t : Nat} {g : Fin 80} {x : Soft} {y : State} (hr : s.released = true)
    (hen : ((s.at_ t).softOn g x).on (RING.CFG_EN g 2) = true) (hocc : 0 < ((s.at_ t).softOn g x).ringOcc g 2)
    (hy : lineSent (((s.at_ t).softOn g x).ringPop g 2) = y) :
    exec (.mirrorLineSend t g x) s = .next ((s.at_ t).finish (y.softOff g)) :=
  exec_softRun_eq hr (exec_mirrorLineSend s t g x) ((when_true (guard_last hen hocc)).trans hy)

theorem lineSent_down {b : Bytes} (h : s.linkUp = false) : lineSent (some b, s) = s := if_pos (by rw [h]; rfl)

theorem lineSent_refused {b : Bytes} (h : s.linkUp = true) (hfar : 79 < fieldB b 0 2 ∨ fieldB b 3 1 ≠ 0) : lineSent (some b, s) = s.mirRej := by
  refine (if_neg (by rw [h]; exact Bool.false_ne_true)).trans (if_pos ?_)
  rw [Bool.or_eq_true, decide_eq_true_iff, decide_eq_true_iff]
  exact hfar

theorem lineSent_mirrored {b : Bytes} (h : s.linkUp = true) (hnear : fieldB b 0 2 ≤ 79) (hplain : fieldB b 3 1 = 0) :
    lineSent (some b, s) = s.linkSend { type := 0x03, payload := b } := by
  refine (if_neg (by rw [h]; exact Bool.false_ne_true)).trans (if_neg ?_)
  rw [Bool.or_eq_true, decide_eq_true_iff, decide_eq_true_iff]
  exact not_or.2 ⟨Nat.not_lt.2 hnear, not_not.2 hplain⟩

/-- TIME sent. -/
def timeSent (x : State) : State := (x.pl (fun k => { k with timeAt := some x.mono })).linkPlain { type := 0x07, payload := x.timePayload }

def timeDue (x : State) : Bool := match x.plk.timeAt with | none => true | some a => decide (a + tickMs ≤ x.mono)

theorem exec_timeTx (s : State) (t : Nat) : exec (.timeTx t) s = run t (fun s => s.when (s.linkUp && timeDue s) timeSent) s := rfl

theorem timeDue_of {x : State} (h : ∀ a, x.plk.timeAt = some a → a + tickMs ≤ x.mono) : timeDue x = true := by
  unfold timeDue
  split
  · rfl
  · rename_i a ha
    exact decide_eq_true (h a ha)

theorem linkPlain_memKept (s : State) (b : LinkBody) : MemKept s (s.linkPlain b) := memKept_of rfl rfl rfl rfl rfl rfl rfl rfl

/-- The records that have waited dropped and counted. -/
def recordsDropped (x : State) : State :=
  (x.pl (fun k => { k with xcOwn := k.xcOwn.filter (fun w => !waitedOut x w), xcPtn := k.xcPtn.filter (fun w => !waitedOut x w) })).addCnt
    PLK.XC_UNMATCHED_CNT ((x.plk.xcOwn.filter (waitedOut x)).length + (x.plk.xcPtn.filter (waitedOut x)).length)

theorem exec_xcWaitExpiry (s : State) (t : Nat) : exec (.xcWaitExpiry t) s = run t recordsDropped s := rfl

/-- Settles O52: the layout of a frame, TIME sent and received, records that have waited and lines mirrored. The bytes of TIME
(assumption 114), the floor (101) and the first rate (102) are the model's choices. -/
theorem partnerTraffic : Obligations.PartnerTraffic := by
  intro s t g soft hrun x so
  have hx : x = s.clock t := hrun.2.2
  refine ⟨fun b lseq ack => frame_layout b lseq ack, fun hup hdue => ?_, fun i hup hcrc hslots _ hfwd => ?_, ?_, fun hen hocc => ?_⟩
  · rw [hx] at hdue ⊢
    refine completes_ends hrun (exec_timeTx s t) (when_true ?_) hrun.2.1 fun u hu => ?_
    · rw [timeDue_of hdue, show (s.clock t).linkUp = true from hup]
      rfl
    · exact ⟨hu.plk, hu.regs, hu.memKept (memKept_trans (memKept_trans (clock_onlyMem s t) (pl_memKept _ _)) (linkPlain_memKept _ _)), hu.outbox⟩
  · intro y
    refine time_completes hrun hup hcrc hslots hfwd fun u hu => ?_
    obtain ⟨hepoch, hstate, -⟩ := timeShown_regs (x := s.clock t) (i := i)
    have hshown {g : Fld} (hg : g.addr ∉ [TMU.STAT_PTN_VALID.addr, TMU.EVT_PTN_DIVERGE.addr]) (hl : Leaves PLK.STAT_FWD_SLOTS g) :
        u.get g = (timeShown (s.clock t) i).get g := by
      rw [hu.get, get_put_other _ hl, pl_get, timeTaken_get hg]
    have hy : y = timeShown (s.clock t) i := by
      show timeShown x i = _
      rw [hx]
    have htime : u.time = (y.ptnMeasure i.offset).time := by
      rw [hu.time, put_time, pl_time, timeTaken, ptnMeasure_pl, pl_time, hy]
    refine ⟨(hshown (by decide) (by decide)).trans hepoch, (hshown (by decide) (by decide)).trans hstate, ?_, ?_, ?_, htime, ?_⟩
    · rw [hu.on, on_put_other _ (show Leaves PLK.STAT_FWD_SLOTS TMU.STAT_PTN_VALID by decide), pl_on]
      exact ptnMeasure_valid _ _
    · rw [htime, ptnMeasure_ofs]
    · rw [hu.plk, noRemote_rx, timeTaken_rx, hx]
    · rw [hu.get]
      exact get_put_self _ _ _ (by decide)
  · intro old
    have hold : old = waitedOut (s.clock t) := by
      show (fun w : XcWait => decide (w.at_ + s.get PLK.XC_WAIT_MS * tickMs ≤ x.mono)) = _
      rw [hx]
      rfl
    rw [hold]
    refine completes_ends hrun (exec_xcWaitExpiry s t) rfl (by rw [recordsDropped, addCnt_safety]; exact hrun.2.1) fun u hu => ?_
    refine ⟨hu.plk.trans (addCnt_plk _ _ _), (hu.get _).trans (get_addCnt_self _ PLK.XC_UNMATCHED_CNT _ (by decide)),
      hu.regsBut (regsBut_addCnt _ (by decide) (fun _ _ => rfl)), hu.memKept (memKept_trans ?_ ((OnlyRegs.refl _).addCnt _ _).memKept)⟩
    exact memKept_trans (clock_onlyMem s t) (pl_memKept _ _)
  · intro sends
    refine ⟨fun y hpop => ?_, fun b y hpop => ⟨fun hdown => ?_, fun hup hfar => ?_, fun hup hnear hplain => ?_⟩⟩
    · exact mirrorLine_popped hrun.1 hen hocc (by rw [hpop]; rfl)
    · exact mirrorLine_popped hrun.1 hen hocc (by rw [hpop]; exact lineSent_down hdown)
    · exact mirrorLine_popped hrun.1 hen hocc (by rw [hpop]; exact lineSent_refused hup hfar)
    · exact mirrorLine_popped hrun.1 hen hocc (by rw [hpop]; exact lineSent_mirrored hup hnear hplain)

end Sys2Proof.Proofs
end

section
/-! PROOFS. Column entries and result blocks drained (R284 to R288, R297), and the map store (R254, R263 to R268, R273 to R279). -/

namespace Sys2Proof.Proofs

open Sys2Proof.Machine Sys2Proof.Laws

variable {s u v : State}

/-! ### Column entries -/

/-- The line of an injected error taken note of. -/
def injTaken (y : State) : State := { y with out := { y.out with injBad := false } }

/-- The record that a column entry becomes. -/
def colRecord (b : Bytes) (c : ColSvc) (at_ : Nat) : ColRec :=
  { svc := c, band := (List.range 4).map (fun i => fieldB b (2 + 2 * i) 2), ground := fieldB b 10 2, free := fieldB b 12 2
    conf := fieldB b 14 1, prog := fieldB b 15 1 % 16, todo := [], at_ := at_ }

/-- A well-formed entry of the column `svc` queued, any other discarded. -/
def entryJudged (b : Bytes) (inj : Bool) (svc : Option ColSvc) (z : State) : State :=
  match (if inj || bitsOf (fieldB b 15 1) 4 4 ≠ 0 then none else svc) with
  | none => z.blockErr inj
  | some c => if !z.outOn OUT.CTRL_COL_EN then z else z.queueCol (colRecord b c z.mono)

/-- What a line taken from the column ring becomes; `next` is the column next in service. -/
def entryTaken (next : Option ColSvc) (r : Option Bytes × State) : State :=
  match r with
  | (none, s) => s
  | (some b, s) => entryJudged b s.out.injBad (next.filter (fun c => c.slot * 8192 + c.col = fieldB b 0 2)) (injTaken s)

theorem exec_columnEntryDrain (s : State) (t : Nat) (g : Fin 80) (x : Soft) : exec (.columnEntryDrain t g x) s = softRun t g x (fun s =>
    s.when ((s.dev = dsNoon || s.dev = dsDusk) && s.get (TILE.ROLE_ROLE g) = 2 && s.on (RING.CFG_EN g 3) && decide (0 < s.ringOcc g 3))
      (fun s => entryTaken (s.tile g).nextSvc (s.ringPop g 3))) s := rfl

theorem entryJudged_named {b : Bytes} {c : ColSvc} (hres : bitsOf (fieldB b 15 1) 4 4 = 0) :
    entryJudged b false (some c) s = if s.outOn OUT.CTRL_COL_EN then s.queueCol (colRecord b c s.mono) else s := by
  rw [entryJudged, if_neg (by simp [hres])]
  cases h : s.outOn OUT.CTRL_COL_EN
  · simp
  · simp

theorem entryJudged_bad {b : Bytes} {inj : Bool} {svc : Option ColSvc} (h : inj = true ∨ bitsOf (fieldB b 15 1) 4 4 ≠ 0 ∨ svc = none) :
    entryJudged b inj svc s = s.blockErr inj := by
  have hnone : (if inj || bitsOf (fieldB b 15 1) 4 4 ≠ 0 then none else svc) = none := by
    obtain rfl | h | rfl := h
    · simp
    · simp [h]
    · exact ite_self _
  rw [entryJudged, hnone]

/-! ### Result blocks -/

/-- A stage's result block put by its wedge, and what that completes. -/
def blockKept (g a : Nat) (rest : List Nat) (j : WJob) (b : Bytes) (p : State) : State :=
  let y := p.setTile g (fun k => { k with blocks := rest })
  let z := if blockOk b a then y else y.blockErr false (if j.golden then 8 else 2)
  let w : State := { z with out := { z.out with blocks := z.out.blocks ++ [(a, g, if blockOk b a then b else [])] } }
  (if w.lastTiles.all (fun k => w.out.blocks.any (fun e => e.1 = a && e.2.1 = k)) then w.admissionOut j else w).outStat

/-- What the lines of a block become. -/
def blockTaken (g a : Nat) (rest : List Nat) (j : WJob) (r : Option Bytes × State) : State :=
  match r with
  | (none, s) => s
  | (some b, s) => blockKept g a rest j b s

/-- The oldest block of tile `g`, whose header is `hdr`, is whole, or too large to be one. -/
def blockWhole (s : State) (g : Nat) (hdr : Bytes) : Bool :=
  decide (blockLines hdr ≤ s.ringOcc g 3) || (decide (256 < fieldB hdr 4 2) && decide (0 < s.ringOcc g 3))

/-- Its wedge has room for it. -/
def blockFits (s : State) (j : WJob) (hdr : Bytes) : Bool :=
  j.golden || decide (s.wedgeQueue + blockLines hdr * 512 ≤ 2 ^ 17) || decide (256 < fieldB hdr 4 2)

/-- The oldest result block of tile `g` taken, or left. -/
def blockStep (g : Nat) (s : State) : State :=
  match (s.tile g).blocks with
  | [] => s
  | a :: rest =>
    match s.pipe.flight.find? (fun j => j.admNo = a) with
    | none => s
    | some j => s.when ((s.dev = dsNoon || s.dev = dsDusk) && s.on (RING.CFG_EN g 3) && blockWhole s g (s.spdBytes g (s.headLine g 3 * 512) 64) &&
        blockFits s j (s.spdBytes g (s.headLine g 3 * 512) 64))
      (fun w => blockTaken g a rest j (w.ringPops g 3 (min (blockLines (s.spdBytes g (s.headLine g 3 * 512) 64)) (w.ringOcc g 3))))

theorem exec_resultBlockDrain (s : State) (t : Nat) (g : Fin 80) (x : Soft) :
    exec (.resultBlockDrain t g x) s = softRun t g x (blockStep g) s := rfl

theorem blockStep_of {g a : Nat} {rest : List Nat} {j : WJob} (hq : (s.tile g).blocks = a :: rest)
    (hj : s.pipe.flight.find? (fun j => j.admNo = a) = some j) : blockStep g s =
    s.when ((s.dev = dsNoon || s.dev = dsDusk) && s.on (RING.CFG_EN g 3) && blockWhole s g (s.spdBytes g (s.headLine g 3 * 512) 64) &&
      blockFits s j (s.spdBytes g (s.headLine g 3 * 512) 64))
      (fun w => blockTaken g a rest j (w.ringPops g 3 (min (blockLines (s.spdBytes g (s.headLine g 3 * 512) 64)) (w.ringOcc g 3)))) := by
  rw [blockStep, hq]
  dsimp only
  rw [hj]

theorem dev_drains (h : s.dev = dsNoon ∨ s.dev = dsDusk) : (decide (s.dev = dsNoon) || decide (s.dev = dsDusk)) = true := by
  rw [Bool.or_eq_true, decide_eq_true_iff, decide_eq_true_iff]
  exact h

theorem and_true_four {a b c d : Bool} (ha : a = true) (hb : b = true) (hc : c = true) (hd : d = true) : (a && b && c && d) = true := by
  rw [ha, hb, hc, hd]
  rfl

theorem blockWhole_of {g : Nat} {hdr : Bytes} (h : blockLines hdr ≤ s.ringOcc g 3 ∨ (256 < fieldB hdr 4 2 ∧ 0 < s.ringOcc g 3)) :
    blockWhole s g hdr = true := by
  rw [blockWhole, Bool.or_eq_true, Bool.and_eq_true, decide_eq_true_iff, decide_eq_true_iff, decide_eq_true_iff]
  exact h

theorem blockFits_iff {j : WJob} {hdr : Bytes} : blockFits s j hdr = true ↔
    j.golden = true ∨ s.wedgeQueue + blockLines hdr * 512 ≤ 2 ^ 17 ∨ 256 < fieldB hdr 4 2 := by
  rw [blockFits, Bool.or_eq_true, Bool.or_eq_true, decide_eq_true_iff, decide_eq_true_iff, or_assoc]

/-- Settles O36: a column entry becomes a record or an error, a result block is kept, is an error or waits. Which column a line
belongs to (assumption 22) is the model's choice. -/
theorem resultsDrained : Obligations.ResultsDrained := by
  intro s t g soft hrun x so col blk hdev hen
  have hr := hrun.1
  refine ⟨fun hrole hocc => ?_, fun a rest j hq hj => ?_, fun a rest j hq hj => ?_⟩
  · have hpop {y : State} (hy : entryTaken (so.tile g).nextSvc (so.ringPop g 3) = y) : col y :=
      exec_softRun_eq hr (exec_columnEntryDrain s t g soft)
        ((when_true (and_true_four (dev_drains hdev) (decide_eq_true hrole) hen (decide_eq_true hocc))).trans hy)
    refine ⟨fun y h => hpop (by rw [h]; rfl), fun b y h => ?_⟩
    intro z named
    refine ⟨fun hinj hres c hc => hpop ?_, fun hbad => hpop ?_⟩
    · rw [h]
      exact (congrArg₂ (fun i n => entryJudged b i n z) hinj hc).trans (entryJudged_named hres)
    · rw [h]
      exact entryJudged_bad hbad
  · intro hdr n over_ hwhole hfits
    have hpop {y : State} (hy : blockTaken g a rest j (so.ringPops g 3 (min n (so.ringOcc g 3))) = y) : blk y :=
      exec_softRun_eq hr (exec_resultBlockDrain s t g soft) ((blockStep_of hq hj).trans
        ((when_true (and_true_four (dev_drains hdev) hen (blockWhole_of hwhole) (blockFits_iff.2 hfits))).trans hy))
    exact ⟨fun y h => hpop (by rw [h]; rfl), fun b p h => hpop (by rw [h]; rfl)⟩
  · intro hdr hgolden hsmall hfull
    refine exec_softRun_eq hr (exec_resultBlockDrain s t g soft) ((blockStep_of hq hj).trans (when_false ?_))
    have hfits : blockFits so j hdr = false := by
      rw [← Bool.not_eq_true, blockFits_iff, hgolden]
      rintro (h | h | h)
      · exact Bool.false_ne_true h
      · exact absurd h (Nat.not_le.2 hfull)
      · exact absurd h (Nat.not_lt.2 hsmall)
    exact Eq.trans (congrArg _ hfits) (Bool.and_false _)

end Sys2Proof.Proofs
end

section
/-! PROOFS. The map store: reads, the apply, shadows and slots, migration and the cache (R254, R263 to R268, R273, R274, R277, R279). -/

namespace Sys2Proof.Proofs

open Sys2Proof.Machine Sys2Proof.Laws

variable {s u v : State}

/-! ### Reads -/

theorem dramInject_none {d : Nat} (e : EccRes) (h : s.age.dramInj.getD d 0 = 0) : s.dramInject d e = (e, false, s) := by
  unfold State.dramInject
  simp only [h]

theorem mapByteRead_clean {d a : Nat} {ue : State → Bool → State} (h : s.age.dramInj.getD d 0 = 0) : s.mapByteRead d a .clean ue = (true, s) := by
  simp only [State.mapByteRead, dramInject_none _ h]

theorem mp_memKept (s : State) (f : MapSt → MapSt) (h : (f s.map).mem = s.map.mem) : MemKept s (s.mp f) :=
  ⟨fun _ => rfl, fun _ => rfl, fun a => by rw [mp_map, h], fun _ => rfl, fun _ => rfl, fun _ => rfl, fun _ => rfl, rfl⟩

/-- A read of unit `d` that has ended, no longer shown. -/
def readEnded (d : Nat) (rest : List (RowKey × Nat)) (s : State) : State :=
  (s.setTge d (fun y => { y with outst := rest })).put (TGE.STAT_OUTST d) rest.length

theorem readEnded_outst {d : Nat} {rest : List (RowKey × Nat)} (h : rest.length ≤ 512) :
    (readEnded d rest s).get (TGE.STAT_OUTST d) = rest.length :=
  get_put_of_lt (show 0 + 10 ≤ 32 by decide) (show rest.length < 2 ^ 10 by omega)

theorem readEnded_map (d : Nat) (rest : List (RowKey × Nat)) :
    (readEnded d rest s).map = { s.map with tge := s.map.tge.modify d (fun y => { y with outst := rest }) } := by
  rw [readEnded, put_map]
  rfl

theorem readEnded_memKept (d : Nat) (rest : List (RowKey × Nat)) : MemKept s (readEnded d rest s) :=
  memKept_trans (mp_memKept s _ rfl) ((OnlyRegs.refl _).put _ _).memKept

theorem readEnded_regsBut (d : Nat) (rest : List (RowKey × Nat)) : RegsBut [(TGE.STAT d).addr] s (readEnded d rest s) :=
  regsBut_put _ (List.mem_singleton_self _) (fun _ _ => rfl)

theorem mapDramReadDone_completes {t : Nat} {d : Fin 2} {k : RowKey} {n : Nat} {rest : List (RowKey × Nat)} (hrun : s.Running t)
    (hq : (s.tge d).outst = (k, n) :: rest) (hinj : s.age.dramInj.getD d 0 = 0) {P : State → Prop}
    (hP : ∀ u, Ends (readEnded d rest (s.clock t)) u → P u) : Completes (.mapDramReadDone t d .clean) s P := by
  refine completes_ends hrun (rfl : _ = execMapDramReadDone t d .clean s) ?_ (by rw [readEnded, put_safety]; exact hrun.2.1) hP
  rw [show ((s.clock t).tge d).outst = (k, n) :: rest from hq]
  exact congrArg Prod.snd (mapByteRead_clean (s := readEnded d rest (s.clock t)) (by rw [readEnded, put_age]; exact hinj))

/-! ### The units' status -/

/-- The status of a unit's update buffer: a bank being applied, a bank as shadow. -/
def bufferShown (w : State) (d : Nat) : State :=
  (w.put (TGE.STAT_APPLY d) (b2n (w.map.banks.any (fun b => b.phase = 1)))).put (TGE.STAT_SHADOW d) (b2n (w.map.banks.any (fun b => b.phase = 2)))

theorem tgeStat_eq (s : State) : s.tgeStat = bufferShown (bufferShown s 0) 1 := by
  unfold State.tgeStat bufferShown
  rfl

theorem tgeStat_onlyRegs (s : State) : OnlyRegs s s.tgeStat := by
  rw [tgeStat_eq]
  exact .put (.put (.put (.put (.refl s) _ _) _ _) _ _) _ _

theorem tgeStat_regsBut (s : State) : RegsBut [(TGE.STAT 0).addr, (TGE.STAT 1).addr] s s.tgeStat := by
  rw [tgeStat_eq]
  exact regsBut_put _ (by decide) (regsBut_put _ (by decide) (regsBut_put _ (by decide) (regsBut_put _ (by decide) (regsBut_refl _ s))))

theorem leaves_buffer : ∀ d e : Fin 2, Leaves (TGE.STAT_SHADOW d) (TGE.STAT_APPLY e) ∧
    (d ≠ e → Leaves (TGE.STAT_APPLY d) (TGE.STAT_APPLY e) ∧ Leaves (TGE.STAT_APPLY d) (TGE.STAT_SHADOW e) ∧
      Leaves (TGE.STAT_SHADOW d) (TGE.STAT_SHADOW e)) := by decide

theorem bufferShown_self (w : State) (d : Fin 2) : (bufferShown w d).get (TGE.STAT_APPLY d) = b2n (w.map.banks.any (fun b => b.phase = 1)) ∧
    (bufferShown w d).get (TGE.STAT_SHADOW d) = b2n (w.map.banks.any (fun b => b.phase = 2)) := by
  unfold bufferShown
  exact ⟨(get_put_other _ (leaves_buffer d d).1 _).trans (get_put_of_lt (show 16 + 1 ≤ 32 by decide) (b2n_lt _)),
    get_put_of_lt (show 17 + 1 ≤ 32 by decide) (b2n_lt _)⟩

theorem bufferShown_map (w : State) (d : Nat) : (bufferShown w d).map = w.map := by rw [bufferShown, put_map, put_map]

theorem bufferShown_other (w : State) {d e : Fin 2} (h : d ≠ e) : (bufferShown w d).get (TGE.STAT_APPLY e) = w.get (TGE.STAT_APPLY e) ∧
    (bufferShown w d).get (TGE.STAT_SHADOW e) = w.get (TGE.STAT_SHADOW e) := by
  obtain ⟨hsa, hne⟩ := leaves_buffer d e
  obtain ⟨haa, has, hss⟩ := hne h
  unfold bufferShown
  exact ⟨(get_put_other _ hsa _).trans (get_put_other _ haa _), (get_put_other _ hss _).trans (get_put_other _ has _)⟩

theorem tgeStat_shows (s : State) (d : Fin 2) : s.tgeStat.get (TGE.STAT_APPLY d) = b2n (s.map.banks.any (fun b => b.phase = 1)) ∧
    s.tgeStat.get (TGE.STAT_SHADOW d) = b2n (s.map.banks.any (fun b => b.phase = 2)) := by
  rw [tgeStat_eq]
  obtain rfl | rfl : d = 0 ∨ d = 1 := by omega
  · obtain ⟨ha, hs⟩ := bufferShown_other (bufferShown s (0 : Fin 2).val) (d := 1) (e := 0) (by decide)
    obtain ⟨ha', hs'⟩ := bufferShown_self s 0
    exact ⟨ha.trans ha', hs.trans hs'⟩
  · obtain ⟨ha, hs⟩ := bufferShown_self (bufferShown s 0) 1
    rw [bufferShown_map] at ha hs
    exact ⟨ha, hs⟩

/-! ### The end of an apply -/

/-- A bank that was being applied is the shadow. -/
def bankTurned (b : MubBank) : MubBank := if b.phase = 1 then { b with phase := 2 } else b

/-- Every bank that was being applied turned into the shadow, and shown so. -/
def applyTurned (s : State) : State := (s.mp (fun m => { m with banks := m.banks.map bankTurned })).tgeStat

/-- The records of an apply kept for the comparison. -/
def recordsKept (r : State × List MapRec) : State := r.1.mp (fun m => { m with own := r.2, touched := [] })

theorem bankTurned_phase (b : MubBank) : (bankTurned b).phase ≠ 1 := by
  unfold bankTurned
  split
  · exact (by decide : (2 : Nat) ≠ 1)
  · assumption

theorem unapply_nil (s : State) : s.unapply [] = s := by
  have hparts (s : State) : (s.map.banks.filter (fun b => b.phase = 1)).foldl (fun s b =>
      b.entries.reverse.foldl (fun s e => if List.contains [] (e.die / 2, e.key) then s.storePart e.die e.key e.old else s) s) s = s := by
    refine List.foldl_fixed' (fun b => ?_) _
    exact List.foldl_fixed' (fun e => if_neg Bool.false_ne_true) _
  have hbank (b : MubBank) : (if b.phase = 1 then { b with entries := b.entries.filter (fun e => !List.contains [] (e.die / 2, e.key)) } else b) = b := by
    have hall : b.entries.filter (fun e => !List.contains [] (e.die / 2, e.key)) = b.entries := List.filter_eq_self.2 (fun _ _ => rfl)
    rw [hall]
    exact ite_self b
  rw [State.unapply]
  dsimp only
  rw [hparts, State.mp, List.map_congr_left (fun b _ => hbank b), List.map_id']

theorem exec_batchApplyDone (s : State) (t : Nat) (d : Fin 2) : exec (.batchApplyDone t d .none []) s = run t (fun s => s.when s.applying (fun s =>
    (recordsKept (applyTurned (s.unapply [])).crcRecords).when
      ((recordsKept (applyTurned (s.unapply [])).crcRecords).linkUp && !(applyTurned (s.unapply [])).crcRecords.2.isEmpty)
      (fun w => (w.sendRecs (applyTurned (s.unapply [])).crcRecords.2).mapCompareAll []))) s := rfl
theorem OnlyRegs.toSafety (h : OnlyRegs s u) : OnlyRegsSafety s u := by
  rw [OnlyRegsSafety, h.safety]
  exact h

/-- The registers that a violation of the map region changes. -/
def violRegs : List Nat :=
  [SI.VIOL_ADDR.addr, SI.VIOL_INFO.addr, SI.VIOL_CNT.addr] ++ SI.EVT_DRAM_VIOL.addr :: reportRegs (SI.EVT_DRAM_VIOL.addr / 4096)

/-- `u` is `s` but for violations reported. -/
def Violated (s u : State) : Prop := OnlyRegsSafety s u ∧ RegsBut violRegs s u

theorem Violated.refl (s : State) : Violated s s := ⟨onlyRS_refl s, regsBut_refl _ s⟩

theorem Violated.trans (h : Violated s u) (h' : Violated u v) : Violated s v := ⟨onlyRS_trans h.1 h'.1, regsBut_trans h.2 h'.2⟩

theorem Violated.get (h : Violated s u) {f : Fld} (hf : f.addr ∉ violRegs) : u.get f = s.get f := by rw [State.get, h.2 _ hf, State.get]

/-- A violation as recorded, before it is reported. -/
def violNoted (s : State) (die addr part : Nat) (write : Bool) : State :=
  (((((s.put SI.VIOL_ADDR_ADDR addr).put SI.VIOL_ADDR_DIE die).put SI.VIOL_INFO_PART part).put SI.VIOL_INFO_WRITE (b2n write)).set1
    SI.VIOL_INFO_VALID).bump SI.VIOL_CNT

theorem dramViol_eq (s : State) (die addr part : Nat) (write : Bool) :
    s.dramViol die addr part write = (violNoted s die addr part write).raise SI.EVT_DRAM_VIOL 2 (2 ^ part) := rfl

theorem violNoted_only (s : State) (die addr part : Nat) (write : Bool) : OnlyRegsSafety s (violNoted s die addr part write) :=
  OnlyRegs.toSafety ((((((OnlyRegs.refl s).put _ _).put _ _).put _ _).put _ _).set1 _ |>.bump _)

theorem violNoted_regsBut (s : State) (die addr part : Nat) (write : Bool) : RegsBut violRegs s (violNoted s die addr part write) := by
  rw [violNoted]
  exact regsBut_bump (by decide) (regsBut_set1 (by decide) (regsBut_put _ (by decide) (regsBut_put _ (by decide)
    (regsBut_put _ (by decide) (regsBut_put _ (by decide) (regsBut_refl _ s))))))

theorem dramViol_violated (s : State) (die addr part : Nat) (write : Bool) : Violated s (s.dramViol die addr part write) := by
  rw [dramViol_eq]
  exact ⟨onlyRS_trans (violNoted_only s die addr part write) (raise_only _ _ _ _ _),
    regsBut_trans (violNoted_regsBut s die addr part write) (regsBut_mono (fun a ha => List.mem_append_right _ ha) (raise_regsBut _ _ _ _ _))⟩

theorem rowAccess_violated (s : State) (d : Nat) (k : RowKey) (part : Nat) (write : Bool) : Violated s (s.rowAccess d k part write).2 := by
  rw [State.rowAccess, State.mapAccess]
  by_cases h : ((s.mapRegion d).isSome && s.dramOk d (s.mapDieAddr d (s.rowAddr d k)) (s.rowLen k) part write true) = true
  · rw [if_pos h]
    exact .refl s
  · rw [if_neg h]
    dsimp only
    exact dramViol_violated s d (s.mapDieAddr d (s.rowAddr d k)) part write

/-- The record that unit `d` forms of a block. -/
def blockRecord (d : Fin 2) (b : Nat × Nat × Nat) (s : State) : MapRec :=
  { unit := d, epoch := s.get (MAP.EPOCH_EPOCH 0), level := b.1, table := b.2.1, block := b.2.2
    serial := s.get (MAP.LVL_SERIAL_SERIAL 0 b.1), crc := s.blockCrc d b, owner := s.mapOwner }

/-- A block added to the records, unless the region does not let it be read. -/
def recordStep (d : Fin 2) (p : List MapRec × State) (b : Nat × Nat × Nat) : List MapRec × State :=
  match p.2.rowAccess d { level := b.1, slot := p.2.activeSlot b.1, table := b.2.1, row := b.2.2 * 4096 } 2 false with
  | (false, s) => (p.1, s)
  | (true, s) => (p.1 ++ [blockRecord d b s], s)

/-- Records of the epoch and of the owner that `s` shows, formed from `s`. -/
def RecordsOf (s : State) (p : List MapRec × State) : Prop :=
  Violated s p.2 ∧ ∀ r ∈ p.1, r.epoch = s.get (MAP.EPOCH_EPOCH 0) ∧ r.owner = s.mapOwner

theorem blockRecord_of (h : Violated s u) (d : Fin 2) (b : Nat × Nat × Nat) :
    (blockRecord d b u).epoch = s.get (MAP.EPOCH_EPOCH 0) ∧ (blockRecord d b u).owner = s.mapOwner := by
  refine ⟨h.get (by decide), ?_⟩
  show u.mapOwner = _
  rw [State.mapOwner, h.get (by decide), h.get (by decide), State.mapOwner]

theorem recordStep_of {p : List MapRec × State} (h : RecordsOf s p) (d : Fin 2) (b : Nat × Nat × Nat) : RecordsOf s (recordStep d p b) := by
  obtain ⟨hv, hrecs⟩ := h
  have hread := hv.trans (rowAccess_violated p.2 d { level := b.1, slot := p.2.activeSlot b.1, table := b.2.1, row := b.2.2 * 4096 } 2 false)
  unfold recordStep
  generalize p.2.rowAccess d { level := b.1, slot := p.2.activeSlot b.1, table := b.2.1, row := b.2.2 * 4096 } 2 false = q at hread
  obtain ⟨ok, w⟩ := q
  cases ok with
  | false => exact ⟨hread, hrecs⟩
  | true =>
    refine ⟨hread, fun r hr => ?_⟩
    rcases List.mem_append.1 hr with hr | hr
    · exact hrecs r hr
    · rw [List.mem_singleton.1 hr]
      exact blockRecord_of hread d b

theorem foldl_recordStep {p : List MapRec × State} (d : Fin 2) (bs : List (Nat × Nat × Nat)) (h : RecordsOf s p) :
    RecordsOf s (bs.foldl (recordStep d) p) := by
  induction bs generalizing p with
  | nil => exact h
  | cons b bs ih => exact ih (recordStep_of h d b)

/-- The blocks that an apply forms records of: those touched, and the next ones of the rotating check. -/
def blocksScanned (s : State) : List Nat :=
  (((List.range s.allBlocks.length).map (fun i => (s.map.scan + i) % s.allBlocks.length)).filter
    (fun i => !s.map.touched.contains (s.allBlocks.getD i (0, 0, 0)))).take (s.get (MAP.PAIR_SCAN_BLOCKS 0))

def blocksChecked (s : State) : List (Nat × Nat × Nat) :=
  s.map.touched ++ (blocksScanned s).map (fun i => s.allBlocks.getD i (0, 0, 0))

def recordsFormed (s : State) : List MapRec × State :=
  (blocksChecked s).foldl (recordStep 1) ((blocksChecked s).foldl (recordStep 0) ([], s))

theorem recordsFormed_of (s : State) : RecordsOf s (recordsFormed s) :=
  foldl_recordStep 1 _ (foldl_recordStep 0 _ ⟨.refl s, fun _ hr => absurd hr List.not_mem_nil⟩)

theorem crcRecords_eq (s : State) : s.crcRecords = ((recordsFormed s).2.mp (fun m => { m with scan :=
    match (blocksScanned s).getLast? with | none => m.scan | some i => (i + 1) % s.allBlocks.length }), (recordsFormed s).1) := rfl

/-- The state after an apply, its records formed. -/
def applyEnded (s : State) : State := recordsKept (applyTurned s).crcRecords

theorem applyEnded_eq (s : State) : applyEnded s = ((recordsFormed (applyTurned s)).2.mp (fun m => { m with scan :=
    match (blocksScanned (applyTurned s)).getLast? with | none => m.scan | some i => (i + 1) % (applyTurned s).allBlocks.length })).mp
      (fun m => { m with own := (recordsFormed (applyTurned s)).1, touched := [] }) := by
  rw [applyEnded, recordsKept, crcRecords_eq]

theorem applyTurned_map (s : State) : (applyTurned s).map = { s.map with banks := s.map.banks.map bankTurned } := by
  rw [applyTurned, (tgeStat_onlyRegs _).map, mp_map]

theorem recordsFormed_map (s : State) : (recordsFormed s).2.map = s.map := onlyRS_map (recordsFormed_of s).1.1

theorem applyEnded_banks (s : State) : (applyEnded s).map.banks = s.map.banks.map bankTurned := by
  rw [applyEnded_eq, mp_map, mp_map, recordsFormed_map, applyTurned_map]

theorem applyEnded_mem (s : State) : (applyEnded s).map.mem = s.map.mem := by
  rw [applyEnded_eq, mp_map, mp_map, recordsFormed_map, applyTurned_map]

theorem applyEnded_outbox (s : State) : (applyEnded s).outbox = s.outbox := by
  rw [applyEnded_eq, mp_outbox, mp_outbox, onlyRS_outbox (recordsFormed_of _).1.1, applyTurned, (tgeStat_onlyRegs _).outbox, mp_outbox]

theorem applyEnded_memKept (s : State) : MemKept s (applyEnded s) := by
  have hturned : MemKept s (applyTurned s) := memKept_trans (mp_memKept s _ rfl) (tgeStat_onlyRegs _).memKept
  have hformed := memKept_trans hturned (OnlyRegsSafety.memKept (recordsFormed_of (applyTurned s)).1.1)
  rw [applyEnded_eq]
  exact memKept_trans (memKept_trans hformed (mp_memKept _ _ rfl)) (mp_memKept _ _ rfl)

theorem tgeStat_not_viol : ∀ d : Fin 2, (TGE.STAT_APPLY d).addr ∉ violRegs ∧ (TGE.STAT_SHADOW d).addr ∉ violRegs := by decide

theorem banks_turned (bs : List MubBank) (h : bs.any (fun b => b.phase = 1) = true) :
    (bs.map bankTurned).any (fun b => b.phase = 1) = false ∧ (bs.map bankTurned).any (fun b => b.phase = 2) = true := by
  refine ⟨List.any_eq_false.2 fun b hb => ?_, ?_⟩
  · obtain ⟨c, -, rfl⟩ := List.mem_map.1 hb
    exact fun h1 => bankTurned_phase c (of_decide_eq_true h1)
  · obtain ⟨b, hb, h1⟩ := List.any_eq_true.1 h
    refine List.any_eq_true.2 ⟨bankTurned b, List.mem_map_of_mem hb, decide_eq_true ?_⟩
    rw [bankTurned, if_pos (of_decide_eq_true h1)]

theorem applyEnded_get (s : State) {f : Fld} (hf : f.addr ∉ violRegs) : (applyEnded s).get f = (applyTurned s).get f := by
  rw [applyEnded_eq, mp_get, mp_get, (recordsFormed_of _).1.get hf]

theorem applyEnded_shows (h : s.applying = true) (d : Fin 2) :
    (applyEnded s).get (TGE.STAT_APPLY d) = 0 ∧ (applyEnded s).get (TGE.STAT_SHADOW d) = 1 := by
  obtain ⟨happly, hshadow⟩ := tgeStat_shows (s.mp (fun m => { m with banks := m.banks.map bankTurned })) d
  obtain ⟨hnone, hsome⟩ := banks_turned s.map.banks h
  rw [mp_map] at happly hshadow
  rw [hnone] at happly
  rw [hsome] at hshadow
  exact ⟨(applyEnded_get s (tgeStat_not_viol d).1).trans happly, (applyEnded_get s (tgeStat_not_viol d).2).trans hshadow⟩

theorem applyTurned_epoch (s : State) : (applyTurned s).get (MAP.EPOCH_EPOCH 0) = s.get (MAP.EPOCH_EPOCH 0) ∧ (applyTurned s).mapOwner = s.mapOwner := by
  have hget {f : Fld} (hf : f.addr ∉ [(TGE.STAT 0).addr, (TGE.STAT 1).addr]) : (applyTurned s).get f = s.get f := by
    rw [applyTurned, State.get, tgeStat_regsBut _ _ hf, mp_reg, State.get]
  refine ⟨hget (by decide), ?_⟩
  rw [State.mapOwner, hget (by decide), hget (by decide), State.mapOwner]

theorem applyEnded_records (s : State) : ∀ r ∈ (applyTurned s).crcRecords.2, r.epoch = s.get (MAP.EPOCH_EPOCH 0) ∧ r.owner = s.mapOwner := by
  intro r hr
  obtain ⟨hepoch, howner⟩ := applyTurned_epoch s
  rw [crcRecords_eq] at hr
  obtain ⟨he, ho⟩ := (recordsFormed_of (applyTurned s)).2 r hr
  exact ⟨he.trans hepoch, ho.trans howner⟩

theorem exec_batchApplyDone_applying {t : Nat} {d : Fin 2} (hr : s.released = true) (h : (s.at_ t).applying = true) :
    exec (.batchApplyDone t d .none []) s = .next ((s.at_ t).finish
      (if (applyEnded (s.at_ t)).linkUp && !(applyTurned (s.at_ t)).crcRecords.2.isEmpty then
        ((applyEnded (s.at_ t)).sendRecs (applyTurned (s.at_ t)).crcRecords.2).mapCompareAll [] else applyEnded (s.at_ t))) := by
  refine exec_run_eq hr (exec_batchApplyDone s t d) ((when_true h).trans ?_)
  rw [unapply_nil]
  rfl

/-! ### Shadows and slots -/

theorem shadowBankClear_completes {t : Nat} (hrun : s.Running t) (h : s.map.banks.any s.shadowFree = true) {P : State → Prop}
    (hP : ∀ u, Ends ((s.clock t).mp (fun m => { m with banks := m.banks.filter (fun b => !s.shadowFree b) })).tgeStat u → P u) :
    Completes (.shadowBankClear t) s P :=
  completes_ends hrun (rfl : _ = execShadowBankClear t s) (when_true h) (by rw [(tgeStat_onlyRegs _).safety]; exact hrun.2.1) hP

/-- No slot is busy. -/
def slotsFree (s : State) : State := ((s.mp (fun m => { m with busy := [] })).put (MAP.BUSY_SLOT0 0) 0).put (MAP.BUSY_SLOT1 0) 0

/-- The slots that a wedge still samples, of a level's slot `v`. -/
def slotBits (keep : List (Nat × Nat × Nat)) (v : Nat) : Nat :=
  (List.range 16).foldl (fun m l => if keep.any (fun e => e.1 = l && e.2.1 = v) then m + 2 ^ l else m) 0

/-- The slots that an open wedge samples. -/
def slotsKept (s : State) : List (Nat × Nat × Nat) :=
  s.map.busy.filter (fun e => (s.before (s.get (MAP.STAGES_LOOK_LAST 0))).any (fun j => decide (j.seq < e.2.2)))

theorem exec_slotBusyEnd (s : State) (t : Nat) : exec (.slotBusyEnd t) s = run t (fun s =>
    ((s.mp (fun m => { m with busy := slotsKept s })).put (MAP.BUSY_SLOT0 0) (slotBits (slotsKept s) 0)).put (MAP.BUSY_SLOT1 0)
      (slotBits (slotsKept s) 1)) s := rfl

theorem slotsKept_none (h : s.before (s.get (MAP.STAGES_LOOK_LAST 0)) = []) : slotsKept s = [] := by
  rw [slotsKept, h]
  exact List.filter_eq_nil_iff.2 fun _ _ => Bool.false_ne_true

theorem slotBits_nil (v : Nat) : slotBits [] v = 0 := List.foldl_fixed' (fun _ => if_neg Bool.false_ne_true) _

theorem slotsFree_safety (s : State) : (slotsFree s).safety = s.safety := by rw [slotsFree, put_safety, put_safety, mp_safety]

theorem slotsFree_onlyMap (s : State) : (slotsFree s).map = { s.map with busy := [] } ∧ MemKept s (slotsFree s) ∧
    RegsBut [(MAP.BUSY 0).addr] s (slotsFree s) ∧ (slotsFree s).get (MAP.BUSY_SLOT0 0) = 0 ∧ (slotsFree s).get (MAP.BUSY_SLOT1 0) = 0 := by
  unfold slotsFree
  refine ⟨by rw [put_map, put_map, mp_map],
    memKept_trans (mp_memKept s _ rfl) (((OnlyRegs.refl _).put _ _).put _ _).memKept,
    regsBut_put _ (by decide) (regsBut_put _ (by decide) (fun _ _ => rfl)), ?_, get_put_self _ _ _ (by decide)⟩
  rw [get_put_other _ (show Leaves (MAP.BUSY_SLOT1 0) (MAP.BUSY_SLOT0 0) by decide)]
  exact get_put_self _ _ _ (by decide)

theorem slotBusyEnd_completes {t : Nat} (hrun : s.Running t) (h : s.before (s.get (MAP.STAGES_LOOK_LAST 0)) = []) {P : State → Prop}
    (hP : ∀ u, Ends (slotsFree (s.clock t)) u → P u) : Completes (.slotBusyEnd t) s P := by
  refine completes_ends hrun (exec_slotBusyEnd s t) ?_ (by rw [slotsFree_safety]; exact hrun.2.1) hP
  rw [slotsKept_none (show (s.clock t).before ((s.clock t).get (MAP.STAGES_LOOK_LAST 0)) = [] from h), slotBits_nil, slotBits_nil]
  rfl

/-! ### Migration -/

section
variable {t : Nat} {d : Fin 2} (hr : s.released = true) (hforced : (s.at_ t).age.forced = false)
include hr hforced

theorem migrationRun_runs {moves : List (Nat × Option Nat)} {errs : List (Nat × EccRes)} (hruns : (s.at_ t).msRuns 3 d = true) :
    exec (.migrationRun t d moves errs) s = .next ((s.at_ t).finish
      (if moves.isEmpty then (s.at_ t).migEnd d else if (s.at_ t).maintWaits 3 then s.at_ t else (s.at_ t).migrate d errs moves)) :=
  exec_run_eq hr (rfl : _ = execMigrationRun t d moves errs s) ((if_neg (by rw [hforced]; exact Bool.false_ne_true)).trans (if_pos hruns))

end

section
variable {d a : Nat} {v : Option Nat} {errs : List (Nat × EccRes)} {l : List (Nat × Option Nat)}

theorem migrate_last (h : s.get (MAP.MIG_UNITS 0) ≤ (s.tge d).mig) : s.migrate d errs ((a, v) :: l) = s.migEnd d := by
  rw [State.migrate, if_pos h]

theorem migrate_full (h : (s.tge d).mig < s.get (MAP.MIG_UNITS 0)) (hfull : s.moveFull d a v = true) :
    s.migrate d errs ((a, v) :: l) = (s.set1 (MAP.EVT_REMAP_FULL 0)).migEnd d := by
  rw [State.migrate, if_neg (Nat.not_le.2 h), if_pos hfull]

theorem migrate_move (h : (s.tge d).mig < s.get (MAP.MIG_UNITS 0)) (hfull : s.moveFull d a v = false) (hok : s.moveOk d a v = true) {y : State}
    (hread : s.unitRead d a errs = (true, y)) : s.migrate d errs ((a, v) :: l) = (y.moveUnit d a v).migrate d errs l := by
  rw [State.migrate, if_neg (Nat.not_le.2 h), if_neg (by rw [hfull]; exact Bool.false_ne_true), if_neg (by rw [hok]; exact Bool.false_ne_true), hread]

theorem migrate_lost (h : (s.tge d).mig < s.get (MAP.MIG_UNITS 0)) (hfull : s.moveFull d a v = false) (hok : s.moveOk d a v = true) {y : State}
    (hread : s.unitRead d a errs = (false, y)) : s.migrate d errs ((a, v) :: l) = y.migEnd d := by
  rw [State.migrate, if_neg (Nat.not_le.2 h), if_neg (by rw [hfull]; exact Bool.false_ne_true), if_neg (by rw [hok]; exact Bool.false_ne_true), hread]

end

theorem moveUnit_mem (s : State) (d a v : Nat) : (s.moveUnit d a (some v)).map.mem =
    Mem.store s.map.mem (d * 2 ^ 30 + v * 4096) (Mem.bytes s.map.mem (s.mapAddr d (a * 4096)) 4096) := by
  rw [State.moveUnit, put_map, bump_map, State.setTge, mp_map, mp_map, Option.getD_some]

/-! ### The hot-row cache -/

/-- The rows that a refresh unpins and pins. -/
def cacheWork (d : Nat) (unpin : List RowKey) (loads : List (RowKey × EccRes)) (s : State) : State :=
  if s.maintWaits 4 then s
  else
    let z := loads.foldl (fun s e => s.pinLoad d e.1 e.2) (s.setTge d (fun k => { k with pins := k.pins.filter (fun r => !unpin.contains r) }))
    z.put (TGE.CACHE_OCC_ENTRIES d) (z.tge d).pins.length

theorem exec_cacheRefresh (s : State) (t : Nat) (d : Fin 2) (unpin : List RowKey) (loads : List (RowKey × EccRes)) :
    exec (.cacheRefresh t d unpin loads) s = run t (fun s =>
      if s.age.forced then s.set1If (s.msRuns 4 d) MS.EVT_PREEMPT
      else if s.msRuns 4 d then
        (if unpin.isEmpty && loads.isEmpty then ((s.setTge d (fun k => { k with hot := [] })).put (TGE.STAT_REFRESH d) 0).msEnd 4 d
        else cacheWork d unpin loads s)
      else if s.msCanStart 4 d then cacheWork d unpin loads ((s.msStart 4 d).put (TGE.STAT_REFRESH d) 1)
      else s) s := rfl

theorem pinLoad_read {d : Nat} {k : RowKey} {e : EccRes} {y z : State} (hrow : s.rowExists k = true) (hbad : s.badRow d k = false)
    (hnew : (s.tge d).pins.contains k = false) (hroom : (s.tge d).pins.length < 65536) (haccess : s.rowAccess d k 2 false = (true, y))
    (hread : y.rowRead d k e = (true, z)) : s.pinLoad d k e = z.setTge d (fun x => { x with pins := x.pins ++ [k] }) := by
  rw [State.pinLoad, if_neg (by rw [hrow, hbad, hnew, decide_eq_false (Nat.not_le.2 hroom)]; exact Bool.false_ne_true), haccess]
  dsimp only
  rw [hread]

/-- Settles O35: reads, the end of an apply, shadows, slots, migration and the cache. That a run of migration and a refresh end with a
command that names nothing (assumptions 79 and 93) is the model's choice. -/
theorem mapStore : Obligations.MapStore := by
  refine ⟨?_, ?_⟩
  · intro s t d hrun x
    have hx : x = s.clock t := hrun.2.2
    refine ⟨fun k n rest hq hlen hinj => ?_, fun hany => ?_, fun hfree => ?_, fun hnone => ?_⟩
    · refine mapDramReadDone_completes hrun hq hinj fun u hu => ?_
      exact ⟨(hu.get _).trans (readEnded_outst hlen), hu.map.trans (readEnded_map _ _), hu.regsBut (readEnded_regsBut _ _),
        hu.memKept (memKept_trans (clock_onlyMem s t) (readEnded_memKept _ _))⟩
    · have hany' : x.applying = true := by rw [hx]; exact hany
      refine ⟨applyEnded x, (applyTurned x).crcRecords.2, rfl, rfl, ?_, ?_, ?_, ?_, ?_, ?_, fun v => applyEnded_shows hany' v,
        exec_batchApplyDone_applying hrun.1 hany'⟩
      · rw [applyEnded_banks]
        refine List.all_eq_true.2 fun b hb => ?_
        obtain ⟨c, -, rfl⟩ := List.mem_map.1 hb
        exact decide_eq_true (bankTurned_phase c)
      · rw [applyEnded_banks, List.length_map, hx]
        rfl
      · rw [applyEnded_mem, hx]
        rfl
      · rw [applyEnded_outbox, hx]
        rfl
      · have hkept := applyEnded_memKept x
        rw [hx] at hkept ⊢
        exact memKept_trans (clock_onlyMem s t) hkept
      · have hrecs := applyEnded_records x
        rw [hx] at hrecs ⊢
        exact hrecs
    · refine shadowBankClear_completes hrun hfree fun u hu => ?_
      refine ⟨hu.map.trans (by rw [(tgeStat_onlyRegs _).map, mp_map]; rfl), hu.regsBut (regsBut_trans (fun _ _ => rfl) (tgeStat_regsBut _)),
        hu.memKept (memKept_trans (clock_onlyMem s t) (memKept_trans (mp_memKept _ _ rfl) (tgeStat_onlyRegs _).memKept))⟩
    · refine slotBusyEnd_completes hrun hnone fun u hu => ?_
      obtain ⟨hmap, hmem, hregs, h0, h1⟩ := slotsFree_onlyMap (s.clock t)
      exact ⟨hu.map.trans hmap, (hu.get _).trans h0, (hu.get _).trans h1, hu.regsBut hregs, hu.memKept (memKept_trans (clock_onlyMem s t) hmem)⟩
  · intro s t d hrun hforced x
    have hforcedx : (s.at_ t).age.forced = false := by rw [hrun.2.2]; exact hforced
    refine ⟨fun hruns a v l errs => ?_, fun a v => moveUnit_mem s d a v, fun hruns hcan => ?_, fun hruns => ?_,
      fun k e y z hrow hbad hnew hroom haccess hread => pinLoad_read hrow hbad hnew hroom haccess hread⟩
    · intro mig
      have hmig {moves : List (Nat × Option Nat)} {y : State}
          (hy : (if moves.isEmpty then x.migEnd d else if x.maintWaits 3 then x else x.migrate d errs moves) = y) : mig moves y :=
        (migrationRun_runs hrun.1 hforcedx hruns).trans (congrArg (fun z => Host.Outcome.next (x.finish z)) hy)
      have hmove {m : Nat × Option Nat} {l : List (Nat × Option Nat)} {y : State} (hwait : x.maintWaits 3 = false)
          (hy : x.migrate d errs (m :: l) = y) : mig (m :: l) y :=
        hmig ((if_neg Bool.false_ne_true).trans ((if_neg (by rw [hwait]; exact Bool.false_ne_true)).trans hy))
      refine ⟨hmig (if_pos rfl), fun hwait => hmig ((if_neg Bool.false_ne_true).trans (if_pos hwait)),
        fun hwait hlast => hmove hwait (migrate_last hlast), fun hwait hmore => ⟨fun hfull => hmove hwait (migrate_full hmore hfull),
          fun hfull hok y hread => ?_, fun hfull hok y hread => hmove hwait (migrate_lost hmore hfull hok hread)⟩⟩
      intro z
      exact hmove hwait (migrate_move hmore hfull hok hread)
    · intro y unpin loads hwait z
      exact exec_run_eq hrun.1 (exec_cacheRefresh s t d unpin loads) ((if_neg (by rw [hforcedx]; exact Bool.false_ne_true)).trans
        ((if_neg (by rw [show (s.at_ t).msRuns 4 d = false from hruns]; exact Bool.false_ne_true)).trans ((if_pos hcan).trans
          (if_neg (by rw [hwait]; exact Bool.false_ne_true)))))
    · exact exec_run_eq hrun.1 (exec_cacheRefresh s t d [] []) ((if_neg (by rw [hforcedx]; exact Bool.false_ne_true)).trans
        ((if_pos hruns).trans (if_pos rfl)))

end Sys2Proof.Proofs
end
